-- ==== Sys2Proof/Word.lean ====
section
/-! DEFINITION. The word types of the LD9 (spec 00, R18, R19; spec 02, R58). -/
namespace Sys2Proof

/-- One byte. -/
abbrev Byte := BitVec 8

/-- A 16-bit word: unit address words, member words, flags words. -/
abbrev Half := BitVec 16

/-- A 32-bit word: serials, tags, status words. -/
abbrev Word := BitVec 32

/-- A 64-bit word: module addresses, bus addresses, counters. -/
abbrev Dword := BitVec 64



/-- An FP32 value by its encoding (spec 02, R58). -/
abbrev F32 := BitVec 32

/-- A string of bytes, lowest address first. -/
abbrev Bytes := List Byte

end Sys2Proof
end

