-- ==== Sys2Proof/Syntax.lean ====
section
/-! DEFINITION. The commands of the LD9: one constructor for each row of spec/opcode_table.json, with the row's
operands, and the types of those operands. -/
namespace Sys2Proof

/-- What a command packet carries beside its opcode and parameters (spec 15, R472): the port that sends it, its tag,
its host buffer. `rsv` holds the packet's reserved bits and unused parameter bytes, taken together: zero when they
are all zero (spec 00, R20). -/
structure Cmd where
  port : Nat
  tag : Word
  rsv : Dword
  bufRegion : Half
  bufOffset : Dword
  deriving DecidableEq, Repr

/-- What a read of host memory gives: the bytes, or a host error (spec 15, R462). -/
inductive HostRead where
  | data (bytes : Bytes)
  | error
  deriving DecidableEq, Repr

/-- Whose host read fails in HOST_ERROR (spec 15, R462). -/
inductive HostReader where
  | planImage
  | firmware
  | package
  | relight
  | stream (handle position : Nat)
  deriving DecidableEq, Repr

/-- Targets of a field test (spec 13, R427). -/
inductive TestKind where
  | tile | sparse | stream | hbmPc | channel | coreMargin
  deriving DecidableEq, Repr

/-- A target by kind and address: unit word, core, pseudo-channel or channel (spec 13, R427). -/
structure TestTarget where
  kind : TestKind
  address : Nat
  deriving DecidableEq, Repr

/-- The outcome of one test as the unit gives it: passed, or failed with a failing column (0xFF for none). -/
structure TestOut where
  target : TestTarget
  pass : Bool
  column : Nat
  deriving DecidableEq, Repr

/-- Outcome of a unit in a margin test: at margin, then at the core's own point (spec 13, R424); `aborted` when
another core was withdrawn meanwhile. -/
structure MarginOut where
  target : TestTarget
  marginPass : Bool
  ownPass : Bool
  column : Nat
  aborted : Bool
  deriving DecidableEq, Repr

/-- Outcome of a unit under DIAG_RUN (spec 16, R502): its column, its result region's CRC. -/
structure DiagOut where
  unit : Half
  pass : Bool
  column : Nat
  crc : Dword
  deriving DecidableEq, Repr

/-- The protective trips of spec 18, R535. -/
inductive Trip where
  | current | overvolt | undervolt | thermal | sensor | flow | leak | precharge | switch
  deriving DecidableEq, Repr

/-- Outcome of the guard self-test (spec 18, R537). -/
inductive SelfTest where
  | pass | switchFail | sensorFail
  deriving DecidableEq, Repr

/-- Stages of the cold start (spec 16, R497): rails, kindling, built-in test with its failing units and sequencers,
spare map, HBM training and zeroing, channel training begun. -/
inductive ColdStage where
  | rails
  | kindling
  | builtInTest (failed : List TestOut) (sequencers : List Nat)
  | spareMap
  | hbmTrained (retries : Nat)
  | channels
  deriving DecidableEq, Repr

/-- PLL domains (spec 01, R46). -/
inductive Pll where
  | core (n : Nat)
  | channel (n : Nat)
  | port (n : Nat)
  | noc (die : Nat)
  | hbmPhy (stack : Nat)
  deriving DecidableEq, Repr

/-- The place of a dense comparison (spec 07, R233): row check or column check, k-block, row group, n-block, the row or
column within the item, the pass of a three-pass product (0 for P1, 1 for P2, 2 for P3; 0 otherwise). -/
structure CheckPlace where
  row : Bool
  kBlock : Nat
  rowGroup : Nat
  nBlock : Nat
  pos : Nat
  pass : Nat
  deriving DecidableEq, Repr

/-- What a check saw (spec 02, R83 to R86): nothing amiss in any comparison, both sides of an exact comparison, both
sides of a bounded one, or the two copies of a two-copy check. -/
inductive Seen where
  | pass
  | exact (drain check : Int)
  | bounded (drain check : F32)
  | copies (first second : Dword)
  deriving DecidableEq, Repr

/-- Causes of a fence (spec 13, R410, class FENCE). -/
inductive FenceCause where
  | watchdog | sram | parity | pll | heartbeat | disable | poison
  deriving DecidableEq, Repr

/-- Who reads a poisoned codeword (spec 05, R154; spec 06, R203; spec 14, R449, R452). -/
inductive PoisonReader where
  | item (n : Nat)
  | combine (group : Nat)
  | planStream (stream : Nat)
  | context (handle position : Nat)
  | bankUpdate
  | bankServe
  deriving DecidableEq, Repr

/-- Causes of a hold (spec 06, R197). -/
inductive HoldCause where
  | revoked | outOfRegion | hostError | poison
  deriving DecidableEq, Repr

/-- Settle and douse message (spec 04, R127); cause as a number (R133). -/
structure EmberMsg where
  attempt : Nat
  sender : Nat
  serial : Word
  planIdLo : Word
  setId : Nat
  cause : Nat
  deriving DecidableEq, Repr

/-- Count or grant frame (spec 09, R290): entries are (request, 0) or (grant, base). -/
structure Frame where
  sender : Nat
  route : Nat
  serial : Word
  entries : List (Nat × Nat)
  deriving DecidableEq, Repr

/-- Targets of a data packet (spec 10, R323). -/
inductive PktTarget where
  | memory | routing | reduction | bank | illegal
  deriving DecidableEq, Repr

/-- A whole data packet as received (spec 10, R323), with the flit's ember bit, attempt and serial_lo (R319);
`lenOk` and `whole` say whether pkt_len agrees with its flits and whether its eop came (R325). -/
structure Packet where
  channel : Nat
  dst : Nat
  src : Nat
  target : PktTarget
  ember : Bool
  attempt : Nat
  serialLo : Nat
  addr : Nat
  data : Bytes
  lenOk : Bool
  whole : Bool
  deriving DecidableEq, Repr

/-- FLAG_INC (spec 10, R336). -/
structure FlagMsg where
  sender : Nat
  flag : Nat
  inc : Nat
  serial : Word
  attempt : Nat
  fence : Nat
  deriving DecidableEq, Repr

/-- BARRIER_ARRIVE and BARRIER_RELEASE (spec 10, R336). -/
structure BarrierMsg where
  sender : Nat
  barrier : Nat
  count : Nat
  serial : Word
  planIdLo : Word
  deriving DecidableEq, Repr

/-- Classes of a suspect record (spec 10, R343). -/
inductive SuspectClass where
  | linkDown | noToken | noBarrier | noFrame | badPacket | timeFault | storm
  deriving DecidableEq, Repr

/-- Suspect record (spec 10, R345). -/
structure Suspect where
  suspect : Nat
  cls : SuspectClass
  serial : Word
  firstTime : Nat
  firstReporter : Nat
  count : Nat
  detail : Nat
  deriving DecidableEq, Repr

/-- Status of a bank ACK (spec 14, R445). -/
inductive AckStatus where
  | ok | busy | notHeld | notGranted | poison | noSpace
  deriving DecidableEq, Repr

/-- The parts whose fault is a die fault (spec 13, R434). -/
inductive DiePart where
  | arbiter
  | routing (die : Nat)
  | scatter (die : Nat)
  | collective (die : Nat)
  | reduction (avo : Nat)
  | die (n : Nat)
  deriving DecidableEq, Repr

/-- The commands and events of the block. -/
inductive Instr where
  /-- NOP (R468). Command that does nothing and receives an immediate reply within 10 µs. -/
  | nop (h : Cmd)
  /-- IDENTIFY (R486). Command that returns the population word, position, firmware version and usable clusters per core. -/
  | identify (h : Cmd)
  /-- STATUS_READ (R487). Command that returns module state, plan state, owner, port flags, current round and last fault serial. -/
  | statusRead (h : Cmd)
  /-- ATTN_ACK (R479). Command that clears the masked attention bits in the issuing port's copy. -/
  | attnAck (h : Cmd) (mask : Byte)
  /-- OWNER_CLAIM (R482). Command that makes the issuing port owner when no port owns the module or the owner has lapsed. -/
  | ownerClaim (h : Cmd)
  /-- OWNER_YIELD (R482). Owner-only command that leaves the module with no owner. -/
  | ownerYield (h : Cmd)
  /-- COUNTER_READ (R492). Command that writes a consistent snapshot of counter entries and, for the owner, can clear the counters read. -/
  | counterRead (h : Cmd) (firstId count : Half) (flags : Byte)
  /-- MODULE_RESET (R496). Owner command that replies, then removes power from all domains except the standby supply and restarts the hearth controller. -/
  | moduleReset (h : Cmd)
  /-- MODULE_RESET_COMPLETE (R496). The reset finishes with the module in STANDBY within 3 s. -/
  | moduleResetComplete
  /-- DISTANCE_READ (R50). Command that writes the distance table as of the last application of replacements. -/
  | distanceRead (h : Cmd)
  /-- PSTATE_SET (R503). Owner command that requests a power state for a core, stack, channel, port or the whole module. -/
  | pstateSet (h : Cmd) (kind index state opPoint : Byte)
  /-- PSTATE_CHANGE_COMPLETE (R506). A power-state change takes full effect, for example when the voltage settles, and its completion is written. -/
  | pstateChangeComplete (kind index : Nat)
  /-- PSTATE_QUERY (R508). Command that writes the power state of every target. -/
  | pstateQuery (h : Cmd)
  /-- OPPOINT_READ (R510). Command that writes a core's operating-point table and its calibrated voltages. -/
  | oppointRead (h : Cmd) (core : Byte)
  /-- RAIL_STATUS (R543). Command that writes input, temperature, rail and regulator-group status taken at one instant. -/
  | railStatus (h : Cmd)
  /-- REGION_REGISTER (R195). Command that registers a host region on the issuing port and sets it ACTIVE. -/
  | regionRegister (h : Cmd) (id : Half) (access : Byte) (base size : Dword)
  /-- REGION_REVOKE (R196). Command from the holding port that moves a region to REVOKING and stops new accesses to it. -/
  | regionRevoke (h : Cmd) (id : Half)
  /-- REGION_REVOKE_COMPLETE (R196). Once every issued access has completed or timed out, the region becomes FREE and the completion is written. -/
  | regionRevokeComplete (id : Nat)
  /-- REGION_QUERY (R194). Command that returns a region table entry. -/
  | regionQuery (h : Cmd) (id : Half)
  /-- HBM_PARTITION (R150). Owner command that sets the wide segments and reserved region sizes and starts zeroing HBM. -/
  | hbmPartition (h : Cmd) (wide : Half) (planGib settleGib : Byte) (bankGib : Half)
  /-- HBM_PARTITION_COMPLETE (R150). The repartition and zeroing finish within 50 ms and the completion is written. -/
  | hbmPartitionComplete
  /-- PLAN_LOAD (R93). Owner command that reads the image header and starts copying and validating a plan image. -/
  | planLoad (h : Cmd) (header : HostRead)
  /-- PLAN_LOAD_COMPLETE (R93). Copying and validation end; the plan becomes LOADED or FAILED and the completion is written. -/
  | planLoadComplete (image : Bytes)
  /-- PLAN_REPORT (R113). Command that writes the 256-byte plan report. -/
  | planReport (h : Cmd)
  /-- PLAN_START (R91). Owner command that applies pending replacements, moves the module to RUNNING and opens round 0. -/
  | planStart (h : Cmd)
  /-- PLAN_HALT (R92). Owner command that asks the module to halt at the next round boundary or ends a wait at once. -/
  | planHalt (h : Cmd)
  /-- PLAN_RESUME (R91). Owner command that returns a HALTED plan to RUNNING at its resume round or its unresolved settle wait. -/
  | planResume (h : Cmd)
  /-- PLAN_UNLOAD (R91). Owner command that discards the plan, staged writes, admissions and group values and returns the module to READY. -/
  | planUnload (h : Cmd)
  /-- PLAN_UNLOAD_COMPLETE (R91). The unload finishes, after ending running exports and bank transfers, and its completion is written. -/
  | planUnloadComplete
  /-- STREAM_CREATE (R204). Command that reads and validates a descriptor and binds a command stream to a command context. -/
  | streamCreate (h : Cmd) (desc : HostRead)
  /-- STREAM_ARM (R206). Command that starts an IDLE command stream or stores a pending generation. -/
  | streamArm (h : Cmd) (handle : Word) (src dst : Dword)
  /-- COMMAND_STREAM_COMPLETE (R206). A command stream generation finishes; its completion is written and a pending generation starts. -/
  | commandStreamComplete (handle : Nat) (data : Bytes)
  /-- STREAM_RESUME (R199). Command that continues a HELD stream or drain from its resume index. -/
  | streamResume (h : Cmd) (handle : Word)
  /-- STREAM_RETIRE (R200). Command that ends a HELD stream or drain at its resume index, or releases an IDLE command stream. -/
  | streamRetire (h : Cmd) (handle : Word)
  /-- STEP_BEGIN (R376). Owner command that adds a step admission carrying step, base_lr and clip_norm. -/
  | stepBegin (h : Cmd) (step : Word) (baseLr clipNorm : F32) (stepFlags : Word)
  /-- GROUP_SET (R378). Owner command that stages lr_mult and weight_decay for a group until the next gated open. -/
  | groupSet (h : Cmd) (id : Half) (lrMult weightDecay : F32)
  /-- STEP_STATUS (R398). Command that writes the 64-byte step status block. -/
  | stepStatus (h : Cmd)
  /-- SNAPSHOT_EXPORT (R405). Command that pins the current version of a set and starts copying it to the host or to the partner. -/
  | snapshotExport (h : Cmd) (set : Half) (mode : Byte)
  /-- SNAPSHOT_EXPORT_COMPLETE (R406). An export finishes or is truncated, releases its export pin and writes its completion. -/
  | snapshotExportComplete (handle : Nat)
  /-- BANK_CONFIGURE (R442). Owner command that sets the bank interval, image slots, snapshot size and host pairs. -/
  | bankConfigure (h : Cmd) (interval : Half) (slots snapGib pairs : Byte) (p0a p0b p1a p1b : Half)
  /-- BANK_NOW (R443). Owner command that stages an image update, or starts one at once while HALTED at a step boundary. -/
  | bankNow (h : Cmd) (mask : Byte)
  /-- BANK_STATUS (R458). Command that writes the 160-byte bank status block. -/
  | bankStatus (h : Cmd)
  /-- RELIGHT (R450). Owner command that starts restoring state from a peer's bank or a host copy. -/
  | relight (h : Cmd) (source : Byte) (step : Word) (owner holder r0 r1 : Half)
  /-- RELIGHT_COMPLETE (R452). The relight ends after its checks and record writes, and its completion is written. -/
  | relightComplete (data : Bytes)
  /-- RELIGHT_STALL_TIMEOUT (R452). A relight or bank transfer that makes no progress for 100 ms ends with BANK_LOST. -/
  | relightStallTimeout
  /-- BANK_SERVE (R455). Owner command to a holder that grants one PULL or writes a held image to a host region. -/
  | bankServe (h : Cmd) (owner : Half) (step : Word) (target : Half)
  /-- BANK_SERVE_COMPLETE (R455). The served transfer ends and the completion is written. -/
  | bankServeComplete
  /-- BANK_GRANT_EXPIRY (R455). A PULL grant lapses after 10 s without a completed transfer. -/
  | bankGrantExpiry
  /-- TEST_WINDOW_FORCE (R423). Owner command that withdraws a core for the next round to run all of its due tests. -/
  | testWindowForce (h : Cmd) (core : Byte)
  /-- FORCED_TEST_COMPLETE (R423). The forced tests end and the completion carries OK or FAULTED. -/
  | forcedTestComplete (core : Nat) (results : List TestOut)
  /-- PATTERN_INSTALL (R426). Owner command that reads a pattern package and starts verifying it. -/
  | patternInstall (h : Cmd) (package : HostRead)
  /-- PATTERN_INSTALL_COMPLETE (R426). The package checks end and the package is installed or rejected. -/
  | patternInstallComplete
  /-- TEST_RESULT_READ (R427). Command that writes the test result table for every target. -/
  | testResultRead (h : Cmd)
  /-- MARGIN_TEST_RUN (R424). Owner command that schedules a core margin test from the next round open. -/
  | marginTestRun (h : Cmd) (core : Byte)
  /-- MARGIN_TEST_COMPLETE (R424). Heater and margin phases end, clock, voltage and service mode are restored, and results are recorded. -/
  | marginTestComplete (core : Nat) (results : List MarginOut)
  /-- DIGEST_POLICY_SET (R432). Owner command that sets the digest comparison interval from the next gated open. -/
  | digestPolicySet (h : Cmd) (interval : Half)
  /-- UNIT_DISABLE (R416). Owner command that fences a unit, cluster or core in DRAIN or ABANDON mode. -/
  | unitDisable (h : Cmd) (unit : Half) (mode : Byte)
  /-- UNIT_DRAIN_COMPLETE (R416). A draining unit holds no more work and its completion is written. -/
  | unitDrainComplete (unit : Half)
  /-- UNIT_ENABLE (R415). Owner command that returns a disabled unit, or clears strikes and tests a clinker. -/
  | unitEnable (h : Cmd) (unit : Half)
  /-- UNIT_ENABLE_TEST_COMPLETE (R415). The pattern run of an enabled clinker ends and the completion carries OK or FAULTED. -/
  | unitEnableTestComplete (unit : Half) (pass : Bool)
  /-- FAULT_LOG_READ (R412). Command that writes fault records from a serial onward. -/
  | faultLogRead (h : Cmd) (first : Word) (maxCount : Half)
  /-- FABRIC_CONFIGURE (R348). Owner command that sets position, time parents and report parents. -/
  | fabricConfigure (h : Cmd) (position : Half) (timeParent timeAlt : Byte) (reportParent reportAlt : Half) (epoch : Dword) (hold : Half)
  /-- CHANNEL_STATUS (R349). Command that writes the status of all 28 channels. -/
  | channelStatus (h : Cmd)
  /-- CHANNEL_DISABLE (R341). Owner command that takes a channel down, or restores a disabled channel at the next PLAN_START. -/
  | channelDisable (h : Cmd) (channel mode : Byte)
  /-- TIMEBASE_STATUS (R328). Command that returns the time base state, θ, parent role and fabric time. -/
  | timebaseStatus (h : Cmd)
  /-- FW_STAGE (R517). Owner command that writes a firmware image into the inactive slot and starts checking it. -/
  | fwStage (h : Cmd) (header : HostRead)
  /-- FW_STAGE_COMPLETE (R517). The staged image's checks end and the staged flag is set or cleared. -/
  | fwStageComplete (image : Bytes)
  /-- FW_ACTIVATE (R518). Owner command that rechecks the staged image, advances rollback fuses, swaps slots and restarts the hearth controller. -/
  | fwActivate (h : Cmd) (fuses : Nat)
  /-- ATTEST_QUOTE (R524). Command that takes measurements and starts signing a quote over the host nonce. -/
  | attestQuote (h : Cmd) (nonce : BitVec 256)
  /-- ATTEST_QUOTE_SIGNED (R524). The quote signature is complete and the completion is written. -/
  | attestQuoteSigned
  /-- IDENTITY_READ (R521). Command that writes the identity block and certificate chain. -/
  | identityRead (h : Cmd)
  /-- ASH_READ (R548). Command that writes ash record entries in ash_seq order. -/
  | ashRead (h : Cmd) (first maxCount : Word)
  /-- ASH_NOTE (R549). Owner command that appends 40 host bytes as a NOTE entry. -/
  | ashNote (h : Cmd) (note : BitVec 320)
  /-- ASH_STATUS (R550). Command that returns the newest and oldest ash serials, the count and the flags. -/
  | ashStatus (h : Cmd)
  /-- KINDLING_ENTER (R500). Owner command that moves a core into kindling mode, at once or at the next round open. -/
  | kindlingEnter (h : Cmd) (core : Byte)
  /-- KINDLING_ENTER_COMPLETE (R500). The core is in kindling mode and the completion is written. -/
  | kindlingEnterComplete (core : Nat)
  /-- KINDLING_EXIT (R500). Owner command that returns a core to service mode, forming clusters and gangs from the spare map. -/
  | kindlingExit (h : Cmd) (core : Byte)
  /-- DIAG_RUN (R501). Owner command that runs a Velkuile diagnostic on units of a core in kindling mode. -/
  | diagRun (h : Cmd) (core diag : Byte) (unit : Half)
  /-- DIAG_RUN_COMPLETE (R501). The diagnostic ends, failing units are fenced and the result buffer and completion are written. -/
  | diagRunComplete (core : Nat) (results : List DiagOut)
  /-- CMD_DOORBELL (R467). Host write of the producer serial; a valid value lets the module fetch packets up to it. -/
  | cmdDoorbell (port : Nat) (value : Word)
  /-- RING_ENABLE (R465). Writing enable 1 to RING_CTRL checks the ring bases and starts the rings or sets error. -/
  | ringEnable (port : Nat)
  /-- RING_DISABLE (R465). Writing enable 0 to RING_CTRL stops fetching, clears running and drops owed completions. -/
  | ringDisable (port : Nat)
  /-- REPLY_CONSUMED (R469). Host write of the reply ring consumer serial, which frees reply space or counts as a bad value. -/
  | replyConsumed (port : Nat) (value : Word)
  /-- REGISTER_WRITE (R464). Write to a port register with no behaviour of its own, such as the ring base registers. -/
  | registerWrite (port offset : Nat) (value : Dword)
  /-- HEARTH_BEAT (R464). Each millisecond the HEARTH_BEAT register advances while the hearth controller runs. -/
  | hearthBeat
  /-- HEARTH_LOCKSTEP_MISMATCH (R471). The hearth cores disagree; the pair stops, the rings are disabled and a restart begins. -/
  | hearthLockstepMismatch
  /-- HEARTH_RESTART_COMPLETE (R471). The hearth controller runs again from its verified image and HEARTH_BEAT resumes. -/
  | hearthRestartComplete
  /-- OWNER_LAPSE (R482). The owner lapses after 2,000 ms with no started command. -/
  | ownerLapse
  /-- LINK_DOWN (R463). PCIe link down on a port disables its rings, revokes its regions and ends its ownership. -/
  | linkDown (port : Nat)
  /-- HOT_RESET (R463). PCIe hot reset on a port, acting as a link down of that port. -/
  | hotReset (port : Nat)
  /-- FUNCTION_LEVEL_RESET (R463). PCIe function-level reset on a port, acting as a link down of that port. -/
  | functionLevelReset (port : Nat)
  /-- CONVENTIONAL_RESET (R463). PERST conventional reset of a port, acting as a link down without resetting the module. -/
  | conventionalReset (port : Nat)
  /-- HOST_ERROR (R462). A host read gets an error completion or times out after 50 ms. -/
  | hostError (reader : HostReader)
  /-- IDE_FAIL (R527). An IDE integrity failure on a port acts as a link down and writes an ash entry. -/
  | ideFail (port : Nat)
  /-- GET_MEASUREMENTS (R526). SPDM request answered with the measurement fields of the quote. -/
  | getMeasurements (port : Nat)
  /-- KEY_EXCHANGE (R526). SPDM request that establishes a session signed with the identity key. -/
  | keyExchange (port key : Nat)
  /-- IDE_KM_KEY_PROG (R526). IDE_KM request that programs a link IDE key through the DOE mailbox. -/
  | ideKmKeyProg (port key : Nat)
  /-- K_SET_GO (R527). IDE_KM request that switches to the new key at the next flit boundary. -/
  | kSetGo (port : Nat)
  /-- SIDEBAND_COMMAND (R553). I3C private write of selector 0x00 with a command packet, which the hearth controller runs in turn. -/
  | sidebandCommand (packet : Bytes)
  /-- SIDEBAND_BUFFER_READ (R553). I3C selector 0x02 access that sets an offset and reads the sideband buffer. -/
  | sidebandBufferRead (offset : Half) (length : Nat)
  /-- ENTDAA (R552). I3C common command that assigns dynamic addresses. -/
  | entdaa (address : Nat)
  /-- SETDASA (R552). I3C common command that sets a dynamic address from the static address. -/
  | setdasa (address : Nat)
  /-- SETAASA (R552). I3C common command that makes static addresses the dynamic addresses. -/
  | setaasa
  /-- RSTDAA (R552). I3C common command that resets dynamic addresses. -/
  | rstdaa
  /-- GETPID (R552). I3C common command that returns the provisional ID. -/
  | getpid
  /-- GETBCR (R552). I3C common command that returns the bus characteristics register. -/
  | getbcr
  /-- GETDCR (R552). I3C common command that returns the device characteristics register. -/
  | getdcr
  /-- GETSTATUS (R552). I3C common command that returns the target status. -/
  | getstatus
  /-- GETMWL (R552). I3C common command that returns the maximum write length. -/
  | getmwl
  /-- GETMRL (R552). I3C common command that returns the maximum read length. -/
  | getmrl
  /-- BENCH_READ (R551). Bench SPI command 0x13 that reads the ash MRAM from an address. -/
  | benchRead (address : Word) (length : Nat)
  /-- BENCH_STATUS_READ (R551). Bench SPI command 0x05 that returns the readable status byte. -/
  | benchStatusRead
  /-- DEBUG_TOKEN (R523). A debug token presented on the test port is checked, may unlock scopes, and a new challenge is drawn. -/
  | debugToken (token : Bytes)
  /-- INPUT_POWER_UP (R516). Input reaches 52 V; the boot ROM verifies a firmware slot, scans the ash record and the module enters STANDBY. -/
  | inputPowerUp (vin : Nat)
  /-- INPUT_LOST (R494). Input falls below 44 V or exceeds 66 V and the module goes OFF. -/
  | inputLost (vin : Nat)
  /-- TRIP_UNDERVOLT (R535). Input below 50 V for 50 µs with rails on trips both switches. -/
  | tripUndervolt (vin : Nat)
  /-- TRIP_OVERVOLT (R535). Input above 64.5 V for 10 µs trips both switches. -/
  | tripOvervolt (vin : Nat)
  /-- WARN_INPUT (R530). Input outside 52 to 63 V for 1 s writes a WARN entry and sets ATTN_SAFETY. -/
  | warnInput (vin : Nat)
  /-- TRIP_CURRENT (R535). Input current reaches 90 A, or averages above 72 A over 10 ms, and both switches open. -/
  | tripCurrent (fast : Bool) (iin : Nat)
  /-- TRIP_THERMAL (R535). A die chain at 115 °C or a stack at 105 °C for 10 µs opens the regulator groups and switches. -/
  | tripThermal (sensor : Nat) (temp : Int)
  /-- TRIP_SENSOR (R535). A temperature chain reading goes out of range, or the two chains of a die disagree, and the module trips. -/
  | tripSensor (sensor : Nat) (temp : Int)
  /-- COOL_OK_DEASSERT (R535). COOL_OK falls and the guard logic starts its 100 ms count. -/
  | coolOkDeassert
  /-- COOL_OK_ASSERT (R535). COOL_OK returns; a drop shorter than 100 ms writes a WARN_FLOW entry. -/
  | coolOkAssert (lowMs : Nat)
  /-- TRIP_FLOW (R535). COOL_OK stays deasserted for 100 ms with a rail on and the module trips. -/
  | tripFlow
  /-- TRIP_LEAK (R535). The leak trace is wet for 10 ms and the module trips. -/
  | tripLeak
  /-- TRIP_PRECHARGE (R532). The bus is not within 2 V of the input 30 ms after soft start and the switches open. -/
  | tripPrecharge
  /-- TRIP_SWITCH (R536). A main switch conducts while commanded off; the other switch stays off and lockout is set. -/
  | tripSwitch (switchB : Bool)
  /-- TRIP_CAUSE_CLEARED (R535). A trip's clear condition holds for its stated time, permitting the return to STANDBY. -/
  | tripCauseCleared (cause : Trip)
  /-- TRAY_PRESENT_BREAK (R534). Tray-present breaks for 20 µs; all groups and switches open, a REMOVAL entry is written, and the module goes OFF. -/
  | trayPresentBreak
  /-- TRAY_PRESENT_MAKE (R536). Tray-present is made again, clearing lockout. -/
  | trayPresentMake
  /-- WARN_THERMAL (R539). A die, stack or coolant sensor crosses its warning threshold. -/
  | warnThermal (sensor : Nat) (temp : Int)
  /-- WARN_OVERLOAD (R539). Input power above 3,300 W, or current above 64 A, averaged over 1 s writes a WARN entry. -/
  | warnOverload (iin pin : Nat)
  /-- GUARD_SELF_TEST_DONE (R537). The guard self-test at MODULE ON ends; a failure ends the cold start. -/
  | guardSelfTestDone (outcome : SelfTest)
  /-- PHASE_LOST (R41). A regulator phase fails and its group continues on the remaining phases. -/
  | phaseLost (group phase : Nat)
  /-- RAIL_TRIP (R41). A regulator group falls to four healthy phases and its rail trips, withdrawing a core or moving the module to TRIPPED. -/
  | railTrip (group : Nat)
  /-- COLD_START_STAGE (R497). A cold-start phase completes: rails, kindling, built-in test, spare map, HBM training and channel training. -/
  | coldStartStage (stage : ColdStage)
  /-- COLD_START_COMPLETE (R497). Cores are IDLE, stacks and ports are ON, and the module becomes READY. -/
  | coldStartComplete
  /-- STACK_TRAINING_FAIL (R498). A stack fails training four times; every rail opens and the module returns to STANDBY. -/
  | stackTrainingFail (stack : Nat)
  /-- CHANNEL_TRAIN_DONE (R497). A channel training attempt ends; the channel reaches UP or SHADOW, or retries. -/
  | channelTrainDone (channel : Nat) (up : Bool)
  /-- PLL_LOCK_LOSS (R46). A PLL loses lock; its domain stops and the module acts according to the domain. -/
  | pllLockLoss (pll : Pll)
  /-- REFERENCE_LOSS (R47). The 100 MHz reference fails; the data plane stops, HBM self-refreshes and the module acts according to its state. -/
  | referenceLoss
  /-- REFERENCE_RESTORED (R47). The reference holds tolerance for 10 ms; PLLs relock and HBM and channels retrain. -/
  | referenceRestored
  /-- ROUND_OPEN (R98). After its gate and waits, the next round reads its header, resets round-local state and arms streams. -/
  | roundOpen
  /-- BARRIER_TIMEOUT (R110). A barrier unreleased after timeout_us writes a fault record and keeps waiting. -/
  | barrierTimeout
  /-- WOODPILE_CLAIM (R103). A sequencer with a free resource claims the lowest eligible entry, preferring affinity. -/
  | woodpileClaim (core : Nat)
  /-- DENSE_ITEM_COMPLETE (R219). A dense item's last drain write becomes visible and its done_flag increments. -/
  | denseItemComplete (item : Nat) (damage : List (Nat × Byte))
  /-- CHECKSUM_VERDICT (R235). A dense comparison gives its verdict; a mismatch stops the item and schedules a re-execution, or decides the outcome. -/
  | checksumVerdict (item : Nat) (place : CheckPlace) (seen : Seen)
  /-- SPARSE_VERDICT (R271). A sparse engine's two-copy or residue check gives its verdict, handled as for dense items. -/
  | sparseVerdict (item : Nat) (seen : Seen)
  /-- STRIKE_EXPIRY (R413). A strike expires 720 power-on hours after it was taken. -/
  | strikeExpiry (unit : Half)
  /-- SPARSE_ITEM_COMPLETE (R264). A sparse item finishes its run rows and postings and increments its done_flag. -/
  | sparseItemComplete (item : Nat) (damage : List (Nat × Byte))
  /-- SEGMENT_ITEM_COMPLETE (R267). A SEGMENT item passes its checks, increments done_count and may run the row combine. -/
  | segmentItemComplete (item : Nat) (damage : List (Nat × Byte))
  /-- UPDATE_SHARD_COMPLETE (R395). An UPDATE entry finishes its rule or refresh shard and increments its done_flag. -/
  | updateShardComplete (item : Nat)
  /-- ITEM_WATCHDOG (R106). An item's busy time exceeds its watchdog bound and the unit is treated as faulty. -/
  | itemWatchdog (item busyNs : Nat)
  /-- UNIT_FAULT_DETECTED (R39). A unit, cluster or core fault closes its fence, returns items and may mark the round for douse. -/
  | unitFaultDetected (unit : Half) (cause : FenceCause)
  /-- SEQUENCER_HEARTBEAT_MISS (R433). Two missed sequencer heartbeats withdraw the core. -/
  | sequencerHeartbeatMiss (core : Nat)
  /-- HBM_POISON_READ (R154). A unit reads a poisoned codeword; the item returns and the round may be marked for douse. -/
  | hbmPoisonRead (address : Nat) (symbols : List Nat) (reader : PoisonReader)
  /-- HBM_PATROL (R153). Patrol reads a codeword, correcting it or leaving it poisoned. -/
  | hbmPatrol (address : Nat) (symbols : List Nat)
  /-- COMBINE_RUN (R109). After its members' verdicts, a combine group sums its part slots in tree order and writes the block. -/
  | combineRun (group : Nat) (seen : Seen)
  /-- STREAM_UNIT_START (R186). A stream begins a unit once its credit or start gate holds. -/
  | streamUnitStart (stream : Nat)
  /-- STREAM_UNIT_VISIBLE (R187). A stream unit's writes become visible and its done_flag increments. -/
  | streamUnitVisible (stream : Nat) (data : Bytes)
  /-- STREAM_HOLD (R198). After a failing host access, issued accesses complete, the resume index is fixed and the stream enters HELD. -/
  | streamHold (handle : Nat) (cause : HoldCause) (position : Nat) (data : Bytes)
  /-- FLUE_MESSAGE_COMPLETE (R210). A flue message's write becomes visible and its done_flag increments. -/
  | flueMessageComplete (stream : Nat)
  /-- DRAIN_COMPLETE (R191). A stream's deferred host writes finish draining; drained_serial advances and pending generations start. -/
  | drainComplete (handle : Nat)
  /-- RUN_PHASE_END (R100). All entries, groups, streams, routes, collectives and updates of the round are done and settle begins. -/
  | runPhaseEnd (runNs : Nat)
  /-- SETTLE_TOKEN_SEND (R129). With the run ended, checks passed and own flits acknowledged, the module sends its token. -/
  | settleTokenSend
  /-- SETTLE_TOKEN (R129). A settle token arrives; when all are held the gates resolve and the commit starts. -/
  | settleToken (msg : EmberMsg)
  /-- DIGEST_GATE (R430). Gathered digest blocks become visible and the verdict commits, expels or splits. -/
  | digestGate
  /-- ROUND_COMMIT_COMPLETE (R130). Deferred writes are committed, counts post, rounds_settled advances and the next open begins. -/
  | roundCommitComplete
  /-- SETTLE_TIMEOUT (R136). Tokens are still missing settle_timeout_us after sending; a fault record names the missing members. -/
  | settleTimeout
  /-- DOUSE_ORIGINATE (R134). The originator stops claims, discards the attempt and sends DOUSE. -/
  | douseOriginate
  /-- DOUSE (R134). A DOUSE message arrives; the member discards the attempt and sends DOUSE_READY, or halts. -/
  | douse (msg : EmberMsg)
  /-- DOUSE_READY (R134). A DOUSE_READY arrives; when all are held the attempt advances and the replay start is fixed. -/
  | douseReady (msg : EmberMsg)
  /-- REPLAY_ROUND_START (R134). At the common fabric time the replay reopens the round as attempt 1. -/
  | replayRoundStart
  /-- VERSION_WAIT_TIMEOUT (R403). An update open that waits version_wait_us for a slot truncates the oldest export on the set. -/
  | versionWaitTimeout
  /-- ROUTE_START (R280). A route's start gate passes and it chooses experts for its tokens. -/
  | routeStart (route : Nat)
  /-- COUNT_FRAME (R289). A count frame reaches the home; once all arrive it admits and sends grant frames. -/
  | countFrame (frame : Frame)
  /-- GRANT_FRAME (R291). A grant frame reaches the source; once all arrive it admits tokens and starts dispatch. -/
  | grantFrame (frame : Frame)
  /-- DISPATCH_VISIBLE (R295). A source's dispatch rows to a home are visible and it increments that home's dispatch_flag. -/
  | dispatchVisible (route home : Nat)
  /-- RETURN_START (R296). out_flag passes out_value and the home writes expert output rows back to sources. -/
  | returnStart (route : Nat)
  /-- RETURN_VISIBLE (R296). A home's returned rows are visible at a source and it increments return_flag. -/
  | returnVisible (route source : Nat)
  /-- COMBINE_START (R297). return_flag reaches the member count and the source combines returned rows. -/
  | combineStart (route : Nat)
  /-- ROUTE_COMBINE_COMPLETE (R297). The route output is visible and combine_flag increments. -/
  | routeCombineComplete (route : Nat)
  /-- ROUTE_TIMEOUT (R306). An expected frame or increment is missing after route_timeout_us and a fault record is written. -/
  | routeTimeout (route : Nat)
  /-- MASK_GENERATE_COMPLETE (R305). A mask generator's output is visible and its done_flag increments. -/
  | maskGenerateComplete (mask : Nat)
  /-- COLLECTIVE_START (R351). A collective's start flag passes and it begins reading sources and sending contributions. -/
  | collectiveStart (coll : Nat)
  /-- COLLECTIVE_COMPLETE (R370). A collective's destination is visible and its done_flag increments. -/
  | collectiveComplete (coll : Nat)
  /-- COLL_TIMEOUT (R363). A chunk still lacks a slot after coll_timeout_us and a fault record is written. -/
  | collTimeout (coll stage chunk : Nat)
  /-- TEST_START (R419). In a test window the module starts the most overdue test that fits. -/
  | testStart (window core remainNs : Nat)
  /-- TEST_COMPLETE (R421). An idle-slot test ends; its result is recorded and failures are acted on. -/
  | testComplete (core : Nat) (result : TestOut)
  /-- TEST_DUE (R422). A unit or core margin test passes its due time and ATTN_TEST is set. -/
  | testDue (target : TestTarget)
  /-- TEST_OVERDUE (R422). A test passes its overdue limit and a TEST record is written. -/
  | testOverdue (target : TestTarget)
  /-- LANE_FAIL (R317). A lane fails and the channel steers its stripe to the spare lane, or goes down on a second failure. -/
  | laneFail (channel lane : Nat) (loose : Bool)
  /-- SPARE_LANE_ROTATE (R317). Every 1 ms the spare lane takes a copy of the next in-service lane. -/
  | spareLaneRotate (channel : Nat)
  /-- FLIT_ERROR (R320). A receiver finds a CRC failure, sequence gap or illegal ftype, discards flits and sends NAK. -/
  | flitError (channel lastGood : Nat)
  /-- NAK (R320). A NAK arrives and the sender replays from the first unacknowledged flit. -/
  | nak (channel ackSeq : Nat) (loose : Bool)
  /-- CHANNEL_DOWN (R341). A channel is declared down; its traffic moves to detours and unacknowledged ember data marks a douse. -/
  | channelDown (channel : Nat) (loose : Bool)
  /-- PEER_SILENCE_TIMEOUT (R341). The peer stops answering for 2 µs, causing the channel to go down. -/
  | peerSilenceTimeout (channel : Nat) (loose : Bool)
  /-- DATA_PACKET (R325). A whole MEMORY packet addressed to this module is written, or dropped when malformed. -/
  | dataPacket (packet : Packet)
  /-- PACKET_FORWARD (R326). A packet for another module is forwarded along the fixed Y, X, tray order. -/
  | packetForward (packet : Packet)
  /-- SUM_PACKET (R340). A SUM contribution is stored by its key; a full chunk is summed in tree order. -/
  | sumPacket (packet : Packet)
  /-- TIME_EXCHANGE (R327). Every 10 µs each channel sends a TIME flit. -/
  | timeExchange
  /-- TIME_FLIT (R327). A TIME flit arrives and the module updates θ, slews and changes time base state. -/
  | timeFlit (channel : Nat) (s1 r1 s2 r2 : Int)
  /-- TIME_UNLOCKED (R328). With no parent for 4 ms the time base becomes UNLOCKED and a FABRIC record is written. -/
  | timeUnlocked
  /-- TIMEBASE_STEP (R329). An ACQUIRING module makes its single step once no fabric round is open. -/
  | timebaseStep
  /-- FLAG_INC (R337). A remote flag increment is applied once the sender's fenced packet count is visible. -/
  | flagInc (msg : FlagMsg)
  /-- BARRIER_ARRIVE (R338). An arrival reaches a head, which sends its own arrival upward or the root sets the release time. -/
  | barrierArrive (msg : BarrierMsg)
  /-- BARRIER_RELEASE (R338). A release message arrives and is passed down the tree. -/
  | barrierRelease (msg : BarrierMsg) (releaseTime : Nat)
  /-- BARRIER_RELEASE_TIME (R338). Fabric time reaches release_time and the member starts the gated round. -/
  | barrierReleaseTime
  /-- REPORT (R346). A suspect record arrives and merges into a held record. -/
  | report (suspect : Suspect)
  /-- STORM (R347). A STORM record arrives and merges by round serial. -/
  | storm (suspect : Suspect)
  /-- REPORT_HOLD_EXPIRY (R346). After report_hold_us a merged record goes to the parent or, at the root, to the host. -/
  | reportHoldExpiry (index : Nat)
  /-- HELLO (R445). A partner HELLO arrives and the partner state becomes PRESENT. -/
  | hello (q x : Nat)
  /-- HELLO_TICK (R445). Every 10 ms the module sends HELLO on each live bank role. -/
  | helloTick
  /-- PARTNER_LOST (R449). Both bank roles are down, or no HELLO arrives, for 100 ms; the partner is LOST and its send ends. -/
  | partnerLost
  /-- OPEN (R446). A bank OPEN arrives; the holder chooses a slot and sets it FILLING, or answers NO_SPACE. -/
  | bankOpen (header : Bytes)
  /-- BANK_DATA (R446). A bank DATA packet writes image bytes into a held slot or a relighting module. -/
  | bankData (area offset : Nat) (data : Bytes)
  /-- SEAL (R446). A SEAL arrives; the holder checks CRCs and seals the slot or marks it ABORTED. -/
  | seal (area : Nat) (header : Bytes)
  /-- ABORT (R446). A bank ABORT arrives and the holder marks the slot ABORTED. -/
  | bankAbort (area serial : Nat)
  /-- ACK (R446). A bank ACK arrives; the sender's update step advances or ends. -/
  | ack (status : AckStatus) (area step imageBytes : Nat)
  /-- PULL (R451). A PULL arrives; the holder streams a sealed image or answers with a refusal. -/
  | pull (source owner step : Nat)
  /-- HOST_COPY_COMPLETE (R448). The host copy's bytes are written, then its header, sealing the pair. -/
  | hostCopyComplete
  /-- STANDBY_SUPPLY_LOST (R541). A short on the standby path blows its 1 A limit and fuse, the standby supply is lost and the module goes OFF. -/
  | standbySupplyLost
  /-- STREAM_CONTEXT_FAULT (R433). Context parity flags a faulty stream context, which is fenced until the next PLAN_START, douses the round and shrinks the core's command pool. -/
  | streamContextFault (handle : Nat)
  /-- NOC_LINK_FAULT (R35). A link of a Lordo mesh or bridge bundle fails; it is fenced and the bundle's seventh link replaces it at the next PLAN_START, or relight is reported when the reserve is spent. -/
  | nocLinkFault (bundle : Nat)
  /-- DIE_FAULT (R434). A fault in the woodpile arbiter, a routing or scatter engine, a collective engine, a reduction node or a whole die is detected and reported with scope RELIGHT. -/
  | dieFault (place : DiePart)
  /-- BANK_EXTENT_READ (R444). A running image update or host copy has read an image extent, which releases a commit held on it and the bank pin on a version slot. -/
  | bankExtentRead (entry : Nat)
  deriving DecidableEq, Repr

end Sys2Proof
end

