-- ==== Sys2Proof/Decode.lean ====
section
/-! DEFINITION. The decoder of the opcode table's words. The table gives the rows of this block no bits (a command reaches
the module as a ring packet, a register write, a message or a pin event, not as a word), so no word spells a
command. -/
namespace Sys2Proof

/-- The command that a word of the table spells: none of its rows has bits. -/
def decodeTableWord (_nbits _w : Nat) : Option Instr := none

end Sys2Proof
end

