-- ==== Sys2Proof/Config.lean ====
section
/-! DEFINITION. What one module fixes (fuses, straps, factory contents) and the free values: the values that the
spec leaves open. A free value is an opaque constant; nothing in Lean can evaluate it (assumption log 3, 4). -/
namespace Sys2Proof.Config

/-- The eleven position straps: rack, tray, slot (spec 18, R554). Fixed for a module. -/
opaque straps : BitVec 11

/-- The straps as a member word (spec 04, R125). -/
def position : Nat := straps.toNat

/-- Module serial number (spec 17, R521). -/
opaque serialNumber : Nat

/-- The root_key_hash fuses, 64 bytes (spec 17, R512). -/
opaque rootKeyHash : Bytes

/-- Velkuile's Falcon-1024 root public key, as the factory image carries it (spec 17, R513). -/
opaque rootKey : Bytes

/-- The identity public key, 1,793 bytes (spec 17, R520). -/
opaque identityKey : Bytes

/-- The DER certificate chain of the identity key (spec 17, R520, R521). -/
opaque certChain : Bytes

/-- Security version and fw_version of the image that the factory wrote to slot A (spec 17, R514). -/
opaque factorySecurity : Nat
opaque factoryVersion : Nat
/-- Measurement of the factory image (spec 17, R514). -/
opaque factoryMeasurement : Bytes

/-- Value of the rollback counter c at the factory (spec 17, R512). -/
opaque factoryFuses : Nat

/-- Calibrated voltage in mV of a core at a point (spec 16, R509, R510): (core, point). -/
opaque calibratedMv : Nat → Nat → Nat

/-- Mesh hops from a core to a target of its distance block (spec 01, R49): (generation, core, entry). -/
opaque hops : Nat → Nat → Nat → Nat

/-- Whether the path from a core to a target of its distance block exists (spec 01, R50, valid). -/
opaque reachable : Nat → Nat → Nat → Bool

/-- A free value: the n-th that this run draws (assumption log 3). -/
opaque freeNat : Nat → Nat

/-- A free string of bytes: (draw, length); callers cut or pad it to the length. -/
opaque freeBytes : Nat → Nat → Bytes

/-- Initial value of the CRC-64 of R235, which the spec does not give. -/
opaque crc64Init : BitVec 64

/-- Whether a Falcon-1024 signature holds: (public key, digest, signature) (spec 17, R515). -/
opaque falconVerify : Bytes → Bytes → Bytes → Bool

/-- A Falcon-1024 signature by the identity key: (draw, digest) (spec 17, R524). -/
opaque falconSign : Nat → Bytes → Bytes

/-- The I3C characteristics that the spec names and gives no value for (spec 18, R552): (which command). -/
opaque i3cAnswer : Nat → Bytes

/-- A reading that no input of the block gives (rail voltages and currents, powers, spec 18, R543): the n-th that
this run draws (assumption log 3). -/
opaque reading : Nat → Nat

end Sys2Proof.Config
end

