-- ==== Sys2Proof/Machine/Bytes.lean ====
section
/-! DEFINITION. Bytes and bits: little-endian fields (spec 00, R18, R19), CRC-64 (spec 07, R235) and CRC-32C
(spec 13, R409). -/
namespace Sys2Proof

/-- The number that a string of bytes spells, lowest byte first (spec 00, R19). -/
def leNat : Bytes → Nat
  | [] => 0
  | b :: bs => b.toNat + 256 * leNat bs

/-- n bytes of a number, lowest byte first. -/
def leBytes : Nat → Nat → Bytes
  | 0, _ => []
  | n + 1, v => BitVec.ofNat 8 v :: leBytes n (v / 256)

/-- Field of `size` bytes at offset `off`; bytes beyond the end read zero. -/
def fieldAt (bs : Bytes) (off size : Nat) : Nat :=
  leNat ((bs.drop off).take size)

/-- Bits [hi:lo] of a number (spec 00, R18). -/
def bits (v hi lo : Nat) : Nat := (v / 2 ^ lo) % 2 ^ (hi - lo + 1)

/-- Bit n of a number. -/
def bit (v n : Nat) : Bool := (v / 2 ^ n) % 2 == 1

/-- 1 for true, 0 for false. -/
def b2n (b : Bool) : Nat := if b then 1 else 0

/-- The signed value of an n-bit two's-complement field. -/
def signed (n v : Nat) : Int :=
  if v % 2 ^ n < 2 ^ (n - 1) then (v % 2 ^ n : Nat) else ((v % 2 ^ n : Nat) : Int) - (2 ^ n : Nat)

/-- The n-bit two's-complement field of a signed value. -/
def unsigned (n : Nat) (v : Int) : Nat := (v % ((2 ^ n : Nat) : Int)).toNat

/-- n zero bytes. -/
def zeros (n : Nat) : Bytes := List.replicate n 0

/-- A string of exactly n bytes: cut, or filled with zero. -/
def fitBytes (n : Nat) (bs : Bytes) : Bytes := bs.take n ++ zeros (n - bs.length)

/-- Signed distance from serial a to serial b (spec 15, R490): (int32_t)(b - a). -/
def serialDist (a b : Word) : Int := (b - a).toInt

/-- Serial a precedes serial b (spec 15, R490). -/
def precedes (a b : Word) : Bool := decide (0 < serialDist a b)

/-- (int32_t)(flag - value) ≥ 0, the wait condition of spec 03, R105. -/
def reached (flag value : Nat) : Bool := decide (0 ≤ signed 32 (flag % 2 ^ 32 + 2 ^ 32 - value % 2 ^ 32))

/-- ceil(a / b). -/
def ceilDiv (a b : Nat) : Nat := (a + b - 1) / b

/-- The chunks of n of a list; the last may be short. `fuel` bounds their number. -/
def chunksAux {α : Type} (n : Nat) : Nat → List α → List (List α)
  | 0, _ => []
  | _ + 1, [] => []
  | f + 1, l => l.take n :: chunksAux n f (l.drop n)

def chunks {α : Type} (n : Nat) (l : List α) : List (List α) := chunksAux n l.length l

/-! ### CRC-64 of spec 07, R235 (most significant bit first; the initial value is a free constant) -/

def crc64Poly : BitVec 64 := 0x42F0E1EBA9EA3693#64

def crc64Bit (r : BitVec 64) : BitVec 64 :=
  if r.msb then (r <<< 1) ^^^ crc64Poly else r <<< 1

def crc64Byte (r : BitVec 64) (b : Byte) : BitVec 64 :=
  Nat.repeat crc64Bit 8 (r ^^^ (b.setWidth 64 <<< 56))

/-- CRC-64 of a string of bytes (spec 07, R235). -/
def crc64 (bs : Bytes) : BitVec 64 := bs.foldl crc64Byte Config.crc64Init

/-! ### CRC-32C, the Castagnoli code (spec 13, R409; spec 18, R544) -/

def crc32cBit (r : BitVec 32) : BitVec 32 :=
  if r.getLsbD 0 then (r >>> 1) ^^^ 0x82F63B78#32 else r >>> 1

def crc32cByte (r : BitVec 32) (b : Byte) : BitVec 32 :=
  Nat.repeat crc32cBit 8 (r ^^^ b.setWidth 32)

/-- CRC-32C of a string of bytes. -/
def crc32c (bs : Bytes) : BitVec 32 := ~~~(bs.foldl crc32cByte 0xFFFFFFFF#32)

/-- ASCII text as bytes. -/
def ascii (s : String) : Bytes := s.toList.map (fun c => BitVec.ofNat 8 c.toNat)

end Sys2Proof
end

