-- ==== Sys2Proof/Machine/Codes.lean ====
section
/-! DEFINITION. The numbers of the command reference: completion classes (spec 15, R480), detail codes (R481; spec 17,
R528; spec 18, R556), attention bits (R478), counter ids (R491; spec 16, R511; spec 18, R557), opcodes (R486), fault
record classes (spec 13, R410). -/
namespace Sys2Proof.Machine

namespace Cls
abbrev ok : Nat := 0
abbrev accepted : Nat := 1
abbrev busy : Nat := 2
abbrev rejected : Nat := 3
abbrev faulted : Nat := 4
abbrev security : Nat := 5
abbrev part : Nat := 6
end Cls

namespace Detail
abbrev none : Nat := 0x00000
abbrev badOpcode : Nat := 0x00001
abbrev badParam : Nat := 0x00002
abbrev badReserved : Nat := 0x00003
abbrev notOwner : Nat := 0x00004
abbrev badState : Nat := 0x00005
abbrev validationFail : Nat := 0x00006
abbrev noResource : Nat := 0x00007
abbrev hostError : Nat := 0x00008
abbrev streamTruncated : Nat := 0x00101
abbrev nmMetaFault : Nat := 0x00102
abbrev indexRange : Nat := 0x00103
abbrev tokenDropped : Nat := 0x00104
abbrev uncompared : Nat := 0x00105
abbrev roundDoused : Nat := 0x00201
abbrev roundReplayFail : Nat := 0x00202
abbrev barrierTimeout : Nat := 0x00203
abbrev settleTimeout : Nat := 0x00204
abbrev routeTimeout : Nat := 0x00205
abbrev collTimeout : Nat := 0x00206
abbrev streamHeld : Nat := 0x00301
abbrev hbmPoison : Nat := 0x00302
abbrev hbmCorrectRate : Nat := 0x00303
abbrev sramUncorrected : Nat := 0x00304
abbrev checkMismatch : Nat := 0x00401
abbrev unitFenced : Nat := 0x00402
abbrev testFail : Nat := 0x00403
abbrev testWeak : Nat := 0x00404
abbrev testOverdue : Nat := 0x00405
abbrev digestSplit : Nat := 0x00406
abbrev expelled : Nat := 0x00407
abbrev digestMajority : Nat := 0x00408
abbrev laneSwitch : Nat := 0x00501
abbrev channelDown : Nat := 0x00502
abbrev channelRestored : Nat := 0x00503
abbrev timeUnlocked : Nat := 0x00504
abbrev suspectReport : Nat := 0x00505
abbrev reportStorm : Nat := 0x00506
abbrev bankStale : Nat := 0x00601
abbrev bankCrc : Nat := 0x00602
abbrev bankPoison : Nat := 0x00603
abbrev bankLost : Nat := 0x00604
abbrev tripCurrent : Nat := 0x00701
abbrev tripThermal : Nat := 0x00702
abbrev tripFlow : Nat := 0x00703
abbrev phaseLost : Nat := 0x00704
abbrev railTrip : Nat := 0x00705
abbrev tripOvervolt : Nat := 0x00706
abbrev tripUndervolt : Nat := 0x00707
abbrev tripSensor : Nat := 0x00708
abbrev tripSwitch : Nat := 0x00709
abbrev tripPrecharge : Nat := 0x0070A
abbrev tripLeak : Nat := 0x0070B
abbrev warnThermal : Nat := 0x0070C
abbrev warnOverload : Nat := 0x0070D
abbrev warnInput : Nat := 0x0070E
abbrev warnFlow : Nat := 0x0070F
abbrev removal : Nat := 0x00710
abbrev sigInvalid : Nat := 0x00801
abbrev hashMismatch : Nat := 0x00802
abbrev rollback : Nat := 0x00803
abbrev fwFallback : Nat := 0x00804
abbrev debugActive : Nat := 0x00805
abbrev ideFail : Nat := 0x00806
abbrev fuseFail : Nat := 0x00807
end Detail

namespace Attn
abbrev fault : Byte := 0x80#8
abbrev safety : Byte := 0x40#8
abbrev integrity : Byte := 0x20#8
abbrev test : Byte := 0x10#8
abbrev bank : Byte := 0x08#8
abbrev thermal : Byte := 0x04#8
abbrev owner : Byte := 0x02#8
abbrev log : Byte := 0x01#8
end Attn

/- Scopes of a fault record (spec 13, R409). -/
namespace Scope
abbrev none : Nat := 0
abbrev inBound : Nat := 1
abbrev outOfBound : Nat := 2
abbrev relight : Nat := 3
end Scope

/- Classes of a fault record (spec 13, R410). -/
namespace Rec
abbrev checksum : Nat := 0x01
abbrev strike : Nat := 0x02
abbrev fence : Nat := 0x03
abbrev memory : Nat := 0x04
abbrev stream : Nat := 0x05
abbrev condition : Nat := 0x06
abbrev round : Nat := 0x07
abbrev fabric : Nat := 0x08
abbrev suspect : Nat := 0x09
abbrev power : Nat := 0x0A
abbrev test : Nat := 0x0B
abbrev digest : Nat := 0x0C
end Rec

namespace Cnt
abbrev nonfinite : Nat := 0x0000
abbrev saturated : Nat := 0x0001
abbrev roundLate : Nat := 0x0010
abbrev roundDoused : Nat := 0x0011
abbrev itemReturned : Nat := 0x0012
abbrev itemWatchdog : Nat := 0x0013
abbrev emberSent : Nat := 0x0018
abbrev emberBlocked : Nat := 0x0019
abbrev emberDropped : Nat := 0x001A
abbrev emberDouseLocal : Nat := 0x001B
abbrev emberDouseRemote : Nat := 0x001C
abbrev emberStageWait : Nat := 0x001D
abbrev hbmCorrected : Nat := 0x0020
abbrev hbmPoison : Nat := 0x0030
abbrev sramCorrected : Nat := 0x003C
abbrev streamIndexRange : Nat := 0x0040
abbrev streamDrainWait : Nat := 0x0041
abbrev streamArmWait : Nat := 0x0042
abbrev streamHeld : Nat := 0x0043
abbrev nmPruned : Nat := 0x0048
abbrev nmMetaFault : Nat := 0x0049
abbrev denseMismatch : Nat := 0x004A
abbrev denseReexec : Nat := 0x004B
abbrev sparseSpill : Nat := 0x0050
abbrev sparseSegments : Nat := 0x0051
abbrev sparseIndexRange : Nat := 0x0052
abbrev sparseRowDropped : Nat := 0x0053
abbrev sparseMalformed : Nat := 0x0054
abbrev sparseMismatch : Nat := 0x0055
abbrev sparseReexec : Nat := 0x0056
abbrev routeTokens : Nat := 0x0058
abbrev routeDropped : Nat := 0x0059
abbrev routeEmptyExpert : Nat := 0x005A
abbrev routeCountClamp : Nat := 0x005B
abbrev maskDropped : Nat := 0x005C
abbrev fabricDropped : Nat := 0x0060
abbrev fabricForwarded : Nat := 0x0061
abbrev timebaseWait : Nat := 0x0062
abbrev barrierLate : Nat := 0x0063
abbrev fabricSuspect : Nat := 0x0064
abbrev reportStorm : Nat := 0x0065
abbrev collChunks : Nat := 0x0068
abbrev collEmpty : Nat := 0x0069
abbrev orthoZero : Nat := 0x006A
abbrev collDup : Nat := 0x006B
abbrev updateElems : Nat := 0x0070
abbrev updateSkipped : Nat := 0x0071
abbrev stepClipped : Nat := 0x0072
abbrev versionWait : Nat := 0x0073
abbrev snapshotTrunc : Nat := 0x0074
abbrev strike : Nat := 0x0078
abbrev unitRetired : Nat := 0x0079
abbrev testRun : Nat := 0x007A
abbrev testFail : Nat := 0x007B
abbrev testForced : Nat := 0x007C
abbrev digestCompared : Nat := 0x007D
abbrev digestMismatch : Nat := 0x007E
abbrev faultLost : Nat := 0x007F
abbrev bankSealed : Nat := 0x0080
abbrev bankAborted : Nat := 0x0081
abbrev bankCommitWait : Nat := 0x0082
abbrev bankRelight : Nat := 0x0083
abbrev cmdRejected : Nat := 0x0088
abbrev doorbellBad : Nat := 0x0089
abbrev replyStall : Nat := 0x008A
abbrev replyDropped : Nat := 0x008B
abbrev ownerChange : Nat := 0x008C
abbrev trip : Nat := 0x0090
abbrev thermalWarn : Nat := 0x0091
abbrev powerWarn : Nat := 0x0092
abbrev phaseLost : Nat := 0x0093
abbrev ashWritten : Nat := 0x0094
abbrev ashWrap : Nat := 0x0095
abbrev ashTorn : Nat := 0x0096
abbrev ashDropped : Nat := 0x0097
abbrev coldStart : Nat := 0x00A0
abbrev bistFail : Nat := 0x00A1
abbrev trainRetry : Nat := 0x00A2
abbrev pstateApplied : Nat := 0x00A3
abbrev kindlingEntry : Nat := 0x00A4

/-- The ids that have a counter (spec 15, R491; spec 16, R511; spec 18, R557). -/
def present (id : Nat) : Bool :=
  id ≤ 0x01 || (0x10 ≤ id && id ≤ 0x13) || (0x18 ≤ id && id ≤ 0x1D) || (0x20 ≤ id && id ≤ 0x2B)
  || (0x30 ≤ id && id ≤ 0x3C) || (0x40 ≤ id && id ≤ 0x43) || (0x48 ≤ id && id ≤ 0x4B)
  || (0x50 ≤ id && id ≤ 0x56) || (0x58 ≤ id && id ≤ 0x5C) || (0x60 ≤ id && id ≤ 0x65)
  || (0x68 ≤ id && id ≤ 0x6B) || (0x70 ≤ id && id ≤ 0x74) || (0x78 ≤ id && id ≤ 0x7F)
  || (0x80 ≤ id && id ≤ 0x83) || (0x88 ≤ id && id ≤ 0x8C) || (0x90 ≤ id && id ≤ 0x97)
  || (0xA0 ≤ id && id ≤ 0xA4)
end Cnt

/- Opcodes (spec 15, R486; the last three rows of its table give theirs in the order of their names). -/
namespace Op
abbrev nop : Nat := 0x0000
abbrev identify : Nat := 0x0001
abbrev statusRead : Nat := 0x0002
abbrev attnAck : Nat := 0x0003
abbrev ownerClaim : Nat := 0x0004
abbrev ownerYield : Nat := 0x0005
abbrev counterRead : Nat := 0x0006
abbrev moduleReset : Nat := 0x0007
abbrev distanceRead : Nat := 0x0008
abbrev pstateSet : Nat := 0x0010
abbrev pstateQuery : Nat := 0x0011
abbrev oppointRead : Nat := 0x0012
abbrev railStatus : Nat := 0x0013
abbrev regionRegister : Nat := 0x0020
abbrev regionRevoke : Nat := 0x0021
abbrev regionQuery : Nat := 0x0022
abbrev hbmPartition : Nat := 0x0023
abbrev planLoad : Nat := 0x0030
abbrev planReport : Nat := 0x0031
abbrev planStart : Nat := 0x0032
abbrev planHalt : Nat := 0x0033
abbrev planResume : Nat := 0x0034
abbrev planUnload : Nat := 0x0035
abbrev streamCreate : Nat := 0x0038
abbrev streamArm : Nat := 0x0039
abbrev streamResume : Nat := 0x003A
abbrev streamRetire : Nat := 0x003B
abbrev stepBegin : Nat := 0x0040
abbrev groupSet : Nat := 0x0041
abbrev stepStatus : Nat := 0x0042
abbrev snapshotExport : Nat := 0x0043
abbrev bankConfigure : Nat := 0x0050
abbrev bankNow : Nat := 0x0051
abbrev bankStatus : Nat := 0x0052
abbrev relight : Nat := 0x0053
abbrev bankServe : Nat := 0x0054
abbrev testWindowForce : Nat := 0x0060
abbrev patternInstall : Nat := 0x0061
abbrev testResultRead : Nat := 0x0062
abbrev marginTestRun : Nat := 0x0063
abbrev digestPolicySet : Nat := 0x0064
abbrev unitDisable : Nat := 0x0065
abbrev unitEnable : Nat := 0x0066
abbrev faultLogRead : Nat := 0x0067
abbrev fabricConfigure : Nat := 0x0070
abbrev channelStatus : Nat := 0x0071
abbrev channelDisable : Nat := 0x0072
abbrev timebaseStatus : Nat := 0x0073
abbrev fwStage : Nat := 0x0080
abbrev fwActivate : Nat := 0x0081
abbrev attestQuote : Nat := 0x0082
abbrev identityRead : Nat := 0x0083
abbrev ashRead : Nat := 0x0090
abbrev ashNote : Nat := 0x0091
abbrev ashStatus : Nat := 0x0092
abbrev kindlingEnter : Nat := 0x00A0
abbrev kindlingExit : Nat := 0x00A1
abbrev diagRun : Nat := 0x00A2

/-- The opcodes of R486. -/
def known (op : Nat) : Bool :=
  op ≤ 0x08 || (0x10 ≤ op && op ≤ 0x13) || (0x20 ≤ op && op ≤ 0x23) || (0x30 ≤ op && op ≤ 0x35)
  || (0x38 ≤ op && op ≤ 0x3B) || (0x40 ≤ op && op ≤ 0x43) || (0x50 ≤ op && op ≤ 0x54)
  || (0x60 ≤ op && op ≤ 0x67) || (0x70 ≤ op && op ≤ 0x73) || (0x80 ≤ op && op ≤ 0x83)
  || (0x90 ≤ op && op ≤ 0x92) || (0xA0 ≤ op && op ≤ 0xA2)
end Op

end Sys2Proof.Machine
end

