-- ==== Sys2Proof/Machine/Map.lean ====
section
/-! DEFINITION. Sparse maps from numbers: sorted lists of (key, value) in which a key that is not listed reads as a
given default, and no listed value equals that default. Memory, counters, flags, tables of units and of contexts
are such maps. -/
namespace Sys2Proof

/-- A sparse map: keys strictly rising, no value equal to the default it is used with. -/
abbrev SMap (α : Type) := List (Nat × α)

namespace SMap

/-- The value at key k; d where k is not listed. -/
def get {α : Type} (d : α) : SMap α → Nat → α
  | [], _ => d
  | (a, v) :: m, k => if a = k then v else if k < a then d else get d m k

/-- List v under k, in order; an entry that stood at k goes. -/
def ins {α : Type} (k : Nat) (v : α) : SMap α → SMap α
  | [] => [(k, v)]
  | (a, w) :: m => if a = k then (k, v) :: m else if k < a then (k, v) :: (a, w) :: m else (a, w) :: ins k v m

/-- Take the entry at k away. -/
def del {α : Type} (k : Nat) : SMap α → SMap α
  | [] => []
  | (a, w) :: m => if a = k then m else if k < a then (a, w) :: m else (a, w) :: del k m

/-- Give key k the value v; the default is not listed. -/
def put {α : Type} [DecidableEq α] (d : α) (m : SMap α) (k : Nat) (v : α) : SMap α :=
  if v = d then del k m else ins k v m

/-- Change the value at key k by f. -/
def upd {α : Type} [DecidableEq α] (d : α) (m : SMap α) (k : Nat) (f : α → α) : SMap α :=
  put d m k (f (get d m k))

/-- Every listed key lies above lo and the keys rise strictly. -/
def rising {α : Type} : Option Nat → SMap α → Bool
  | _, [] => true
  | lo, (a, _) :: m => (match lo with | none => true | some l => decide (l < a)) && rising (some a) m

/-- The canonical form: keys strictly rising, no entry equal to the default. -/
def wf {α : Type} [DecidableEq α] (d : α) (m : SMap α) : Bool :=
  rising none m && m.all (fun e => e.2 != d)

/-- Every value changed by f, where f keeps the default. -/
def mapVals {α : Type} [DecidableEq α] (d : α) (m : SMap α) (f : α → α) : SMap α :=
  (m.map (fun e => (e.1, f e.2))).filter (fun e => e.2 != d)

/-- The entries whose key satisfies p. -/
def keep {α : Type} (m : SMap α) (p : Nat → Bool) : SMap α :=
  m.filter (fun e => p e.1)

end SMap

end Sys2Proof
end

