-- ==== Sys2Proof/Machine/Float.lean ====
section
/-! DEFINITION. Number formats and arithmetic (spec 02): formats, exact values, FP32 operations with RNE, conversion
with RNE or stochastic rounding. -/
namespace Sys2Proof

/-- Format codes (spec 02, R56). -/
inductive Fmt where
  | fp32 | bf16 | fp16 | fp8e4 | fp8e5 | fp4b | int8 | uint8
  deriving DecidableEq, Repr

/-- Rounding mode (spec 02, R55). -/
inductive Rnd where
  | rne | sr
  deriving DecidableEq, Repr

/-- A legal format word (spec 02, R55, R57), field by field. -/
structure FmtWord where
  fmt : Fmt
  rnd : Rnd
  sat : Bool
  srPerStep : Bool
  zeroPoint : Nat
  deriving DecidableEq, Repr

/-- FP32, RNE, NONSAT. -/
def FmtWord.plain : FmtWord := ⟨.fp32, .rne, false, false, 0⟩

/-- The code of a format (spec 02, R56). -/
def Fmt.ofCode : Nat → Option Fmt
  | 0 => some .fp32 | 1 => some .bf16 | 2 => some .fp16 | 3 => some .fp8e4 | 4 => some .fp8e5
  | 5 => some .fp4b | 6 => some .int8 | 7 => some .uint8 | _ => none

def Fmt.code : Fmt → Nat
  | .fp32 => 0 | .bf16 => 1 | .fp16 => 2 | .fp8e4 => 3 | .fp8e5 => 4 | .fp4b => 5 | .int8 => 6 | .uint8 => 7

/-- Element width in bits (spec 02, R58, R62). -/
def Fmt.width : Fmt → Nat
  | .fp32 => 32 | .bf16 => 16 | .fp16 => 16 | .fp4b => 4 | _ => 8

/-- Bytes of n consecutive elements that start on a byte. -/
def Fmt.bytesOf (f : Fmt) (n : Nat) : Nat := ceilDiv (n * f.width) 8

/-- The fields of a format word that R57 calls legal; none for an illegal one. Reserved bits are judged apart. -/
def FmtWord.parse (w : Nat) : Option FmtWord :=
  match Fmt.ofCode (bits w 3 0), bits w 11 10, bits w 13 12 with
  | some f, r, o =>
    if r > 1 ∨ o > 1 then none
    else if bits w 31 24 ≠ 0 ∧ f ≠ .int8 ∧ f ≠ .uint8 then none
    else if f = .fp32 ∧ r = 1 then none
    else some ⟨f, if r = 1 then .sr else .rne, o == 1, bit w 17, bits w 31 24⟩
  | none, _, _ => none

/-- The reserved bits of a format word (spec 02, R55). -/
def FmtWord.reserved (w : Nat) : Bool := bits w 23 18 != 0 || bits w 16 14 != 0 || bits w 9 4 != 0

/-! ### Exact values -/

/-- The value of an encoding: NaN, an infinity, or (-1)^neg · m · 2^e exactly. -/
inductive Num where
  | nan
  | inf (neg : Bool)
  | fin (neg : Bool) (m : Nat) (e : Int)
  deriving DecidableEq, Repr

/-- Fraction bits of a floating-point format. -/
def Fmt.frac : Fmt → Nat
  | .fp32 => 23 | .bf16 => 7 | .fp16 => 10 | .fp8e4 => 3 | .fp8e5 => 2 | _ => 1

/-- Exponent of the smallest subnormal (spec 02, R58). -/
def Fmt.emin : Fmt → Int
  | .fp32 => -149 | .bf16 => -133 | .fp16 => -24 | .fp8e4 => -9 | .fp8e5 => -16 | _ => -1

/-- Largest finite magnitude code (spec 02, R58). -/
def Fmt.maxCode : Fmt → Nat
  | .fp32 => 0x7F7FFFFF | .bf16 => 0x7F7F | .fp16 => 0x7BFF | .fp8e4 => 0x7E | .fp8e5 => 0x7B | _ => 7

/-- Code of +∞; formats without one answer their NaN code or largest code. -/
def Fmt.infCode : Fmt → Nat
  | .fp32 => 0x7F800000 | .bf16 => 0x7F80 | .fp16 => 0x7C00 | .fp8e4 => 0x7F | .fp8e5 => 0x7C | _ => 7

/-- Canonical NaN (spec 02, R60). -/
def Fmt.nanCode : Fmt → Nat
  | .fp32 => 0x7FC00000 | .bf16 => 0x7FC0 | .fp16 => 0x7E00 | .fp8e4 => 0x7F | .fp8e5 => 0x7E | _ => 0

/-- The value of a floating-point encoding (spec 02, R58). -/
def Fmt.decode (f : Fmt) (c : Nat) : Num :=
  let neg := bit c (f.width - 1)
  let mag := c % 2 ^ (f.width - 1)
  if mag > f.maxCode then
    if mag = f.infCode ∧ f ≠ .fp8e4 then .inf neg else .nan
  else
    let ef := mag / 2 ^ f.frac
    let fr := mag % 2 ^ f.frac
    if ef = 0 then .fin neg fr f.emin else .fin neg (2 ^ f.frac + fr) (f.emin + (ef : Int) - 1)

/-- How a discarded part rounds: to nearest even, or up when the 32 random bits lie below it (spec 02, R80). -/
inductive RndBy where
  | rne
  | sr (u : Nat)
  deriving DecidableEq, Repr

/-- Round m · 2^e to the precision of f, with no upper limit on the exponent (spec 02, R76): the magnitude code,
which may lie above `maxCode`. -/
def Fmt.roundMag (f : Fmt) (r : RndBy) (m : Nat) (e : Int) : Nat :=
  if m = 0 then 0
  else
    let len : Int := (Nat.log2 m + 1 : Nat)
    let lsb : Int := max (e + len - (f.frac + 1 : Nat)) f.emin
    let q :=
      if lsb ≤ e then m * 2 ^ (e - lsb).toNat
      else
        let sh := (lsb - e).toNat
        let q := m / 2 ^ sh
        let rem := m % 2 ^ sh
        match r with
        | .rne => if 2 * rem > 2 ^ sh ∨ (2 * rem = 2 ^ sh ∧ q % 2 = 1) then q + 1 else q
        | .sr u => if rem ≠ 0 ∧ u < rem * 2 ^ 32 / 2 ^ sh then q + 1 else q
    (lsb - f.emin).toNat * 2 ^ f.frac + q

/-- Put a sign on a magnitude code. -/
def Fmt.withSign (f : Fmt) (neg : Bool) (mag : Nat) : Nat := if neg then mag + 2 ^ (f.width - 1) else mag

/-- The encoding that R76 gives a value, and whether SAT clamped it (spec 02, R76, R81). -/
def Fmt.encode (f : Fmt) (r : RndBy) (sat : Bool) : Num → Nat × Bool
  | .nan => (f.nanCode, false)
  | .inf neg =>
    if sat then (f.withSign neg f.maxCode, true)
    else if f = .fp8e4 then (f.nanCode, false) else (f.withSign neg f.infCode, false)
  | .fin neg m e =>
    let mag := f.roundMag r m e
    if mag > f.maxCode then
      if sat then (f.withSign neg f.maxCode, true)
      else if f = .fp8e4 then (f.nanCode, false) else (f.withSign neg f.infCode, false)
    else (f.withSign neg mag, false)

/-! ### FP32 operations -/

namespace F32

def num (x : F32) : Num := Fmt.decode .fp32 x.toNat

/-- Round an exact value to FP32 with RNE; NaN becomes canonical (spec 02, R60, R65). -/
def ofNum (v : Num) : F32 := BitVec.ofNat 32 (Fmt.encode .fp32 .rne false v).1

def zero : F32 := 0#32
def one : F32 := 0x3F800000#32
def nan : F32 := 0x7FC00000#32

def isNan (x : F32) : Bool := match num x with | .nan => true | _ => false
def isFinite (x : F32) : Bool := match num x with | .fin _ _ _ => true | _ => false
def isZero (x : F32) : Bool := match num x with | .fin _ 0 _ => true | _ => false

/-- Exact sum of two finite values; a zero sum of opposite signs is +0 (spec 02, R65). -/
def addFin (n1 : Bool) (m1 : Nat) (e1 : Int) (n2 : Bool) (m2 : Nat) (e2 : Int) : Num :=
  let e := min e1 e2
  let a : Int := (m1 * 2 ^ (e1 - e).toNat : Nat)
  let b : Int := (m2 * 2 ^ (e2 - e).toNat : Nat)
  let s := (if n1 then -a else a) + (if n2 then -b else b)
  if s = 0 then .fin (n1 && n2 && m1 == 0 && m2 == 0) 0 e else .fin (decide (s < 0)) s.natAbs e

/-- Exact sum, with infinities and NaN as IEEE 754 gives them. -/
def addNum : Num → Num → Num
  | .nan, _ => .nan
  | _, .nan => .nan
  | .inf a, .inf b => if a = b then .inf a else .nan
  | .inf a, _ => .inf a
  | _, .inf b => .inf b
  | .fin n1 m1 e1, .fin n2 m2 e2 => addFin n1 m1 e1 n2 m2 e2

/-- Exact product, with infinities and NaN as IEEE 754 gives them. -/
def mulNum : Num → Num → Num
  | .nan, _ => .nan
  | _, .nan => .nan
  | .inf a, .inf b => .inf (xor a b)
  | .inf a, .fin n m _ => if m = 0 then .nan else .inf (xor a n)
  | .fin n m _, .inf b => if m = 0 then .nan else .inf (xor n b)
  | .fin n1 m1 e1, .fin n2 m2 e2 => .fin (xor n1 n2) (m1 * m2) (e1 + e2)

/-- fp32_add (spec 02, R65). -/
def add (x y : F32) : F32 := ofNum (addNum (num x) (num y))
/-- Flip the sign bit. -/
def neg (x : F32) : F32 := x ^^^ 0x80000000#32
/-- fp32_sub. -/
def sub (x y : F32) : F32 := add x (neg y)
/-- fp32_mul. -/
def mul (x y : F32) : F32 := ofNum (mulNum (num x) (num y))
/-- fused_multiply_add: a · b + c with one rounding (spec 02, R88). -/
def fma (a b c : F32) : F32 := ofNum (addNum (mulNum (num a) (num b)) (num c))

/-- fp32_div, IEEE 754 with RNE. -/
def div (x y : F32) : F32 :=
  match num x, num y with
  | .nan, _ => nan
  | _, .nan => nan
  | .inf _, .inf _ => nan
  | .inf a, .fin n _ _ => ofNum (.inf (xor a n))
  | .fin n _ _, .inf b => ofNum (.fin (xor n b) 0 0)
  | .fin n1 m1 e1, .fin n2 m2 e2 =>
    if m2 = 0 then (if m1 = 0 then nan else ofNum (.inf (xor n1 n2)))
    else
      let q := (m1 * 2 ^ 60) / m2
      let st := if (m1 * 2 ^ 60) % m2 = 0 then 0 else 1
      ofNum (.fin (xor n1 n2) (2 * q + st) (e1 - e2 - 61))

/-- Integer square root by bits, from bit `k` down. -/
def isqrtAux (n : Nat) : Nat → Nat → Nat
  | 0, r => r
  | k + 1, r =>
    let t := r + 2 ^ k
    if t * t ≤ n then isqrtAux n k t else isqrtAux n k r

/-- fp32_sqrt, IEEE 754 with RNE. -/
def sqrt (x : F32) : F32 :=
  match num x with
  | .nan => nan
  | .inf n => if n then nan else ofNum (.inf false)
  | .fin n m e =>
    if m = 0 then x
    else if n then nan
    else
      let sh : Nat := if e % 2 = 0 then 60 else 61
      let v := m * 2 ^ sh
      let r := isqrtAux v 43 0
      let st := if r * r = v then 0 else 1
      ofNum (.fin false (2 * r + st) ((e - (sh : Int)) / 2 - 1))

/-- a < b as numbers; false with a NaN. -/
def lt (x y : F32) : Bool :=
  match num x, num y with
  | .nan, _ => false
  | _, .nan => false
  | .inf a, .inf b => a && !b
  | .inf a, _ => a
  | _, .inf b => !b
  | .fin n1 m1 e1, .fin n2 m2 e2 =>
    match addFin n1 m1 e1 (!n2) m2 e2 with
    | .fin n m _ => n && m != 0
    | _ => false

/-- The larger operand of SCATTER_MAX: canonical NaN with a NaN, +0 of +0 and -0 (spec 06, R184). -/
def maxOf (x y : F32) : F32 :=
  if isNan x || isNan y then nan
  else if isZero x && isZero y then (if x = y then x else zero)
  else if lt x y then y else x

/-- An exact integer as FP32 (exact below 2^24). -/
def ofInt (v : Int) : F32 := ofNum (.fin (decide (v < 0)) v.natAbs 0)

/-- Pairwise tree over a list (spec 02, R73; spec 03, R109): one level. -/
def pairUp : List F32 → List F32
  | a :: b :: r => add a b :: pairUp r
  | l => l

/-- The pairwise tree: levels until one value is left. On a list of 2^n values this is R73; on other lengths the
tail passes through, as R109 has it. -/
def tree : Nat → List F32 → F32
  | 0, l => l.headD zero
  | n + 1, l => tree n (pairUp l)

/-- Sum of 32 values in the tree of R73. -/
def tree32 (l : List F32) : F32 := tree 5 l

/-- Chain with fp32_add, starting from the first value; +0 of an empty list. -/
def chain : List F32 → F32
  | [] => zero
  | a :: l => l.foldl add a

/-- Sum in chunks of 32, each in the tree of R73 with +0 for missing terms, chunks chained in order. -/
def chunkSum (l : List F32) : F32 :=
  chain ((chunks 32 l).map (fun c => tree32 (c ++ List.replicate (32 - c.length) zero)))

end F32

/-! ### Stochastic rounding (spec 02, R79) -/

def srFold (z : Dword) : Dword :=
  let z := (z ^^^ (z >>> 31)) * 0x9E6C63D0676A9A99#64
  let z := (z ^^^ (z >>> 29)) * 0xB4F12D075C83E6A5#64
  z ^^^ (z >>> 32)

/-- The generator of R79. -/
def srBits (planSeed : Dword) (tensorId epoch : Nat) (element : Nat) : Dword :=
  let key := srFold (planSeed ^^^ (BitVec.ofNat 64 (epoch % 2 ^ 32 * 2 ^ 32 + tensorId % 2 ^ 32)))
  srFold (key + srFold (BitVec.ofNat 64 element))

/-- Who is converted: the seed, tensor and epoch of R79. -/
structure SrKey where
  seed : Dword
  tensor : Nat
  epoch : Nat
  deriving DecidableEq, Repr

/-- How an element rounds under a format word. -/
def SrKey.by (k : SrKey) (w : FmtWord) (element : Nat) : RndBy :=
  match w.rnd with
  | .rne => .rne
  | .sr => .sr ((srBits k.seed k.tensor (if w.srPerStep then k.epoch else 0) element).toNat / 2 ^ 32)

/-! ### Conversion of one element (spec 02, R76, R78) -/

/-- The range of an integer format. -/
def Fmt.intRange : Fmt → Int × Int
  | .int8 => (-128, 127)
  | _ => (0, 255)

/-- The zero point as a number (spec 02, R55). -/
def FmtWord.zp (w : FmtWord) : Int := if w.fmt = .int8 then signed 8 w.zeroPoint else (w.zeroPoint : Int)

/-- Round m · 2^e to an integer. -/
def roundInt (r : RndBy) (m : Nat) (e : Int) : Nat :=
  if 0 ≤ e then m * 2 ^ e.toNat
  else
    let sh := (-e).toNat
    let q := m / 2 ^ sh
    let rem := m % 2 ^ sh
    match r with
    | .rne => if 2 * rem > 2 ^ sh ∨ (2 * rem = 2 ^ sh ∧ q % 2 = 1) then q + 1 else q
    | .sr u => if rem ≠ 0 ∧ u < rem * 2 ^ 32 / 2 ^ sh then q + 1 else q

/-- What a conversion adds to the counts of R81: (nonfinite, saturated). -/
structure Converted where
  code : Nat
  nonfinite : Bool
  saturated : Bool
  deriving DecidableEq, Repr

/-- FP32 to INT8 or UINT8 (spec 02, R78, R81). -/
def toInteger (w : FmtWord) (r : RndBy) (invScale x : F32) : Converted :=
  let lo := w.fmt.intRange.1
  let hi := w.fmt.intRange.2
  match F32.mulNum (F32.num x) (F32.num invScale) with
  | .nan => ⟨unsigned 8 w.zp, true, false⟩
  | .inf n => ⟨unsigned 8 (if n then lo else hi), false, true⟩
  | .fin n m e =>
    let q : Int := roundInt r m e
    let v := (if n then -q else q) + w.zp
    if v < lo then ⟨unsigned 8 lo, false, true⟩
    else if hi < v then ⟨unsigned 8 hi, false, true⟩
    else ⟨unsigned 8 v, false, false⟩

/-- FP32 to any format but FP4B (spec 02, R76 to R78), with the counts of R81. -/
def convert (w : FmtWord) (r : RndBy) (invScale x : F32) : Converted :=
  match w.fmt with
  | .int8 => toInteger w r invScale x
  | .uint8 => toInteger w r invScale x
  | f =>
    let res := f.encode r w.sat (F32.num x)
    let nf := match f.decode res.1 with | .fin _ _ _ => false | _ => true
    ⟨res.1, nf, res.2⟩

/-- An FP4B block: its scale byte and 32 element codes (spec 02, R61). -/
structure Fp4Block where
  scale : Nat
  codes : List Nat
  nonfinite : Nat
  saturated : Nat
  deriving DecidableEq, Repr

/-- Convert a block of at most 32 values inside the logical extent to FP4B; the tail is 0b0000 (spec 02, R77, R81). -/
def toFp4 (rs : Nat → RndBy) (xs : List F32) : Fp4Block :=
  let pad (l : List Nat) := l ++ List.replicate (32 - l.length) 0
  if xs.any (fun x => !F32.isFinite x) then ⟨0xFF, List.replicate 32 0, xs.length, 0⟩
  else
    let amax : Nat := (xs.map (fun x : F32 => x.toNat % 2 ^ 31)).foldl Nat.max 0
    let s := if amax = 0 then 0 else min 254 (amax / 2 ^ 23 - 2)
    let conv := (xs.zip (List.range xs.length)).map (fun (x, i) =>
      match F32.num x with
      | .fin n m e =>
        let mag := Fmt.roundMag .fp4b (rs i) m (e - ((s : Int) - 127))
        if mag > 7 then (Fmt.withSign .fp4b n 7, true) else (Fmt.withSign .fp4b n mag, false)
      | _ => (0, false))
    ⟨s, pad (conv.map (·.1)), 0, (conv.filter (·.2)).length⟩

/-- The value of a stored element as FP32, exactly where FP32 holds it (spec 02, R58, R62; spec 08, R251). -/
def widen (f : Fmt) (c : Nat) : F32 := F32.ofNum (f.decode c)

/-- The value q - zero_point of an integer element (spec 02, R62). -/
def intValue (w : FmtWord) (c : Nat) : Int :=
  (if w.fmt = .int8 then signed 8 c else ((c % 256 : Nat) : Int)) - w.zp

/-- Scale value 2^(s - 127) applied to an E2M1 code: an exact value; NaN for scale 0xFF (spec 02, R61). -/
def fp4Value (scale code : Nat) : Num :=
  if scale = 0xFF then .nan
  else match Fmt.decode .fp4b code with
    | .fin n m e => .fin n m (e + (scale : Int) - 127)
    | v => v

end Sys2Proof
end

