-- ==== Sys2Proof/Machine/PlanTypes.lean ====
section
/-! DEFINITION. The records of a plan image (spec 03, R95 to R110; spec 04, R124; spec 05, R160, R170; spec 06, R175;
spec 07, R220; spec 08, R259; spec 09, R281, R299, R303; spec 10, R330, R341; spec 11, R353; spec 12, R384 to R400;
spec 13, R418, R428), as plain data. Parsing and validation stand in Machine/Image.lean and Machine/Validate*.lean. -/
namespace Sys2Proof.Machine

/-- Engines of a woodpile entry (spec 03, R102). -/
inductive Engine where
  | dense | nm | sparse | update
  deriving DecidableEq, Repr

/-- Round header (spec 03, R97). 0xFFFF and 0xFFFF_FFFF stand as they are in the image. -/
structure RoundHdr where
  roundNo : Nat
  stepEnd : Bool
  fabric : Bool
  barrierFlag : Bool
  stepGate : Bool
  budgetNs : Nat
  firstEntry : Nat
  itemCount : Nat
  firstGroup : Nat
  groupCount : Nat
  openBarrier : Nat
  settleSet : Nat
  slotTable : Nat
  streamCount : Nat
  firstStream : Nat
  firstRoute : Nat
  firstCollective : Nat
  updateRef : Nat
  testWindow : Nat
  deriving DecidableEq, Repr

/-- Woodpile entry (spec 03, R102). gang is the edge in tiles: 1, 2 or 4. -/
structure WpEntry where
  itemIndex : Nat
  engine : Engine
  gang : Nat
  affinity : Nat
  combineGroup : Nat
  kPart : Nat
  waitFlag : Nat
  waitValue : Nat
  doneFlag : Nat
  estNs : Nat
  itemRef : Nat
  deriving DecidableEq, Repr

/-- Combine group (spec 03, R108). -/
structure Combine where
  destAddr : Nat
  partBase : Nat
  partStride : Nat
  tensorId : Nat
  firstIndex : Nat
  destRowPitch : Nat
  logicalRowLen : Nat
  rows : Nat
  cols : Nat
  outFmt : Nat
  parts : Nat
  acc : Bool
  deriving DecidableEq, Repr

/-- Barrier entry (spec 03, R110). -/
structure Barrier where
  domain : Bool
  memberSet : Nat
  timeoutUs : Nat
  deriving DecidableEq, Repr

/-- Persistence classes (spec 04, R119). -/
inductive PClass where
  | scratch | working | state | version | bank | snapshot
  deriving DecidableEq, Repr

/-- Spaces of an allocation record (spec 05, R160). -/
inductive Space where
  | hbmWide | hbmNear | pool | host
  deriving DecidableEq, Repr

/-- Allocation record (spec 05, R160); fmt is the format word as a number. -/
structure Alloc where
  pclass : PClass
  space : Space
  rank : Nat
  tensorId : Nat
  base : Nat
  fmt : Nat
  scale : F32
  invScale : F32
  padBits : Nat
  extent : List Nat
  stride : List Nat
  scaleBase : Nat
  scalePitch : Nat
  deriving DecidableEq, Repr

/-- One level of a tiling record (spec 05, R170). -/
structure TileLevel where
  tileM : Nat
  tileN : Nat
  tileK : Nat
  order : Nat
  staged : Bool
  deriving DecidableEq, Repr

/-- Tiling record (spec 05, R170). -/
structure Tiling where
  gang : Nat
  tilingId : Nat
  tensorA : Nat
  tensorB : Nat
  tensorC : Nat
  m : Nat
  n : Nat
  k : Nat
  levels : List TileLevel
  deriving DecidableEq, Repr

/-- A record of TENSORS. -/
inductive TensorRec where
  | alloc (a : Alloc)
  | tiling (t : Tiling)
  deriving DecidableEq, Repr

/-- Stream kinds (spec 06, R176). -/
inductive StreamKind where
  | copy | gather | scatter | scatterAdd | scatterMax | index
  deriving DecidableEq, Repr

/-- Stream descriptor (spec 06, R175). Strides are signed and in elements; esize is in half bytes: 1, 2, 4 or 8. -/
structure StreamDesc where
  streamId : Nat
  kind : StreamKind
  homeCore : Nat
  remote : Bool
  unitDim : Nat
  ringUnits : Nat
  esize : Nat
  srcBase : Nat
  dstBase : Nat
  srcRec : Nat
  dstRec : Nat
  waitValue : Nat
  extent : List Nat
  srcStride : List Int
  dstStride : List Int
  indexLimit : Nat
  indexStream : Nat
  doneFlag : Nat
  creditFlag : Nat
  dstPosition : Nat
  deriving DecidableEq, Repr

/-- Settle set (spec 04, R124, R125). -/
structure SettleSet where
  domain : Bool
  gateFinite : Bool
  gateDigest : Bool
  timeoutUs : Nat
  stageBytes : Nat
  finiteCollective : Nat
  members : List Nat
  deriving DecidableEq, Repr

/-- Window and signal entries of a slot table (spec 10, R331, R332). -/
structure SlotWindow where
  role : Nat
  kind : Nat
  ref : Nat
  startNs : Nat
  lengthNs : Nat
  deriving DecidableEq, Repr

structure SlotSignal where
  kind : Nat
  member : Nat
  ref : Nat
  flag : Nat
  deriving DecidableEq, Repr

/-- A record of SLOT_TABLES (spec 10, R330). -/
inductive SlotRec where
  | table (guardNs : Nat) (windows : List SlotWindow) (signals : List SlotSignal)
  | members (list : List Nat)
  deriving DecidableEq, Repr

/-- An alternate of a detour record (spec 10, R341). -/
structure DetourAlt where
  firstRole : Nat
  share : Nat
  via : Nat
  addedNs : Nat
  deriving DecidableEq, Repr

/-- Detour record (spec 10, R341). -/
structure Detour where
  role : Nat
  alts : List DetourAlt
  deriving DecidableEq, Repr

/-- Route modes and weight modes (spec 09, R281, R282). -/
inductive RouteMode where
  | hash | topk | reuse
  deriving DecidableEq, Repr

inductive WeightMode where
  | unit | score | norm
  deriving DecidableEq, Repr

/-- Route descriptor (spec 09, R281, R282). -/
structure RouteDesc where
  mode : RouteMode
  last : Bool
  scaleDispatch : Bool
  weightedCombine : Bool
  k : Nat
  weightMode : WeightMode
  h : Nat
  tokens : Nat
  countAddr : Nat
  salt : Nat
  keyRec : Nat
  scoreRec : Nat
  tableRec : Nat
  maskRec : Nat
  inRec : Nat
  outRec : Nat
  retRec : Nat
  qhdrRec : Nat
  qvecRec : Nat
  qoutRec : Nat
  sourceRoute : Nat
  capacity : Nat
  firstBinding : Nat
  bindingCount : Nat
  dispatchFlag : Nat
  returnFlag : Nat
  outFlag : Nat
  combineFlag : Nat
  outValue : Nat
  timeoutUs : Nat
  startFlag : Nat
  startValue : Nat
  group : List Nat
  deriving DecidableEq, Repr

/-- An entry of a binding record (spec 09, R299). -/
structure BindEntry where
  firstItem : Nat
  itemCount : Nat
  expert : Nat
  dimK : Bool
  deriving DecidableEq, Repr

/-- Mask patterns (spec 09, R303). -/
inductive MaskPattern where
  | causal | window | document | documentCausal
  deriving DecidableEq, Repr

/-- Mask generator record (spec 09, R303). -/
structure MaskGen where
  pattern : MaskPattern
  last : Bool
  vfmt : Nat
  row0 : Nat
  rowCount : Nat
  qOffset : Nat
  col0 : Nat
  colCount : Nat
  windowLeft : Nat
  windowRight : Nat
  segRec : Nat
  outRec : Nat
  doneFlag : Nat
  rowSlot : Nat
  deriving DecidableEq, Repr

/-- A record of ROUTES (spec 09, R278). -/
inductive RouteRec where
  | route (r : RouteDesc)
  | binding (route : Nat) (entries : List BindEntry)
  | mask (m : MaskGen)
  deriving DecidableEq, Repr

/-- Collective operations (spec 11, R355). -/
inductive CollOp where
  | reduceScatter | allReduce | allGather | normFinite | tieSum | ortho | seed
  deriving DecidableEq, Repr

/-- Collective descriptor (spec 11, R353, R354). -/
structure Coll where
  op : CollOp
  last : Bool
  subLast : Bool
  uses : Nat
  memberSet : Nat
  a : Nat
  b : Nat
  c : Nat
  startFlag : Nat
  startValue : Nat
  shardElems : Nat
  srcRec : Nat
  dstRec : Nat
  stageRec : Nat
  doneFlag : Nat
  timeoutUs : Nat
  emptyRoute : Nat
  emptyExpert : Nat
  normFirst : Nat
  normCount : Nat
  deriving DecidableEq, Repr

/-- Update rules (spec 12, R385). -/
inductive Rule where
  | sgdm | adamw | signm | factored
  deriving DecidableEq, Repr

/-- Update descriptor (spec 12, R385). -/
structure UpdDesc where
  rule : Rule
  last : Bool
  nesterov : Bool
  group : Nat
  versionSet : Nat
  masterRec : Nat
  gradRec : Nat
  state1Rec : Nat
  state2Rec : Nat
  gatherRec : Nat
  fullRec : Nat
  ctrRec : Nat
  shardElems : Nat
  ruleShards : Nat
  refreshShards : Nat
  elems : Nat
  rowLen : Nat
  deriving DecidableEq, Repr

/-- Group record (spec 12, R388). -/
structure GroupRec where
  groupId : Nat
  lrMult : F32
  weightDecay : F32
  beta1 : F32
  beta2 : F32
  eps : F32
  deriving DecidableEq, Repr

/-- Version set record (spec 12, R399). -/
structure VersionSet where
  slotCount : Nat
  slotRec : Nat
  srTensorId : Nat
  waitUs : Nat
  deriving DecidableEq, Repr

/-- Actions of a version binding (spec 12, R400). -/
inductive PinAction where
  | pin | use | release
  deriving DecidableEq, Repr

structure VerBind where
  set : Nat
  handle : Nat
  action : PinAction
  pin : Nat
  deriving DecidableEq, Repr

/-- A record of UPDATES (spec 12, R384). -/
inductive UpdRec where
  | update (u : UpdDesc)
  | group (g : GroupRec)
  | vset (v : VersionSet)
  | bind (last : Bool) (entries : List VerBind)
  deriving DecidableEq, Repr

/-- A record of TEST_WINDOWS (spec 13, R418, R428). -/
inductive TestRec where
  | window (last : Bool) (kinds startNs lengthNs cores : Nat)
  | digest (last : Bool) (collective updateIndex : Nat)
  deriving DecidableEq, Repr

/-- A plan: the header's values (spec 03, R95) and the records of its sections (R96). Work items stand as their 64
bytes: the entry's engine says which item they are (spec 07, R220; spec 08, R259, R262). -/
structure Plan where
  planId : Nat
  seed : Dword
  opPoint : Nat
  bodyStart : Nat
  itilakar : Nat
  imageSize : Nat
  rounds : List RoundHdr
  woodpile : List WpEntry
  combines : List Combine
  barriers : List Barrier
  items : List Bytes
  tensors : List TensorRec
  streams : List StreamDesc
  sets : List SettleSet
  slots : List SlotRec
  detours : List Detour
  routes : List RouteRec
  colls : List Coll
  updates : List UpdRec
  tests : List TestRec
  deriving DecidableEq, Repr

end Sys2Proof.Machine
end

