-- ==== Sys2Proof/Machine/State.lean ====
section
/-! DEFINITION. The state of the LD9 as plain data, the reasons a step can stop, and the state after reset. The state
is the queue of waiting commands, the host's side (rings, attention, host memory written), and the module. -/
namespace Sys2Proof.Machine

/-- Why a step stops with a fault. -/
inductive Fault where
  /-- Raised by HBM_PATROL for an address outside HBM and by HBM_POISON_READ for an address outside HBM and the core
  pools: the spec's address map (05, R141) has no codeword there. Safe: the model stops where the spec gives nothing. -/
  | unmappedAccess
  deriving DecidableEq, Repr

/-- Why a step refuses a command. -/
inductive Refusal where
  /-- Raised by an arm of exec that has no meaning yet. Safe: the model stops. -/
  | notModelled (mnemonic : String)
  deriving DecidableEq, Repr

/-! ### The host's side (spec 15) -/

/-- A completion that a port is still owed (spec 15, R476): the command's tag and opcode. -/
structure Owed where
  tag : Word
  opcode : Nat
  deriving DecidableEq, Repr

/-- The register block of a port (spec 15, R464 to R467), its attention byte (R478) and what it is owed (R469). -/
structure Port where
  cmdBase : Dword
  replyBase : Dword
  enable : Bool
  running : Bool
  error : Bool
  /-- The producer serial that CMD_DOORBELL last gave. -/
  producer : Word
  /-- CMD_CONSUMED. -/
  consumed : Word
  /-- REPLY_CONSUMED. -/
  replyConsumed : Word
  /-- REPLY_PRODUCED. -/
  replyProduced : Word
  attn : Byte
  owed : List Owed
  deriving DecidableEq, Repr

def Port.reset : Port := ⟨0, 0, false, false, false, 0, 0, 0, 0, 0, []⟩

/-- Both ports, and the bytes of host memory that the module has written: key port · 2^64 + bus address
(assumption log 2). -/
structure HostIo where
  p0 : Port
  p1 : Port
  mem : List Host.Cell
  deriving DecidableEq, Repr

/-- A reply to write (spec 15, R475). -/
structure Reply where
  port : Nat
  tag : Word
  opcode : Nat
  cls : Nat
  detail : Nat
  result : Bytes
  deriving DecidableEq, Repr

/-- A write to host memory: port, bus address, bytes. -/
structure HostWrite where
  port : Nat
  bus : Nat
  data : Bytes
  deriving DecidableEq, Repr

/-- What a step of the module hands to the host's side: it is empty between steps. -/
structure Outbox where
  /-- Attention bits to set in both copies. -/
  attn : Byte
  /-- Attention bits to set in one copy. -/
  attnPort : List (Nat × Byte)
  /-- Attention bits that ATTN_ACK clears in one copy. -/
  attnAck : List (Nat × Byte)
  host : List HostWrite
  completions : List Reply
  /-- Ports whose rings stop (spec 15, R465). -/
  ringsOff : List Nat
  /-- Ports whose attention byte is cleared (spec 15, R463). -/
  attnClear : List Nat
  /-- The port registers take their reset values (spec 16, R496). -/
  portsReset : Bool
  deriving DecidableEq, Repr

def Outbox.empty : Outbox := ⟨0, [], [], [], [], [], [], false⟩

/-! ### Module control -/

/-- Module states (spec 16, R493). -/
inductive ModState where
  | off | standby | kindling | ready | running | halted | tripped | expelled
  deriving DecidableEq, Repr

/-- A command that answered ACCEPTED and still owes its completion: port and tag. -/
structure Ticket where
  port : Nat
  tag : Word
  deriving DecidableEq, Repr

/-- Why the hearth controller is down: a lockstep mismatch (spec 15, R471), FW_ACTIVATE (spec 17, R518) or MODULE_RESET
(spec 16, R496). -/
inductive Restart where
  | lockstep | activate | reset
  deriving DecidableEq, Repr

/-- Module control: state, ownership, the hearth controller, time. -/
structure Ctl where
  state : ModState
  owner : Option Nat
  lapsed : Bool
  ownerIdleMs : Nat
  /-- None while the hearth controller runs; otherwise why it is down. -/
  restart : Option Restart
  beat : Word
  restarts : Nat
  refLost : Bool
  powerOnMs : Nat
  bootCount : Nat
  generation : Word
  /-- Neither firmware slot passed at the last power-up (spec 17, R516). -/
  noFirmware : Bool
  deriving DecidableEq, Repr

/-- The I3C sideband (spec 18, R552, R553), the bench port (R551) and the test port (spec 17, R523). -/
structure Side where
  dynAddr : Option Nat
  reply : Bytes
  serial : Word
  buffer : Bytes
  offset : Nat
  /-- What the I3C target last put on the bus. -/
  i3cOut : Bytes
  /-- What the bench port last shifted out. -/
  benchOut : Bytes
  /-- The last answer in a DOE mailbox. -/
  doeOut : Bytes
  /-- Which draw of the free values the challenge is (spec 17, R523). -/
  challenge : Nat
  /-- Unlocked debug scopes, bits as in spec 17, R522. -/
  scopes : Nat
  deriving DecidableEq, Repr

/-- The PCIe link of a port: power state (spec 16, R503), IDE (spec 17, R526). -/
structure Link where
  on : Bool
  session : Option Nat
  progKey : Option Nat
  activeKey : Option Nat
  deriving DecidableEq, Repr

/-! ### Regions, counters, records -/

/-- State of a region (spec 06, R194). -/
inductive RegState where
  | free | active | revoking
  deriving DecidableEq, Repr

/-- A region table entry (spec 06, R194); held_streams is counted from the contexts. -/
structure Region where
  state : RegState
  port : Nat
  read : Bool
  write : Bool
  gen : Word
  base : Nat
  size : Nat
  drained : Word
  ticket : Option Ticket
  deriving DecidableEq, Repr

def Region.free : Region := ⟨.free, 0, false, false, 0, 0, 0, 0, none⟩

/-- A counter (spec 15, R488). -/
structure Counter where
  value : Nat
  sat : Bool
  deriving DecidableEq, Repr

/-- A fault record (spec 13, R409), field by field; `time` is the power-on time in ms at which it was written and
`returned` says whether a FAULT_LOG_READ has returned it (R411). -/
structure FaultRec where
  serial : Word
  cls : Nat
  attn : Byte
  attempt : Nat
  scope : Nat
  detail : Nat
  roundSerial : Word
  fabricTime : Nat
  planIdLo : Nat
  count : Nat
  interruption : Nat
  payload : Bytes
  time : Nat
  returned : Bool
  deriving DecidableEq, Repr

/-- The fault ring (spec 13, R411): oldest first, at most 4,096; the serial that the next record takes. -/
structure FaultLog where
  recs : List FaultRec
  next : Word
  /-- A record has been written since cold start. -/
  written : Bool
  deriving DecidableEq, Repr

/-- The ash record (spec 18, R544 to R550): entries by slot, the next ash_seq, how many are held, torn entries found
at boot, the bench flag, the time of each port's last ASH_NOTE. -/
structure Ash where
  slots : SMap Bytes
  next : Word
  held : Nat
  wrapped : Bool
  torn : Nat
  bench : Bool
  note0 : Option Nat
  note1 : Option Nat
  deriving DecidableEq, Repr

/-! ### Units -/

/-- A unit, a cluster or a core by its unit address word (spec 01, R33, R37; spec 13, R413 to R427). -/
structure UnitRec where
  clinker : Bool
  /-- Pending clinker (R37): fenced, or retired on its third strike. -/
  pending : Bool
  /-- Retired on its third strike: a running item may finish (R414). -/
  retiring : Bool
  disabled : Bool
  /-- Draining under UNIT_DISABLE, with the command that waits. -/
  draining : Option Ticket
  /-- Returns at the next PLAN_START (R415). -/
  enabling : Bool
  /-- UNIT_ENABLE's pattern run in progress. -/
  testing : Option Ticket
  /-- Times of unexpired strikes, in power-on seconds. -/
  strikes : List Nat
  steer : Nat
  pendSteer : Option Nat
  deriving DecidableEq, Repr

def UnitRec.healthy : UnitRec := ⟨false, false, false, false, none, false, none, [], 0x3F, none⟩

/-- A test target's record (spec 13, R420, R422, R427). -/
structure TestRow where
  result : Nat
  last : Nat
  dueSeen : Bool
  overdueSeen : Bool
  deriving DecidableEq, Repr

def TestRow.never : TestRow := ⟨0, 0, false, false⟩

/-- The spare map (spec 01, R28, R35, R36): records by unit word; clusters in service per core; the tile at each grid
position per core · 32 + cluster; bundles whose seventh link is in use, or waits for the next PLAN_START. -/
structure Units where
  recs : SMap UnitRec
  clusters : SMap (List Nat)
  grid : SMap (List Nat)
  /-- Bundles with one failed link that waits for R36. -/
  linkPending : List Nat
  /-- Bundles whose seventh link is in use. -/
  linkUsed : List Nat
  deriving DecidableEq, Repr

/-! ### Power -/

/-- Power states of a core (spec 16, R503). -/
inductive CorePs where
  | off | gated | idle | run
  deriving DecidableEq, Repr

/-- A core's power and personality (spec 16, R503 to R508; spec 01, R53; spec 03, R94). -/
structure CoreRec where
  ps : CorePs
  op : Nat
  kindling : Bool
  /-- KINDLING_ENTER waits for the next round open. -/
  kindleWait : Option Ticket
  /-- KINDLING_ENTER has taken effect; its completion is owed. -/
  kindleDone : Option Ticket
  /-- Withdrawn by a fault (spec 01, R40). -/
  faulted : Bool
  /-- The sequencer failed built-in test (spec 16, R498). -/
  seqFailed : Bool
  /-- A power-state change is being applied (spec 16, R505). -/
  changing : Bool
  deriving DecidableEq, Repr

/-- A stack (spec 16, R503, R498). -/
structure StackRec where
  /-- 0 OFF, 1 SELF_REFRESH, 2 ON. -/
  ps : Nat
  attempts : Nat
  deriving DecidableEq, Repr

/-- A pending PSTATE_SET (spec 16, R503); `applied` once a core change is being applied. -/
structure Change where
  kind : Nat
  index : Nat
  state : Nat
  op : Nat
  ticket : Ticket
  applied : Bool
  deriving DecidableEq, Repr

/-- A DIAG_RUN in progress (spec 16, R501). -/
structure Diag where
  core : Nat
  diag : Nat
  unit : Nat
  ticket : Ticket
  bufRegion : Nat
  bufOffset : Nat
  aborted : List Nat
  deriving DecidableEq, Repr

/-- A cold start in progress (spec 16, R497): the command, and how many stages are done. -/
structure Cold where
  ticket : Ticket
  stage : Nat
  deriving DecidableEq, Repr

/-- Rails and regulator groups (spec 18, R543; spec 01, R41): states as RAIL_STATUS codes them. -/
structure Group where
  mask : Nat
  state : Nat
  deriving DecidableEq, Repr

/-- What the guard logic senses and holds (spec 18, R530 to R543). Voltages in 10 mV, currents in 10 mA, temperatures
in 0.1 °C. -/
structure Guard where
  swA : Bool
  swB : Bool
  /-- The standby supply is up. -/
  standby : Bool
  lockout : Bool
  selfTestOk : Bool
  present : Bool
  coolOk : Bool
  /-- Times of TRIP_CURRENT, in power-on ms. -/
  currentTrips : List Nat
  lastTrip : Nat
  causes : List Trip
  vin : Nat
  iin : Nat
  iinPeak : Nat
  pin : Nat
  dieTemps : SMap Int
  stackTemps : SMap Int
  coolantIn : Int
  coolantOut : Int
  deriving DecidableEq, Repr

structure Power where
  cores : SMap CoreRec
  hbmStacks : SMap StackRec
  changes : List Change
  cold : Option Cold
  diags : List Diag
  rails : SMap Nat
  groups : SMap Group
  guard : Guard
  deriving DecidableEq, Repr

def CoreRec.off : CoreRec := ⟨.off, 0, false, none, none, false, false, false⟩
def StackRec.off : StackRec := ⟨0, 0⟩
def Group.whole : Group := ⟨0x3F, 0⟩

/-! ### Memory -/

/-- Memory: bytes of HBM, pools and tile memory in canonical form (assumption log 5), poisoned codewords, corrections
of the hour by pseudo-channel, the partition (spec 05, R141 to R155). -/
structure Hbm where
  mem : List Host.Cell
  /-- Addresses of poisoned 64-byte codewords, with their bad symbols. -/
  poison : SMap (List Nat)
  /-- Corrections by pseudo-channel in the current hour, and the hour. -/
  fixes : SMap Nat
  hour : Nat
  /-- Pseudo-channels already reported in this hour. -/
  reported : List Nat
  /-- Poison met: (power-on ms, pseudo-channel), for the whole-stack rule of R154. -/
  poisonSeen : List (Nat × Nat)
  w : Nat
  planGib : Nat
  settleGib : Nat
  bankGib : Nat
  repart : Option Ticket
  deriving DecidableEq, Repr

/-! ### Plan and round -/

/-- Plan states (spec 03, R90). -/
inductive PlanSt where
  | none | loading | loaded | running | halted | failed
  deriving DecidableEq, Repr

/-- Plan control (spec 03, R90 to R94, R113). -/
structure PlanCtl where
  st : PlanSt
  haltKind : Nat
  failCheck : Nat
  failSection : Nat
  failSub : Nat
  failOffset : Nat
  measurement : Bytes
  plan : Option Plan
  /-- A PLAN_LOAD in progress (spec 03, R93). -/
  loading : Option Ticket
  /-- The 64-byte header of the image that is loading, held or failed (spec 03, R93, R113). -/
  header : Bytes
  opened : Word
  settled : Word
  stepSerial : Word
  worstRun : Nat
  worstRound : Nat
  /-- The open round, the round whose open waits, or the resume round. -/
  round : Nat
  /-- PLAN_HALT commands that wait for HALTED, in order. -/
  halts : List Ticket
  unload : Option Ticket
  /-- A halt discarded an attempt since the plan was loaded (spec 06, R205). -/
  discarded : Bool
  /-- The round whose open waits has run before and was discarded (R135): it opens without a gate, at the implicit
  barrier, and keeps its serial. -/
  reopen : Bool
  /-- Indices of the WORKING records that each round writes through the deferred path (spec 04, R121). -/
  deferred : List (List Nat)
  /-- count_x of each local expert (spec 09, R289) as each route's last settled round left them, for the contributions
  that a later round may find empty (spec 11, R364). -/
  routeCounts : SMap (List Nat)
  deriving DecidableEq, Repr

/-- Where the round stands (spec 03, R98 to R100; spec 04, R129 to R136). -/
inductive Phase where
  /-- No round is open or opening. -/
  | none
  /-- The open of the round waits (R92). -/
  | waiting
  /-- Armed; waits at its barrier (R110). -/
  | barrier
  /-- Waits at the implicit barrier of R135. -/
  | implicit
  | run
  /-- Run ended; the last checks; the token is not sent. -/
  | ended
  /-- Token sent; tokens missing. -/
  | settling
  /-- All tokens held; the DIGEST gate is not resolved. -/
  | digest
  /-- The commit runs. -/
  | commit
  /-- Doused; DOUSE_READY missing. -/
  | doused
  /-- All ready; the replay's round start is fixed. -/
  | replay
  deriving DecidableEq, Repr

/-- Claim state of a woodpile entry (spec 03, R100, R103, R104; spec 07, R235). A claimed entry starts at once on a free
resource (assumption log 14). -/
inductive EntSt where
  /-- Unclaimed. -/
  | free
  | running
  /-- Its run ended; verdicts are open. -/
  | checking
  /-- A comparison failed; the re-execution is not placed. -/
  | awaiting
  /-- The re-execution runs. -/
  | rerun
  /-- The re-execution ended; its verdicts are open. -/
  | recheck
  /-- A SEGMENT item whose checks passed; its increment of done_count is to come (spec 08, R267). -/
  | passed
  | done
  deriving DecidableEq, Repr

/-- A failed comparison (spec 07, R235, R236): its place, and whether it was a two-copy check. -/
structure Failure where
  copies : Bool
  place : CheckPlace
  deriving DecidableEq, Repr

/-- A woodpile entry in the open round: its state, the core that claimed it, the units it runs on (grid order), the
trimmed row or k count of a bound entry (spec 09, R300), whether its done_flag has been incremented, the digest of its
first attempt (none while it has not ended), the comparisons that failed in it, the core and units of its re-execution, the
digest of that, and the fabric time at which the first of those comparisons failed (spec 13, R409). -/
structure Ent where
  st : EntSt
  core : Nat
  units : List Nat
  eff : Option Nat
  signalled : Bool
  digest : Option Dword
  failed : List Failure
  reCore : Nat
  reUnits : List Nat
  reDigest : Option Dword
  failedAt : Nat
  deriving DecidableEq, Repr

def Ent.free : Ent := ⟨.free, 0, [], none, false, none, [], 0, [], none, 0⟩

/-- A write held in the settle buffer (spec 04, R122): address, bytes; for host writes the stream's handle, its record
and the position (spec 06, R191, R202). -/
structure Staged where
  addr : Nat
  data : Bytes
  handle : Nat
  stream : Nat
  pos : Nat
  deriving DecidableEq, Repr

/-- A data condition of the attempt (spec 04, R138; spec 13, R410). -/
structure Cond where
  detail : Nat
  index : Nat
  unit : Nat
  elems : Nat
  row : Nat
  first : Nat
  deriving DecidableEq, Repr

/-- A condition that the attempt has met, and the fabric time of its detection (spec 13, R409). -/
structure Noted where
  cond : Cond
  time : Nat
  deriving DecidableEq, Repr

/-- How a plan stream of the round stands (spec 06, R186 to R192). -/
inductive StrSt where
  /-- Pending generation: an earlier drain still runs. -/
  | held0
  | armed
  | active
  | held
  | done
  deriving DecidableEq, Repr

/-- A plan stream in the open round: state, handle (none on the flue and once its context is free), units begun and
visible, the position from which a host read goes on, the resume index at which it was retired (R200), the indices that
an INDEX stream has read from the host (R182). -/
structure StrRun where
  st : StrSt
  handle : Option Nat
  begun : Nat
  seen : Nat
  pos : Nat
  cut : Option Nat
  idx : List Nat
  deriving DecidableEq, Repr

/-- What a context holds (spec 06, R174). -/
inductive CtxUse where
  | plan | drain | command | snapshot
  deriving DecidableEq, Repr

inductive CtxSt where
  | idle | active | held
  deriving DecidableEq, Repr

/-- A generation of a command stream that waits (spec 06, R206). -/
structure Gen where
  src : Nat
  dst : Nat
  ticket : Ticket
  deriving DecidableEq, Repr

/-- A stream context in use (spec 06, R174, R197 to R206), by its handle core · 512 + context. -/
structure Ctx where
  use : CtxUse
  st : CtxSt
  /-- The record index; 0xFFFF_FFFF for a command stream. -/
  stream : Nat
  /-- The port that created a command stream. -/
  port : Nat
  desc : StreamDesc
  cause : Nat
  resume : Nat
  /-- The region and direction of the failed access. -/
  region : Nat
  reading : Bool
  ticket : Option Ticket
  pend : Option Gen
  /-- A drain: the round serial and the writes that are left. -/
  serial : Word
  writes : List Staged
  deriving DecidableEq, Repr

/-- A pin register (spec 12, R401): the set and the slot. -/
structure Pin where
  set : Nat
  slot : Nat
  deriving DecidableEq, Repr

/-- Phases of a route at this module as a source (spec 09, R280). -/
inductive RouteSt where
  | idle | counting | dispatching | returning | combining | done
  deriving DecidableEq, Repr

/-- A route of the open round (spec 09): as a source, its phase, the token count n, the choices of each token (expert
and weight; none for a token at or above n), the grants received by home rank, the homes whose dispatch is visible; as
a home, the requests received by source rank, count_x of each local expert once every frame is here, whether RETURN
has started, the sources whose return is visible. -/
structure RouteRun where
  st : RouteSt
  n : Nat
  choices : List (List (Nat × F32))
  grants : SMap (List (Nat × Nat))
  sent : List Nat
  requests : SMap (List Nat)
  counts : List Nat
  ret : Bool
  returned : List Nat
  /-- A wait is past its timeout (R306). -/
  late : Bool
  deriving DecidableEq, Repr

def RouteRun.idle : RouteRun := ⟨.idle, 0, [], [], [], [], [], false, [], false⟩

/-- A contribution in a reduction node (spec 11, R361, R364, R369). -/
structure Contribution where
  values : List F32
  count : Nat
  empty : Bool
  deriving DecidableEq, Repr

/-- A collective of the open round (spec 11): started, visible, the contributions held, keyed stage · 2^24 + chunk ·
2^8 + slot, the chunks summed (stage · 2^16 + chunk), the chunks of a gathered destination that are present, the gather
stages sent, whether the stage-0 contribution is empty, whether a wait is past its timeout. -/
structure CollRun where
  started : Bool
  done : Bool
  got : SMap (Option Contribution)
  summed : List Nat
  here : List Nat
  sent : List Nat
  empty : Bool
  late : List Nat
  deriving DecidableEq, Repr

def CollRun.idle : CollRun := ⟨false, false, [], [], [], [], false, []⟩

/-- The open round (spec 03, R98 to R110; spec 04). -/
structure Run where
  phase : Phase
  attempt : Nat
  serial : Word
  /-- Fabric time of round start (R99). -/
  start : Nat
  runNs : Nat
  flags : SMap Nat
  /-- Who has incremented each remote flag. -/
  flagFrom : SMap (List Nat)
  ents : SMap Ent
  /-- Combine groups that have written their output. -/
  groups : List Nat
  /-- Combine groups whose first combine failed its two-copy check. -/
  combineFailed : List Nat
  streams : SMap StrRun
  routes : SMap RouteRun
  /-- Mask generators whose output is visible. -/
  masks : List Nat
  colls : SMap CollRun
  /-- The CRC of each rule shard's new weights, for the digest (spec 13, R429). -/
  shardCrc : SMap Dword
  staged : List Staged
  /-- Other members whose SETTLE_TOKEN is held; other members whose DOUSE or DOUSE_READY is held (R129, R134). -/
  tokens : List Nat
  readies : List Nat
  /-- Round-local counts, posted at settle; event counts, posted at settle and at douse (R140). -/
  counts : SMap Nat
  events : SMap Nat
  conds : List Noted
  /-- Marked for douse, with the cause of R133. -/
  mark : Option Nat
  /-- The settle wait is past its timeout (R136). -/
  settleOut : Bool
  /-- The barrier wait is past its timeout (R110). -/
  barrierOut : Bool
  /-- Streams retired in this round, with their resume index (R139). -/
  retired : List (Nat × Nat)
  /-- Poisoned codewords that an item met in this attempt (spec 05, R154). -/
  poisonHits : List Nat
  /-- Members whose barrier arrival is held; whether this module's own arrival went up; the release time once known
  (R110; spec 10, R338). -/
  arrivals : List Nat
  arrived : Bool
  release : Option Nat
  /-- Which waits of this open have been counted: 0 settle space, 1 streams, 2 time base, 3 version slot. -/
  waitsSeen : List Nat
  /-- A gate discarded the deferred writes (R132, R397). -/
  discarded : Bool
  /-- Version handles bound in this round: (set, handle) and slot (spec 12, R401); the target slot of an update
  (R403). -/
  binds : List ((Nat × Nat) × Nat)
  target : Option Pin
  /-- The bank's commit hold has been counted for this round (spec 14, R444). -/
  holdSeen : Bool
  deriving DecidableEq, Repr

def Run.idle : Run :=
  { phase := .none, attempt := 0, serial := 0, start := 0, runNs := 0, flags := [], flagFrom := [], ents := [], groups := [],
    combineFailed := [], streams := [], routes := [], masks := [], colls := [], shardCrc := [], staged := [], tokens := [], readies := [],
    counts := [], events := [], conds := [], mark := none, settleOut := false, barrierOut := false,
    retired := [], poisonHits := [], arrivals := [], arrived := false, release := none, waitsSeen := [],
    discarded := false, binds := [], target := none, holdSeen := false }


/-! ### Tests, firmware -/

/-- An installed pattern package (spec 13, R425, R426); newest last. -/
structure Pattern where
  id : Nat
  version : Nat
  kinds : Nat
  digest : Bytes
  deriving DecidableEq, Repr

/-- A test in progress in a test window (spec 13, R419): core whose slot it takes, target, STREAM context. -/
structure RunTest where
  core : Nat
  target : TestTarget
  ctx : Option Nat
  aborted : Bool
  deriving DecidableEq, Repr

/-- A forced window or margin test (spec 13, R423, R424): core, command, whether it has begun. -/
structure CoreTest where
  core : Nat
  ticket : Ticket
  begun : Bool
  aborted : Bool
  deriving DecidableEq, Repr

/-- Field tests, patterns, digest policy (spec 13). rows are keyed kind · 65,536 + address. -/
structure Tests where
  rows : SMap TestRow
  patterns : List Pattern
  install : Option (Ticket × Bytes)
  running : List RunTest
  forced : Option CoreTest
  margin : Option CoreTest
  interval : Nat
  intervalStaged : Option Nat
  deriving DecidableEq, Repr

/-- A firmware slot (spec 17, R514 to R516): whether its image passes step 1, and the first of the steps 2 to 4 that it
fails, 0 for none. -/
structure Slot where
  form : Bool
  fault : Nat
  security : Nat
  version : Nat
  measurement : Bytes
  /-- The root public key that the image carries (R513). -/
  key : Bytes
  deriving DecidableEq, Repr

/-- A quote that is being signed (spec 17, R524): the bytes 0x000 to 0x181 and its buffer. -/
structure Quote where
  ticket : Ticket
  region : Nat
  offset : Nat
  head : Bytes
  deriving DecidableEq, Repr

/-- Firmware, fuses, quotes (spec 17). `active` is 0 for slot A, 1 for slot B. -/
structure Fw where
  slotA : Slot
  slotB : Slot
  active : Nat
  staged : Bool
  fuses : Nat
  staging : Option Ticket
  quote : Option Quote
  quoteSerial : Nat
  deriving DecidableEq, Repr

/-! ### Fabric (spec 10) -/

/-- Channel states (spec 10, R349). -/
inductive ChanSt where
  | down | training | up | shadow | disabled
  deriving DecidableEq, Repr

/-- A channel (spec 10, R311 to R321, R349). -/
structure Chan where
  powered : Bool
  st : ChanSt
  /-- The role that a spare has taken (R315). -/
  taken : Option Nat
  /-- The failed lane, and whether the channel lost a second one. -/
  failedLane : Option Nat
  lanes : Nat
  /-- The in-service lane whose copy the spare lane receives (R317). -/
  copyLane : Nat
  fec : Nat
  replays : Nat
  laneSwitches : Nat
  downs : Nat
  /-- The ack_seq of the last NAK received, and of the last NAK sent (R319, R320). -/
  acked : Nat
  recvSeq : Nat
  /-- Replays in a row from the same first unacknowledged flit (R320). -/
  tries : Nat
  /-- CHANNEL_DISABLE with mode RESTORE waits for the next PLAN_START (R342). -/
  restore : Bool
  /-- It has retrained since. -/
  trained : Bool
  deriving DecidableEq, Repr

def Chan.off : Chan := ⟨false, .down, none, none, 9, 0, 0, 0, 0, 0, 0, 0, 0, false, false⟩

/-- Time base states (spec 10, R328). -/
inductive TimeSt where
  | free | acquiring | locked | holdover | unlocked
  deriving DecidableEq, Repr

/-- A message or packet that the module gave to the link layer (spec 10, R323, R336; spec 14, R445). -/
inductive Sent where
  | ember (dst kind : Nat) (msg : EmberMsg)
  | flag (dst : Nat) (msg : FlagMsg)
  | arrive (dst : Nat) (msg : BarrierMsg)
  | release (dst : Nat) (msg : BarrierMsg) (time : Nat)
  | report (dst : Nat) (rec : Suspect)
  | count (dst : Nat) (frame : Frame)
  | grant (dst : Nat) (frame : Frame)
  | data (dst : Nat) (ember : Bool) (addr : Nat) (bytes : Bytes)
  | sum (dst coll chunk slot : Nat) (values : List F32)
  | forward (role : Nat) (pkt : Packet)
  | time (channel : Nat)
  | nak (channel ackSeq : Nat)
  | replay (channel first : Nat)
  | hello (role q x : Nat)
  | bankOpen (header : Bytes)
  | bankData (dst area offset : Nat) (data : Bytes)
  | seal (area : Nat) (header : Bytes)
  | abort (area serial : Nat)
  | ack (dst : Nat) (status : AckStatus) (area step imageBytes : Nat)
  | pull (dst source owner step : Nat)
  deriving DecidableEq, Repr

/-- The fabric: channels, time base, configuration, fences, suspects, what the last command sent. -/
structure Fab where
  chans : SMap Chan
  timeState : TimeSt
  /-- Fabric time in ns. -/
  time : Nat
  /-- The latest θ in half nanoseconds, so that R327's division by two is exact. -/
  theta2 : Int
  /-- A parent has answered an exchange since the state was entered. -/
  answered : Bool
  /-- Exchanges in a row with |θ| at most 2 ns. -/
  good : Nat
  /-- An ACQUIRING module has made its single step. -/
  stepped : Bool
  onAlt : Bool
  configured : Bool
  timeParent : Nat
  timeAlt : Nat
  reportParent : Nat
  reportAlt : Nat
  holdUs : Nat
  /-- Data-class packets sent to, and visible or dropped from, each member in the attempt (R337). -/
  sentTo : SMap Nat
  seenFrom : SMap Nat
  /-- FLAG_INC messages that wait for their fence. -/
  flagWait : List FlagMsg
  /-- Ember packets held for the round that opens next (R322). -/
  early : List Packet
  /-- Suspect records held for merging (R346). -/
  suspects : List Suspect
  sentRecords : Nat
  out : List Sent
  deriving DecidableEq, Repr

def Fab.reset : Fab :=
  ⟨[], .free, 0, 0, false, 0, false, false, false, 0xFF, 0xFF, 0xFFFF, 0xFFFF, 20, [], [], [], [], [], 0, []⟩
/-! ### Training step (spec 12) -/

/-- A step admission (spec 12, R376), and what the step register holds (R377). -/
structure Admission where
  step : Word
  baseLr : F32
  clipNorm : F32
  deriving DecidableEq, Repr

/-- Group values (spec 12, R378): lr_mult, weight_decay. -/
structure GroupVals where
  lrMult : F32
  weightDecay : F32
  deriving DecidableEq, Repr

/-- An entry of the version table (spec 12, R402): current slot, version serial. -/
structure Version where
  slot : Nat
  serial : Word
  deriving DecidableEq, Repr

/-- An export in progress (spec 12, R405, R406; spec 14, R456); its context has the same handle. A PARTNER export keeps its
image header as it stood at the start. -/
structure Export where
  handle : Nat
  set : Nat
  slot : Nat
  partner : Bool
  header : Bytes
  ticket : Ticket
  deriving DecidableEq, Repr

/-- The fields of STEP_STATUS from 0x04 to 0x1C that a step_end round sets (spec 12, R398). -/
structure LastStep where
  step : Word
  outcome : Nat
  word : Nat
  nonfinite : Nat
  norm : F32
  clip : F32
  baseLr : F32
  clipNorm : F32
  deriving DecidableEq, Repr

/-- Step control. `inStep` from a gated open to the settle of a step_end round; `skipped` once a gate of the step has
discarded an update (R397). -/
structure StepCtl where
  admissions : List Admission
  reg : Admission
  inStep : Bool
  skipped : Bool
  groups : SMap GroupVals
  stagedGroups : SMap GroupVals
  last : LastStep
  versions : SMap Version
  pins : SMap (Option Pin)
  exports : List Export
  deriving DecidableEq, Repr

def GroupVals.zero : GroupVals := ⟨0, 0⟩
def Version.zero : Version := ⟨0, 0⟩
def StepCtl.reset : StepCtl :=
  ⟨[], ⟨0, 0, 0⟩, false, false, [], [], ⟨0, 0, 0, 0, 0, 0, 0, 0⟩, [], [], []⟩

/-! ### Bank and relight (spec 14) -/

/-- A held slot or the snapshot area (spec 14, R438, R458): state 0 EMPTY, 1 FILLING, 2 SEALED, 3 ABORTED. -/
structure Held where
  owner : Nat
  st : Nat
  step : Word
  serial : Word
  imageBytes : Nat
  planId : Nat
  deriving DecidableEq, Repr

def Held.empty : Held := ⟨0, 0, 0, 0, 0, 0⟩

/-- Where the partner send of an image update stands (spec 14, R446): none, OPEN sent, DATA under way to an area, SEAL
sent. -/
inductive SendPh where
  | none
  | opened
  | sending (area : Nat)
  | sealed (area : Nat)
  deriving DecidableEq, Repr

/-- One of the module's own image updates (spec 14, R443, R444): step, serial, the partner send, the host pair of a
running copy, the image header with sealed 0 and its directory as they stood at the start, the directory entries
read. -/
structure OwnUpd where
  step : Word
  serial : Word
  send : SendPh
  host : Option Nat
  header : Bytes
  dir : Bytes
  /-- Image offset, base address, bytes of each entry; its set and slot for a VERSION entry. -/
  extents : List (Nat × Nat × Nat × Option Pin)
  read : List Nat
  deriving DecidableEq, Repr

/-- A RELIGHT in progress (spec 14, R450 to R452), with the image bytes and how many have come. -/
structure Relight where
  ticket : Ticket
  source : Nat
  step : Word
  owner : Nat
  holder : Nat
  r0 : Nat
  r1 : Nat
  image : Bytes
  got : Nat
  deriving DecidableEq, Repr

/-- A grant, or a transfer to the issuing port's region, under BANK_SERVE (spec 14, R455); `active` once a PULL runs
or the write to the host has begun. -/
structure Serve where
  ticket : Ticket
  owner : Nat
  step : Word
  target : Nat
  region : Nat
  offset : Nat
  active : Bool
  deriving DecidableEq, Repr

/-- The bank (spec 14, R442 to R458). `serves` holds the grants and transfers of BANK_SERVE, oldest first; `pulled` is the PULL being served that needs no grant: target, slot. -/
structure Bank where
  interval : Nat
  intervalStaged : Option Nat
  slots : Nat
  snapGib : Nat
  pairs : Nat
  p0a : Nat
  p0b : Nat
  p1a : Nat
  p1b : Nat
  held0 : Held
  held1 : Held
  snap : Held
  /-- The held slot with the latest SEALED image. -/
  latest : Option Nat
  partner : Nat
  partnerQ : Nat
  partnerX : Nat
  now : Option Nat
  upd : Option OwnUpd
  lastResult : Nat
  sentStep : Option Word
  hostStep0 : Option Word
  hostStep1 : Option Word
  serial : Word
  pins : List Pin
  relight : Option Relight
  relightFailed : Bool
  serves : List Serve
  pulled : Option (Nat × Nat)
  deriving DecidableEq, Repr

def Bank.reset : Bank :=
  ⟨0, none, 1, 0, 0, 0xFFFF, 0xFFFF, 0xFFFF, 0xFFFF, Held.empty, Held.empty, Held.empty, none, 0, 0, 0, none, none, 0,
    none, none, none, 0, [], none, false, [], none⟩


/-! ### The module -/

/-- The module: everything but the queue and the host's side. -/
structure Mod where
  ctl : Ctl
  side : Side
  link0 : Link
  link1 : Link
  regions : SMap Region
  cnt : SMap Counter
  log : FaultLog
  ash : Ash
  units : Units
  pwr : Power
  hbm : Hbm
  plan : PlanCtl
  run : Run
  ctxs : SMap (Option Ctx)
  /-- Contexts fenced until the next PLAN_START (spec 13, R421, R433). -/
  fenced : List Nat
  tests : Tests
  fw : Fw
  fab : Fab
  step : StepCtl
  bank : Bank
  /-- How many free values have been drawn (the model's own, assumption log 3). -/
  free : Nat
  out : Outbox
  deriving DecidableEq, Repr

/-- The state: the queue of waiting commands, first in first out; the host's side; the module. -/
structure State where
  pending : List Instr
  io : HostIo
  m : Mod
  deriving DecidableEq, Repr

/-- What a command's meaning answers. -/
abbrev Out : Type := Host.Outcome State Fault Refusal

/-! ### Reset -/

def Ctl.reset : Ctl := ⟨.standby, none, false, 0, none, 0, 0, false, 0, 1, 0, false⟩
def Side.reset : Side := ⟨none, [], 0, [], 0, [], [], [], 0, 0⟩
def Link.reset : Link := ⟨true, none, none, none⟩
def Guard.reset : Guard :=
  ⟨false, false, true, false, false, true, true, [], 0, [], 6000, 0, 0, 0, [], [], 0, 0⟩
def Power.reset : Power := ⟨[], [], [], none, [], [(16, 2)], [], Guard.reset⟩
def Hbm.reset : Hbm := ⟨[], [], [], 0, [], [], 64, 4, 16, 0, none⟩
def PlanCtl.reset : PlanCtl :=
  ⟨.none, 0, 0, 0, 0, 0, [], none, none, [], 0, 0, 0, 0, 0, 0, [], none, false, false, [], []⟩
def Tests.reset : Tests := ⟨[], [], none, [], none, none, 0, none⟩
/-- A slot that holds no image. -/
def Slot.blank : Slot := ⟨false, 2, 0, 0, [], []⟩
def Fw.reset : Fw :=
  ⟨⟨true, 0, Config.factorySecurity, Config.factoryVersion, Config.factoryMeasurement, Config.rootKey⟩, Slot.blank, 0, false,
    Config.factoryFuses, none, none, 0⟩

/-- The module right after MODULE_RESET (spec 16, R496): STANDBY, no owner, no regions, no plan, no streams, an empty
fault ring. Registers for which the spec gives no reset value hold the values of assumption log 1. -/
def Mod.reset : Mod :=
  { ctl := Ctl.reset, side := Side.reset, link0 := Link.reset, link1 := Link.reset, regions := [], cnt := [],
    log := ⟨[], 1, false⟩, ash := ⟨[], 0, 0, false, 0, false, none, none⟩, units := ⟨[], [], [], [], []⟩,
    pwr := Power.reset, hbm := Hbm.reset, plan := PlanCtl.reset, run := Run.idle, ctxs := [], fenced := [],
    tests := Tests.reset, fw := Fw.reset, fab := Fab.reset, step := StepCtl.reset, bank := Bank.reset, free := 0, out := Outbox.empty }

/-- The machine right after reset. -/
def State.reset : State := { pending := [], io := ⟨Port.reset, Port.reset, []⟩, m := Mod.reset }

end Sys2Proof.Machine
end

