-- ==== Sys2Proof/Machine/Ops.lean ====
section
/-! DEFINITION. Named operations on the module: free values, counters, attention, memory, the ash record (spec 18,
R544 to R549), fault records (spec 13, R409 to R411), module states (spec 16, R493, R494), completions (spec 15, R476). -/
namespace Sys2Proof.Machine

/-! ### Free values, counters, attention -/

/-- Draw a free value: its number, and the module that has drawn it (assumption log 3). -/
def Mod.draw (m : Mod) : Nat × Mod := (Config.freeNat m.free, { m with free := m.free + 1 })

/-- The limit of R488. -/
def cntMax : Nat := 2 ^ 64 - 1

/-- An event count, saturating with its sticky flag (spec 15, R488). -/
def Counter.add (c : Counter) (n : Nat) : Counter :=
  if c.value + n > cntMax then ⟨cntMax, true⟩ else ⟨c.value + n, c.sat⟩

def Counter.zero : Counter := ⟨0, false⟩

/-- The value of a counter. -/
def Mod.counter (m : Mod) (id : Nat) : Counter := SMap.get Counter.zero m.cnt id

/-- Count n events at once (spec 15, R488). -/
def Mod.count (m : Mod) (id n : Nat) : Mod :=
  { m with cnt := SMap.upd Counter.zero m.cnt id (fun c => c.add n) }

/-- Count an event in the round's local counts, which post at settle (spec 02, R82). -/
def Mod.tally (m : Mod) (id n : Nat) : Mod :=
  { m with run := { m.run with counts := SMap.upd 0 m.run.counts id (fun c => c + n) } }

/-- Count an event that posts both at settle and at douse (spec 04, R140; spec 03, R114). -/
def Mod.tallyEvent (m : Mod) (id n : Nat) : Mod :=
  { m with run := { m.run with events := SMap.upd 0 m.run.events id (fun c => c + n) } }

/-- Post a table of local counts, each sum at once (spec 15, R488). -/
def Mod.post (m : Mod) (t : SMap Nat) : Mod := t.foldl (fun m e => m.count e.1 e.2) m

/-- Set attention bits in both ports' copies (spec 15, R478). -/
def Mod.attention (m : Mod) (b : Byte) : Mod := { m with out := { m.out with attn := m.out.attn ||| b } }

/-- Set attention bits in one port's copy. -/
def Mod.attentionAt (m : Mod) (port : Nat) (b : Byte) : Mod :=
  { m with out := { m.out with attnPort := m.out.attnPort ++ [(port, b)] } }

/-! ### Memory -/

/-- One byte of memory (spec 05, R141). -/
def Mod.rd (m : Mod) (a : Nat) : Byte := SMap.get 0 m.hbm.mem a

/-- n bytes of memory from address a. -/
def Mod.rdBytes (m : Mod) (a n : Nat) : Bytes := (List.range n).map (fun i => m.rd (a + i))

/-- A little-endian number of n bytes in memory. -/
def Mod.rdNat (m : Mod) (a n : Nat) : Nat := leNat (m.rdBytes a n)

/-- The canonical form of a memory: addresses strictly rising, no listed byte equal to zero, which an unlisted address
reads as (assumption log 5). -/
abbrev Memory.wf (mem : List Host.Cell) : Bool := SMap.wf 0 mem

/-- Bytes written to a memory in canonical form, lowest address first. -/
def putBytes (mem : List Host.Cell) : Nat → Bytes → List Host.Cell
  | _, [] => mem
  | a, b :: bs => putBytes (SMap.put 0 mem a b) (a + 1) bs

/-- Write bytes to memory from address a; a codeword that is written whole is poisoned no longer (spec 05, R153). -/
def Mod.wr (m : Mod) (a : Nat) (bs : Bytes) : Mod :=
  { m with hbm := { m.hbm with
      mem := putBytes m.hbm.mem a bs,
      poison := SMap.keep m.hbm.poison (fun c => !(decide (a ≤ c) && decide (c + 64 ≤ a + bs.length))) } }

/-- End of HBM (spec 05, R141): 576 GiB. -/
def hbmEnd : Nat := 0x9000000000

/-- Base and size of a core pool (spec 05, R141). -/
def poolBase (core : Nat) : Nat := 0x100000000000 + core * 0x4000000
def poolSize : Nat := 0x3000000

/-- Write zero to every byte of HBM whose address does not satisfy `keep` (spec 05, R150). -/
def Mod.zeroHbm (m : Mod) (keep : Nat → Bool) : Mod :=
  { m with hbm := { m.hbm with
      mem := SMap.keep m.hbm.mem (fun a => decide (hbmEnd ≤ a) || keep a),
      poison := SMap.keep m.hbm.poison (fun a => decide (hbmEnd ≤ a) || keep a) } }

/-- The memory of a core that loses its rail: its pool and its tile and engine memory (spec 16, R504). -/
def coreMemory (core a : Nat) : Bool :=
  (poolBase core ≤ a && a < poolBase core + 0x4000000)
  || (0x200000000000 + core * 2 ^ 30 ≤ a && a < 0x200000000000 + (core + 1) * 2 ^ 30)

def Mod.dropCoreMemory (m : Mod) (core : Nat) : Mod :=
  { m with hbm := { m.hbm with
      mem := SMap.keep m.hbm.mem (fun a => !coreMemory core a),
      poison := SMap.keep m.hbm.poison (fun a => !coreMemory core a) } }

/-- All memory lost (spec 16, R495, R504). -/
def Mod.dropMemory (m : Mod) : Mod := { m with hbm := { m.hbm with mem := [], poison := [] } }

/-! ### Module state words -/

/-- module_state (spec 16, R493; 0 for OFF as R545 writes it). -/
def ModState.code : ModState → Nat
  | .off => 0 | .standby => 1 | .kindling => 2 | .ready => 3 | .running => 4 | .halted => 5 | .tripped => 6
  | .expelled => 7

/-- plan_state (spec 03, R90). -/
def PlanSt.code : PlanSt → Nat
  | .none => 0 | .loading => 1 | .loaded => 2 | .running => 3 | .halted => 4 | .failed => 5

/-- Power-on seconds (spec 13, R413). -/
def Mod.powerOnS (m : Mod) : Nat := m.ctl.powerOnMs / 1000

/-- Fabric time, zero while the time base is FREE (spec 13, R409). -/
def Mod.fabricTime (m : Mod) : Nat := if m.fab.timeState = .free then 0 else m.fab.time

/-- plan_id of the plan held. -/
def Mod.planId (m : Mod) : Nat := (m.plan.plan.map (·.planId)).getD 0

/-- A round is open (its attempt runs, settles, is doused or waits to replay). -/
def Phase.isOpen : Phase → Bool
  | .none => false | .waiting => false | .barrier => false | .implicit => false | _ => true

/-! ### The ash record -/

/-- Slots of the ash record (spec 18, R544). -/
def ashSlots : Nat := 1048576

/-- Sources of an ash entry (spec 18, R544). -/
inductive AshSrc where
  | guardLogic | hearth | bootRom | host (port : Nat)
  deriving DecidableEq, Repr

def AshSrc.code : AshSrc → Nat
  | .guardLogic => 0 | .hearth => 1 | .bootRom => 2 | .host p => 3 + p

/-- The 64 bytes of an entry (spec 18, R544). -/
def ashEntry (seq : Word) (kind source boot powerS : Nat) (body : Bytes) : Bytes :=
  let h := leBytes 4 seq.toNat ++ [BitVec.ofNat 8 kind, BitVec.ofNat 8 source] ++ leBytes 2 boot ++ leBytes 4 powerS
    ++ fitBytes 48 body
  h ++ leBytes 4 (crc32c h).toNat

/-- Append an entry (spec 18, R546): slot, ash_seq, counters; a write to slot 0 over an entry is a wrap. -/
def Mod.ashAppend (m : Mod) (kind : Nat) (src : AshSrc) (body : Bytes) : Mod :=
  let slot := m.ash.next.toNat % ashSlots
  let e := ashEntry m.ash.next kind src.code m.ctl.bootCount m.powerOnS body
  let full := decide (ashSlots ≤ m.ash.held)
  let m := { m with ash := { m.ash with
    slots := SMap.ins slot e m.ash.slots, next := m.ash.next + 1,
    held := if full then ashSlots else m.ash.held + 1, wrapped := m.ash.wrapped || full } }
  let m := m.count Cnt.ashWritten 1
  if full && slot == 0 then m.count Cnt.ashWrap 1 else m

/-- A STATE entry (spec 18, R545, R546). -/
def Mod.ashState (m : Mod) (fromSt toSt : ModState) (opcode detail : Nat) : Mod :=
  m.ashAppend 0x06 .hearth
    ([BitVec.ofNat 8 fromSt.code, BitVec.ofNat 8 toSt.code] ++ leBytes 2 opcode ++ leBytes 4 detail)

/-- Move to a module state, with its STATE entry unless the move is into OFF (spec 18, R546). -/
def Mod.moveTo (m : Mod) (st : ModState) (opcode detail : Nat) : Mod :=
  let was := m.ctl.state
  let m := { m with ctl := { m.ctl with state := st } }
  if st = .off then m else m.ashState was st opcode detail

/-- Running firmware: the active slot (spec 17, R516). -/
def Fw.running (f : Fw) : Slot := if f.active = 0 then f.slotA else f.slotB
def Fw.other (f : Fw) : Slot := if f.active = 0 then f.slotB else f.slotA

/-- A SECURITY entry (spec 18, R545) with the first 32 bytes of a measurement or hash. -/
def Mod.ashSecurity (m : Mod) (src : AshSrc) (detail version : Nat) (hash : Bytes) : Mod :=
  m.ashAppend 0x07 src (leBytes 4 detail ++ leBytes 4 version ++ [BitVec.ofNat 8 m.fw.active,
    BitVec.ofNat 8 m.fw.fuses] ++ zeros 2 ++ fitBytes 32 hash)

/-! ### Fault records -/

/-- A fault record as bytes (spec 13, R409). -/
def FaultRec.bytes (r : FaultRec) : Bytes :=
  let h := leBytes 4 r.serial.toNat ++ [BitVec.ofNat 8 r.cls, r.attn, BitVec.ofNat 8 r.attempt, BitVec.ofNat 8 r.scope]
    ++ leBytes 4 r.detail ++ leBytes 4 r.roundSerial.toNat ++ leBytes 8 r.fabricTime ++ leBytes 4 r.planIdLo
    ++ leBytes 2 r.count ++ leBytes 2 r.interruption ++ fitBytes 28 r.payload
  h ++ leBytes 4 (crc32c h).toNat

/-- The serial after one (spec 13, R409): wraps from 0xFFFF_FFFF to 1. -/
def nextSerial (w : Word) : Word := if w = 0xFFFFFFFF#32 then 1 else w + 1

/-- Whether a new event merges into a record (spec 13, R411). Record times are in ms, so "not older than 1 ms" is a
difference of at most 1 (assumption log 8). -/
def FaultRec.merges (r n : FaultRec) : Bool :=
  r.cls = n.cls && r.detail = n.detail && r.roundSerial = n.roundSerial
  && fitBytes 8 r.payload = fitBytes 8 n.payload && decide (n.time ≤ r.time + 1)

/-- The record after a merge (spec 13, R411). -/
def FaultRec.merge (r n : FaultRec) : FaultRec :=
  { r with count := min 0xFFFF (r.count + 1), attn := r.attn ||| n.attn,
           interruption := max r.interruption n.interruption, scope := max r.scope n.scope }

/-- The newest record that a new event merges into, replaced by the merge; none if there is none. -/
def mergeInto (n : FaultRec) : List FaultRec → Option (List FaultRec × Word)
  | [] => none
  | r :: rs =>
    match mergeInto n rs with
    | some (rs', s) => some (r :: rs', s)
    | none => if r.merges n then some (r.merge n :: rs, r.serial) else none

/-- Append a record's two ash entries (spec 18, R545, R546). -/
def Mod.ashFault (m : Mod) (r : FaultRec) : Mod :=
  (m.ashAppend 0x01 .hearth (r.bytes.take 0x30)).ashAppend 0x02 .hearth (r.bytes.drop 0x30)

/-- Put a record into the ring, or merge it (spec 13, R411), set its attention bits and append it to the ash record;
with the serial that the record has, or that it merged into. -/
def Mod.enterS (m : Mod) (n : FaultRec) : Mod × Word :=
  let m := m.attention n.attn
  match mergeInto n m.log.recs with
  | some (recs, s) => (({ m with log := { m.log with recs := recs } }).ashFault { n with serial := s }, s)
  | none =>
    let n := { n with serial := m.log.next }
    let lost := match m.log.recs with
      | r :: _ => decide (4096 ≤ m.log.recs.length) && !r.returned
      | [] => false
    let recs := if 4096 ≤ m.log.recs.length then m.log.recs.drop 1 else m.log.recs
    let m := { m with log := { recs := recs ++ [n], next := nextSerial m.log.next, written := true } }
    let m := if lost then m.count Cnt.faultLost 1 else m
    (m.ashFault n, n.serial)

def Mod.enter (m : Mod) (n : FaultRec) : Mod := (m.enterS n).1

/-- What a fault record says beside the fields that the module's state gives. -/
structure Report where
  cls : Nat
  attn : Byte
  detail : Nat
  scope : Nat := Scope.none
  payload : Bytes := []
  /-- The fabric time of detection, where it lies before the record's. -/
  since : Option Nat := none

/-- The record of a report as the state stands: round fields while a round is open (spec 13, R409). -/
def Mod.faultRec (m : Mod) (r : Report) (interruption : Nat) : FaultRec :=
  let inRound := m.run.phase.isOpen
  { serial := 0, cls := r.cls, attn := r.attn, attempt := if inRound then m.run.attempt else 0, scope := r.scope,
    detail := r.detail, roundSerial := if inRound then m.run.serial else 0,
    fabricTime := r.since.getD m.fabricTime,
    planIdLo := m.planId % 2 ^ 32, count := 1, interruption := interruption, payload := r.payload,
    time := m.ctl.powerOnMs, returned := false }

/-- Write a fault record with interruption 0 (spec 13, R409: STRIKE, STREAM, CONDITION, DIGEST and other records that
report no gap). -/
def Mod.report (m : Mod) (r : Report) : Mod := m.enter (m.faultRec r 0)

/-- Write the record of a fault itself, with its interruption in 0.1 µs: the gap that the module measures, which no
input gives, is a free value (assumption log 3). A fault of R433 whose interruption exceeds 25 µs carries OUT_OF_BOUND
and ATTN_FAULT (spec 13, R434). -/
def Mod.reportFault (m : Mod) (r : Report) : Mod :=
  let (u, m) := m.draw
  let gap := min 0xFFFF u
  let r := if r.scope = Scope.inBound ∧ 250 < gap then
    { r with scope := Scope.outOfBound, attn := r.attn ||| Attn.fault } else r
  m.enter (m.faultRec r gap)

/-- As `report`, with the serial of the record. -/
def Mod.reportS (m : Mod) (r : Report) : Mod × Word := m.enterS (m.faultRec r 0)

/-- As `reportFault`, with the serial of the record. -/
def Mod.reportFaultS (m : Mod) (r : Report) : Mod × Word :=
  let (u, m) := m.draw
  let gap := min 0xFFFF u
  let r := if r.scope = Scope.inBound ∧ 250 < gap then
    { r with scope := Scope.outOfBound, attn := r.attn ||| Attn.fault } else r
  m.enterS (m.faultRec r gap)

/-! ### Completions -/

/-- Hand over a completion (spec 15, R476); it is written only if the port is still owed it. -/
def Mod.complete (m : Mod) (t : Ticket) (opcode cls detail : Nat) (result : Bytes) : Mod :=
  { m with out := { m.out with completions := m.out.completions ++ [⟨t.port, t.tag, opcode, cls, detail, result⟩] } }

/-- Complete a command if there is one. -/
def Mod.completeOpt (m : Mod) (t : Option Ticket) (opcode cls detail : Nat) (result : Bytes) : Mod :=
  match t with
  | some t => m.complete t opcode cls detail result
  | none => m

/-! ### Lists by number -/

/-- Replace one element of a list that satisfies p. -/
def updFirst {α : Type} (p : α → Bool) (f : α → α) : List α → List α
  | [] => []
  | a :: l => if p a then f a :: l else a :: updFirst p f l

end Sys2Proof.Machine
end

