-- ==== Sys2Proof/Machine/Layout.lean ====
section
/-! DEFINITION. The address map (spec 05, R141 to R149, R159, R560), the geometry of allocation records (R160 to R166) and
reads of tensor elements. -/
namespace Sys2Proof.Machine

/-! ### Address ranges -/

def gib : Nat := 2 ^ 30
def mib : Nat := 2 ^ 20

/-- A half-open range of module addresses. -/
structure Span where
  lo : Nat
  hi : Nat
  deriving DecidableEq, Repr

/-- Two ranges have a byte in common. -/
def Span.meets (a b : Span) : Bool :=
  decide (a.lo < b.hi) && decide (b.lo < a.hi) && decide (a.lo < a.hi) && decide (b.lo < b.hi)

/-- One range lies inside another. -/
def Span.within (a b : Span) : Bool := decide (b.lo ≤ a.lo) && decide (a.hi ≤ b.hi)

/-- Some range of one list meets some range of the other. -/
def anyMeet (a b : List Span) : Bool := a.any (fun x => b.any x.meets)

/-! ### The partition (spec 05, R144, R148, R149) -/

/-- W. -/
def Hbm.wideEnd (h : Hbm) : Nat := h.w * 3 * gib
/-- Z. -/
def Hbm.nearSize (h : Hbm) : Nat := (192 - h.w) * 384 * mib
def Hbm.nearZone (h : Hbm) (core : Nat) : Span :=
  ⟨h.wideEnd + core * h.nearSize, h.wideEnd + (core + 1) * h.nearSize⟩
def Hbm.bankRegion (h : Hbm) : Span := ⟨h.wideEnd - h.bankGib * gib, h.wideEnd⟩
def Hbm.settleBuffer (h : Hbm) : Span := ⟨h.bankRegion.lo - h.settleGib * gib, h.bankRegion.lo⟩
def Hbm.planArea (h : Hbm) : Span := ⟨h.settleBuffer.lo - h.planGib * gib, h.settleBuffer.lo⟩
def Hbm.wideHeap (h : Hbm) : Span := ⟨0, h.planArea.lo⟩

/-- A core's pool (spec 05, R141). -/
def poolSpan (core : Nat) : Span := ⟨poolBase core, poolBase core + poolSize⟩

/-- The reserved regions (spec 05, R149). -/
def Hbm.reserved (h : Hbm) : List Span := [h.planArea, h.settleBuffer, h.bankRegion]

/-- Host addresses (spec 05, R141): region id and offset. -/
def isHost (a : Nat) : Bool := decide (2 ^ 63 ≤ a) && decide (a < 2 ^ 63 + 2 ^ 52)
def hostRegion (a : Nat) : Nat := bits a 51 40
def hostOffset (a : Nat) : Nat := a % 2 ^ 40
def hostAddr (region offset : Nat) : Nat := 2 ^ 63 + region * 2 ^ 40 + offset

/-- The range of one region id. -/
def hostSpan (region : Nat) : Span := ⟨hostAddr region 0, hostAddr region 0 + 2 ^ 40⟩

/-- The mapped ranges that are memory of the module (spec 05, R560). -/
def Hbm.mapped (h : Hbm) : List Span :=
  h.wideHeap :: (List.range 8).map h.nearZone ++ (List.range 8).map poolSpan

/-- A range lies inside one mapped range; a host range inside one region id (spec 05, R560). -/
def Hbm.isMapped (h : Hbm) (s : Span) : Bool :=
  h.mapped.any s.within || (isHost s.lo && s.within (hostSpan (hostRegion s.lo)))

/-- Stack, pseudo-channel within the stack, local offset of an HBM address (spec 05, R143, R145, R146). -/
def privateStack (core : Nat) : Nat := [0, 2, 3, 5, 6, 8, 9, 11].getD core 0
def sharedStack (core : Nat) : Nat := [1, 1, 4, 4, 7, 7, 10, 10].getD core 0

def Hbm.decode (h : Hbm) (a : Nat) : Nat × Nat × Nat :=
  if a < h.wideEnd then
    let g := a / 256
    (g % 12, g / 12 % 64, g / 768 * 256 + a % 256)
  else
    let c := (a - h.wideEnd) / h.nearSize
    let a2 := a - h.wideEnd - c * h.nearSize
    let g := a2 / 256
    let n := g % 96
    let loc := h.w * 4 * mib + g / 96 * 256 + a % 256
    if n % 3 = 2 then (sharedStack c, 32 * (c % 2) + n / 3, loc)
    else (privateStack c, 2 * (n / 3) + n % 3, loc)

/-! ### Allocation records -/

/-- The format word of a record; FP32 for an illegal one, which validation refuses. -/
def Alloc.fw (a : Alloc) : FmtWord := (FmtWord.parse a.fmt).getD FmtWord.plain

def Alloc.ext (a : Alloc) (d : Nat) : Nat := a.extent.getD d 1
/-- Byte stride of dimension d ≥ 1. -/
def Alloc.str (a : Alloc) (d : Nat) : Nat := a.stride.getD (d - 1) 0

/-- Logical elements along dimension 0. -/
def Alloc.cols (a : Alloc) : Nat := a.ext 0
/-- Rows: the product of the extents 1 to 5. -/
def Alloc.rows (a : Alloc) : Nat := ((List.range 5).map (fun d => a.ext (d + 1))).prod
/-- Logical elements. -/
def Alloc.elems (a : Alloc) : Nat := a.cols * a.rows

/-- s0 and the row bytes (spec 05, R161). -/
def Alloc.s0 (a : Alloc) : Nat := if a.fw.fmt = .fp4b then ceilDiv a.cols 32 * 32 else a.cols
def Alloc.rowBytes (a : Alloc) : Nat := a.fw.fmt.bytesOf a.s0

/-- The span (spec 05, R161). -/
def Alloc.spanBytes (a : Alloc) : Nat :=
  ceilDiv (((List.range 5).map (fun d => (a.ext (d + 1) - 1) * a.str (d + 1))).sum + a.rowBytes) 64 * 64

def Alloc.span (a : Alloc) : Span := ⟨a.base, a.base + a.spanBytes⟩

/-- Byte offset of row q, row-major over dimensions 1 to 5 (spec 05, R161, R162). -/
def Alloc.rowOffset (a : Alloc) (q : Nat) : Nat :=
  ((List.range 5).foldl (fun (acc : Nat × Nat) d =>
    (acc.1 + acc.2 % a.ext (d + 1) * a.str (d + 1), acc.2 / a.ext (d + 1))) (0, q)).1

/-- The scale array's range (spec 05, R162); empty for formats other than FP4B. -/
def Alloc.scaleSpan (a : Alloc) : Span :=
  if a.fw.fmt = .fp4b then ⟨a.scaleBase, a.scaleBase + (a.rows - 1) * a.scalePitch + a.s0 / 32⟩ else ⟨0, 0⟩

/-- Both ranges of a record. -/
def Alloc.spans (a : Alloc) : List Span :=
  if a.fw.fmt = .fp4b then [a.span, a.scaleSpan] else [a.span]

/-- Address of the byte that holds element (row q, column c). -/
def Alloc.addr (a : Alloc) (q c : Nat) : Nat := a.base + a.rowOffset q + c * a.fw.fmt.width / 8

/-- Address of the scale byte of element (q, c) (spec 05, R162). -/
def Alloc.scaleAddr (a : Alloc) (q c : Nat) : Nat := a.scaleBase + q * a.scalePitch + c / 32

/-- The bytes of columns [c, c + n) of row q. -/
def Alloc.rowSpan (a : Alloc) (q c n : Nat) : Span :=
  ⟨a.addr q c, a.base + a.rowOffset q + ceilDiv ((c + n) * a.fw.fmt.width) 8⟩

/-! ### Reads of elements (spec 05, R165, R166) -/

/-- The element code at (q, c); pad_bits outside the logical extents. -/
def Mod.code (m : Mod) (a : Alloc) (q c : Nat) : Nat :=
  if c < a.cols ∧ q < a.rows then
    let f := a.fw.fmt
    if f = .fp4b then (m.rd (a.addr q c)).toNat / 2 ^ (4 * (c % 2)) % 16
    else m.rdNat (a.addr q c) (f.width / 8)
  else a.padBits % 2 ^ a.fw.fmt.width

/-- The scale byte of the block that holds (q, c); 0x7F for a block wholly outside (spec 05, R166). -/
def Mod.scaleByte (m : Mod) (a : Alloc) (q c : Nat) : Nat :=
  if c / 32 * 32 < a.cols ∧ q < a.rows then (m.rd (a.scaleAddr q c)).toNat else 0x7F

/-- The FP32 code at (q, c) of an FP32 record. -/
def Mod.f32At (m : Mod) (a : Alloc) (q c : Nat) : F32 := BitVec.ofNat 32 (m.code a q c)

/-- The FP32 element with logical row-major index i. -/
def Mod.f32El (m : Mod) (a : Alloc) (i : Nat) : F32 := m.f32At a (i / a.cols) (i % a.cols)

/-- The exact value of a stored element: floating-point formats by R58, integers less their zero point (R62), FP4B
with its block's scale (R61). -/
def Mod.value (m : Mod) (a : Alloc) (q c : Nat) : Num :=
  let w := a.fw
  let code := m.code a q c
  match w.fmt with
  | .int8 => let v := intValue w code; .fin (decide (v < 0)) v.natAbs 0
  | .uint8 => let v := intValue w code; .fin (decide (v < 0)) v.natAbs 0
  | .fp4b => fp4Value (m.scaleByte a q c) code
  | f => f.decode code

/-! ### Plan records -/

/-- The allocation record at an index of TENSORS. -/
def Plan.alloc (p : Plan) (i : Nat) : Option Alloc :=
  match p.tensors[i]? with
  | some (.alloc a) => some a
  | _ => none

/-- The allocation record with a tensor_id, and its index. -/
def Plan.allocById (p : Plan) (id : Nat) : Option (Nat × Alloc) :=
  (List.range p.tensors.length).findSome? (fun i =>
    match p.alloc i with
    | some a => if a.tensorId = id then some (i, a) else none
    | none => none)

/-- All allocation records with their index. -/
def Plan.allocs (p : Plan) : List (Nat × Alloc) :=
  (List.range p.tensors.length).filterMap (fun i => (p.alloc i).map (fun a => (i, a)))

/-- The tiling record with a tiling_id. -/
def Plan.tiling (p : Plan) (id : Nat) : Option Tiling :=
  p.tensors.findSome? (fun r => match r with
    | .tiling t => if t.tilingId = id then some t else none
    | _ => none)

/-- Woodpile entries, combine groups and streams of a round, with their position in the round (spec 03, R97). -/
def Plan.round (p : Plan) (n : Nat) : Option RoundHdr := p.rounds[n]?

def Plan.entriesOf (p : Plan) (r : RoundHdr) : List WpEntry := (p.woodpile.drop r.firstEntry).take r.itemCount
def Plan.groupsOf (p : Plan) (r : RoundHdr) : List Combine := (p.combines.drop r.firstGroup).take r.groupCount
def Plan.streamsOf (p : Plan) (r : RoundHdr) : List StreamDesc := (p.streams.drop r.firstStream).take r.streamCount

/-- The 64 bytes of an entry's work item (spec 03, R102). -/
def Plan.itemBytes (p : Plan) (e : WpEntry) : Bytes := (p.items[e.itemRef / 64]?).getD (zeros 64)

/-- The settle set of a round. -/
def Plan.setOf (p : Plan) (r : RoundHdr) : Option SettleSet := p.sets[r.settleSet]?

/-- The route work of a round (spec 09, R278): descriptors and mask generators from first_route up to the first with
last set, with their ROUTES index; binding records are skipped. -/
def routeChain : Nat → List RouteRec → List (Nat × RouteRec)
  | _, [] => []
  | i, r :: rs =>
    match r with
    | .route d => if d.last then [(i, r)] else (i, r) :: routeChain (i + 1) rs
    | .mask d => if d.last then [(i, r)] else (i, r) :: routeChain (i + 1) rs
    | .binding _ _ => routeChain (i + 1) rs

def Plan.routesOf (p : Plan) (r : RoundHdr) : List (Nat × RouteRec) :=
  if r.firstRoute = 0xFFFFFFFF then [] else routeChain r.firstRoute (p.routes.drop r.firstRoute)

/-- The collectives of a round with their index (spec 11, R351). -/
def collChain : Nat → List Coll → List (Nat × Coll)
  | _, [] => []
  | i, c :: cs => if c.last then [(i, c)] else (i, c) :: collChain (i + 1) cs

def Plan.collsOf (p : Plan) (r : RoundHdr) : List (Nat × Coll) :=
  if r.firstCollective = 0xFFFFFFFF then [] else collChain r.firstCollective (p.colls.drop r.firstCollective)

/-- The test windows and digest binding of a round with their index (spec 13, R418, R428). -/
def testChain : Nat → List TestRec → List (Nat × TestRec)
  | _, [] => []
  | i, t :: ts =>
    match t with
    | .window last _ _ _ _ => if last then [(i, t)] else (i, t) :: testChain (i + 1) ts
    | .digest last _ _ => if last then [(i, t)] else (i, t) :: testChain (i + 1) ts

def Plan.testsOf (p : Plan) (r : RoundHdr) : List (Nat × TestRec) :=
  if r.testWindow = 0xFFFFFFFF then [] else testChain r.testWindow (p.tests.drop r.testWindow)

/-- The digest binding of a round: collective and update index. -/
def Plan.digestOf (p : Plan) (r : RoundHdr) : Option (Nat × Nat) :=
  (p.testsOf r).findSome? (fun e => match e.2 with | .digest _ c u => some (c, u) | _ => none)

/-- A member set of SLOT_TABLES (spec 10, R330). -/
def Plan.members (p : Plan) (i : Nat) : List Nat :=
  match p.slots[i]? with
  | some (.members l) => l
  | _ => []

/-- The signal entries of a round's slot table (spec 10, R332). -/
def Plan.signalsOf (p : Plan) (r : RoundHdr) : List SlotSignal :=
  match p.slots[r.slotTable]? with
  | some (.table _ _ s) => s
  | _ => []

end Sys2Proof.Machine
end

