-- ==== Sys2Proof/Machine/Links.lean ====
section
/-! DEFINITION. Channels and roles (spec 10, R311 to R317), the record of a channel event (spec 13, R410), spare channels and
restored channels at PLAN_START (R315, R342). -/
namespace Sys2Proof.Machine

/-- Role codes of the 28 channels in order (spec 10, R311). -/
def roleTable : List Nat :=
  [0x00, 0x02, 0x04, 0x06, 0x0E, 0x12, 0x18, 0x08, 0x0A, 0x0C, 0x10, 0x14, 0x16, 0x19,
   0x01, 0x03, 0x05, 0x07, 0x0F, 0x13, 0x1A, 0x09, 0x0B, 0x0D, 0x11, 0x15, 0x17, 0x1B]

def staticRole (k : Nat) : Nat := roleTable.getD k 0xFF

/-- The spare channels, and the role each can take (spec 10, R315). -/
def spareRole (k : Nat) : Option Nat :=
  if k = 6 then some 0x0E else if k = 13 then some 0x10 else if k = 20 then some 0x13 else if k = 27 then some 0x15 else none

def bankRole (role : Nat) : Bool := role == 0x16 || role == 0x17

def Mod.chan (m : Mod) (k : Nat) : Chan := SMap.get Chan.off m.fab.chans k
def Mod.setChan (m : Mod) (k : Nat) (f : Chan → Chan) : Mod :=
  { m with fab := { m.fab with chans := SMap.upd Chan.off m.fab.chans k f } }

/-- The channel that carries a role by its place. -/
def channelOf (role : Nat) : Nat := roleTable.findIdx (fun x => x == role)

/-- The role that a channel carries now (spec 10, R349): a spare its own code until it takes one; none for a channel
whose role a spare has taken. -/
def Mod.roleNow (m : Mod) (k : Nat) : Nat :=
  match spareRole k with
  | some _ => (m.chan k).taken.getD (staticRole k)
  | none =>
    if (List.range 28).any (fun s => (m.chan s).taken == some (staticRole k)) then 0xFF else staticRole k

/-- The channel that carries a role, if it is up. -/
def Mod.liveChannel (m : Mod) (role : Nat) : Option Nat :=
  (List.range 28).find? (fun k => m.roleNow k == role && (m.chan k).st == .up)

/-- The direction of the first hop to a member in the fixed order Y, X, tray (spec 10, R326), as a role of twin a; none
to the module itself. -/
def hopRole (dst : Nat) : Option Nat :=
  let rack := (dst / 64 + 32 - Config.position / 64 % 32) % 32
  let tray := (dst / 8 % 8 + 8 - Config.position / 8 % 8) % 8
  let slot := (dst % 8 + 8 - Config.position % 8) % 8
  if rack ≠ 0 then some (if rack ≤ 16 then 0x12 else 0x14)
  else if tray ≠ 0 then some (if tray ≤ 4 then 0x0E else 0x10)
  else if slot ≠ 0 then some (2 * (slot - 1))
  else none

/-- Both twins of that hop. -/
def firstHops (dst : Nat) : List Nat := match hopRole dst with | some r => [r, r + 1] | none => []

/-- The member word at the far end of a role (spec 10, R311, R313). -/
def rolePeer (role : Nat) : Nat :=
  let rack := Config.position / 64
  let tray := Config.position / 8 % 8
  let slot := Config.position % 8
  if role < 0x0E then rack * 64 + tray * 8 + (slot + role / 2 + 1) % 8
  else if role < 0x10 then rack * 64 + (tray + 1) % 8 * 8 + slot
  else if role < 0x12 then rack * 64 + (tray + 7) % 8 * 8 + slot
  else if role < 0x14 then (rack + 1) % 32 * 64 + tray * 8 + slot
  else if role < 0x16 then (rack + 31) % 32 * 64 + tray * 8 + slot
  else if role < 0x18 then Config.position ^^^ 8
  else if role = 0x18 then rack * 64 + (tray + 1) % 8 * 8 + slot
  else if role = 0x19 then rack * 64 + (tray + 7) % 8 * 8 + slot
  else if role = 0x1A then (rack + 1) % 32 * 64 + tray * 8 + slot
  else (rack + 31) % 32 * 64 + tray * 8 + slot

/-- A FABRIC record (spec 13, R410): event 0 LANE, 1 DOWN, 2 RESTORED, 3 TIME_UNLOCKED. -/
def fabricReport (channel role event lane detail scope : Nat) (attn : Byte) : Report :=
  { cls := Rec.fabric, attn := attn, detail := detail, scope := scope,
    payload := [BitVec.ofNat 8 channel, BitVec.ofNat 8 role, BitVec.ofNat 8 event, BitVec.ofNat 8 lane] }

/-- A disabled channel with mode RESTORE that has retrained returns; its record (spec 10, R342), and its spare goes back
to the shadow. -/
def Mod.restoreChannel (m : Mod) (k : Nat) : Mod :=
  let c := m.chan k
  if c.restore ∧ c.trained then
    let m := m.setChan k (fun c => { c with st := if (spareRole k).isSome then .shadow else .up, restore := false, trained := false })
    let m := (List.range 28).foldl (fun m s =>
      if (m.chan s).taken = some (staticRole k) then m.setChan s (fun c => { c with st := .shadow, taken := none }) else m) m
    m.report (fabricReport k (staticRole k) 2 0xFF Detail.channelRestored Scope.none Attn.log)
  else m

/-- A spare in the shadow takes the role of its Avo that leads to its neighbour once that role's channel has failed
(spec 10, R315). -/
def Mod.takeRole (m : Mod) (k : Nat) : Mod :=
  match spareRole k with
  | some role =>
    let c := m.chan (channelOf role)
    if (m.chan k).st = .shadow ∧ (c.st = .down ∨ c.st = .disabled) then
      m.setChan k (fun c => { c with st := .up, taken := some role })
    else m
  | none => m

/-- Channel replacements at PLAN_START (spec 01, R36; spec 10, R315, R342). -/
def Mod.replaceChannels (m : Mod) : Mod :=
  (List.range 28).foldl Mod.takeRole ((List.range 28).foldl Mod.restoreChannel m)

end Sys2Proof.Machine
end

