-- ==== Sys2Proof/Machine/Flags.lean ====
section
/-! DEFINITION. Round-local flags and waits (spec 03, R105), the open round and its settle set (R97; spec 04, R124,
R125), messages to other members (spec 04, R127; spec 10, R337, R339), round-visible writes (spec 04, R117 to R123). -/
namespace Sys2Proof.Machine

/-! ### The open round -/

/-- The header of the open, waiting or resume round. -/
def Mod.hdr (m : Mod) : Option RoundHdr := m.plan.plan.bind (fun p => p.round m.plan.round)

/-- Its settle set. -/
def Mod.set (m : Mod) : Option SettleSet := m.plan.plan.bind (fun p => m.hdr.bind p.setOf)

/-- Its number; 0xFFFF without a round. -/
def Mod.setId (m : Mod) : Nat := (m.hdr.map (·.settleSet)).getD 0xFFFF

/-- The other members of the settle set (spec 04, R124, R125): none for a LOCAL set. -/
def Mod.others (m : Mod) : List Nat :=
  match m.set with
  | some s => if s.domain then s.members.filter (fun x => x != Config.position) else []
  | none => []

/-- The attempt runs: its writes take effect and its faults can douse it. -/
def Phase.runs : Phase → Bool
  | .run => true | .ended => true | _ => false

/-- The module has sent its SETTLE_TOKEN for the attempt (spec 04, R129). -/
def Phase.tokenSent : Phase → Bool
  | .settling => true | .digest => true | .commit => true | _ => false

/-- The current attempt for R128: it advances once every DOUSE_READY is held. -/
def Mod.curAttempt (m : Mod) : Nat := if m.run.phase = .replay then m.run.attempt + 1 else m.run.attempt

/-! ### Flags (spec 03, R105) -/

def Mod.flag (m : Mod) (f : Nat) : Nat := SMap.get 0 m.run.flags f

/-- Increment a flag; 0xFFFF names none. -/
def Mod.incFlag (m : Mod) (f n : Nat) : Mod :=
  if f = 0xFFFF then m
  else { m with run := { m.run with flags := SMap.upd 0 m.run.flags f (fun v => (v + n) % 2 ^ 32) } }

/-- A flag message's increment, with its sender noted. -/
def Mod.incFlagFrom (m : Mod) (sender f n : Nat) : Mod :=
  ({ m with run := { m.run with flagFrom := SMap.upd [] m.run.flagFrom f (fun l => sender :: l) } }).incFlag f n

/-- The wait condition: 0xFFFF, or the flag has reached the value. -/
def Mod.flagMet (m : Mod) (f value : Nat) : Bool := f == 0xFFFF || reached (m.flag f) value

/-! ### Messages -/

/-- Give a message or packet to the link layer. -/
def Mod.send (m : Mod) (x : Sent) : Mod := { m with fab := { m.fab with out := m.fab.out ++ [x] } }

def Mod.sendAll (m : Mod) (xs : List Sent) : Mod := { m with fab := { m.fab with out := m.fab.out ++ xs } }

/-- The payload of R127 as the open round gives it. -/
def Mod.emberMsg (m : Mod) (attempt cause : Nat) : EmberMsg :=
  ⟨attempt, Config.position, m.run.serial, BitVec.ofNat 32 m.planId, m.setId, cause⟩

/-- Send an EMBER message of a kind (1 SETTLE_TOKEN, 2 DOUSE, 3 DOUSE_READY) to every other member (spec 10, R339). -/
def Mod.sendEmber (m : Mod) (kind attempt cause : Nat) : Mod :=
  m.sendAll (m.others.map (fun d => Sent.ember d kind (m.emberMsg attempt cause)))

/-! ### Douse marks (spec 04, R129, R133) -/

/-- Mark the open attempt for douse with a cause of R133; nothing once the token is sent or a mark stands. -/
def Mod.markDouse (m : Mod) (cause : Nat) : Mod :=
  if m.run.phase.runs && m.run.mark.isNone then { m with run := { m.run with mark := some cause } } else m

/-- An alternate of the role's detour record is live (spec 10, R341). -/
def Mod.detourLive (m : Mod) (role : Nat) : Bool :=
  match m.plan.plan.bind (fun p => p.detours[role]?) with
  | some d => d.alts.any (fun a => (m.liveChannel a.firstRole).isSome)
  | none => false

/-- Traffic to a member can leave: one of its first-hop roles, or a detour of one, is live (spec 10, R326, R341). -/
def Mod.reaches (m : Mod) (dst : Nat) : Bool :=
  (firstHops dst).any (fun r => (m.liveChannel r).isSome || m.detourLive r)

namespace Douse
abbrev checkFail : Nat := 1
abbrev fence : Nat := 2
abbrev abandon : Nat := 3
abbrev emberBlocked : Nat := 4
abbrev fabricLoss : Nat := 5
abbrev halt : Nat := 6
end Douse

/-- A data-class packet to a member counts for the fence (spec 10, R337); undeliverable traffic marks the attempt
(spec 10, R341, R342). -/
def Mod.sendData (m : Mod) (dst : Nat) (x : Sent) : Mod :=
  if m.reaches dst then
    let m := m.send x
    { m with fab := { m.fab with sentTo := SMap.upd 0 m.fab.sentTo dst (fun n => n + 1) } }
  else m.markDouse Douse.fabricLoss

/-- Send a FLAG_INC with its fence (spec 10, R336, R337, R342); to this module itself it is applied at once. -/
def Mod.sendFlag (m : Mod) (dst flag : Nat) : Mod :=
  if dst = Config.position then m.incFlagFrom Config.position flag 1
  else if m.reaches dst then
    m.send (.flag dst ⟨Config.position, flag, 1, m.run.serial, m.run.attempt, SMap.get 0 m.fab.sentTo dst⟩)
  else m.markDouse Douse.fabricLoss

/-! ### Writes of the open round (spec 04, R117 to R123) -/

/-- How a write reaches memory. -/
inductive Path where
  | direct | deferred | blocked
  deriving DecidableEq, Repr

/-- The path of a record's class in the open round (spec 04, R119, R121). -/
def Mod.pathOf (m : Mod) (idx : Nat) (a : Alloc) : Path :=
  match a.pclass with
  | .scratch => .direct
  | .working => if idx ∈ m.plan.deferred.getD m.plan.round [] then .deferred else .direct
  | .state => .deferred
  | .version => .deferred
  | .bank => .blocked
  | .snapshot => .blocked

/-- The record that holds an address, with its index. -/
def Plan.recordAt (p : Plan) (addr : Nat) : Option (Nat × Alloc) :=
  p.allocs.find? (fun e => e.2.spans.any (fun s => decide (s.lo ≤ addr) && decide (addr < s.hi)))

/-- The path of a write at an address: a host region is persistent whatever a record says (spec 04, R119); memory that
no record holds is written directly. -/
def Mod.pathAt (m : Mod) (addr : Nat) : Path :=
  if isHost addr then .deferred
  else match m.plan.plan.bind (fun p => p.recordAt addr) with
    | some (i, a) => m.pathOf i a
    | none => .direct

/-- Hold a write in the settle buffer (spec 04, R122); `handle`, `stream` and `pos` are those of a host write. -/
def Mod.stage (m : Mod) (w : Staged) : Mod := { m with run := { m.run with staged := m.run.staged ++ [w] } }

/-- A write by the open attempt that takes the path of its first byte. -/
def Mod.roundPut (m : Mod) (addr : Nat) (data : Bytes) : Mod :=
  match m.pathAt addr with
  | .direct => m.wr addr data
  | .deferred => m.stage ⟨addr, data, 0, 0, 0⟩
  | .blocked => (m.tallyEvent Cnt.emberBlocked 1).markDouse Douse.emberBlocked

/-- Every record range that a write meets holds all of it: it takes one path. -/
def Mod.onePath (m : Mod) (addr n : Nat) : Bool :=
  match m.plan.plan with
  | some p => p.allocs.all (fun e => e.2.spans.all (fun s =>
      decide (s.hi ≤ addr) || decide (addr + n ≤ s.lo) || (decide (s.lo ≤ addr) && decide (addr + n ≤ s.hi))))
  | none => true

/-- The parts of a write that take one path each. -/
def Mod.pathParts (m : Mod) : Nat → Bytes → List (Nat × Bytes)
  | _, [] => []
  | a, b :: bs =>
    match m.pathParts (a + 1) bs with
    | (a', l) :: r => if m.pathAt a = m.pathAt a' then (a, b :: l) :: r else (a, [b]) :: (a', l) :: r
    | [] => [(a, [b])]

/-- A write by the open attempt, each part by the path of the record that holds it. -/
def Mod.roundWrite (m : Mod) (addr : Nat) (data : Bytes) : Mod :=
  if data.isEmpty then m
  else if m.onePath addr data.length then m.roundPut addr data
  else (m.pathParts addr data).foldl (fun m w => m.roundPut w.1 w.2) m

/-- Several writes in order. -/
def Mod.roundWrites (m : Mod) (ws : List (Nat × Bytes)) : Mod := ws.foldl (fun m w => m.roundWrite w.1 w.2) m

/-- One byte as it stands once the staged writes commit. -/
def Mod.rdStaged (m : Mod) (a : Nat) : Byte :=
  m.run.staged.foldl (fun b w => if w.addr ≤ a ∧ a < w.addr + w.data.length then w.data.getD (a - w.addr) 0 else b) (m.rd a)

/-- A little-endian number of n such bytes: what the round's own writes have made of it. -/
def Mod.rdStagedNat (m : Mod) (a n : Nat) : Nat := leNat ((List.range n).map (fun i => m.rdStaged (a + i)))

/-- Merge writes that follow one another into runs, so that a staged list stays short. -/
def mergeRuns : List (Nat × Bytes) → List (Nat × Bytes)
  | [] => []
  | (a, b) :: rest =>
    match mergeRuns rest with
    | (a', b') :: r => if a + b.length = a' then (a, b ++ b') :: r else (a, b) :: (a', b') :: r
    | [] => [(a, b)]

/-! ### Conditions -/

/-- A data condition of the attempt (spec 04, R138), with the fabric time of its detection. -/
def Mod.condition (m : Mod) (c : Cond) : Mod := { m with run := { m.run with conds := m.run.conds ++ [⟨c, m.fabricTime⟩] } }

/-- Count under R81: non-finite and saturated results. -/
def Mod.tallyR81 (m : Mod) (nonfinite saturated : Nat) : Mod :=
  (m.tally Cnt.nonfinite nonfinite).tally Cnt.saturated saturated

end Sys2Proof.Machine
end

