-- ==== Sys2Proof/Machine/Ports.lean ====
section
/-! DEFINITION. The host's side (spec 15): the port register block (R464 to R469), replies and completions (R475,
R476), the status word (R477), attention (R478), and the frame in which every command of a ring runs (R467 to R474). -/
namespace Sys2Proof.Machine

/-- A port of the register block; port 1 for any number but 0. -/
def HostIo.port (io : HostIo) (p : Nat) : Port := if p = 0 then io.p0 else io.p1

def HostIo.setPort (io : HostIo) (p : Nat) (x : Port) : HostIo :=
  if p = 0 then { io with p0 := x } else { io with p1 := x }

/-- Free entries of the reply ring (spec 15, R469). -/
def Port.freeReplies (x : Port) : Nat := 4096 - (x.replyProduced - x.replyConsumed).toNat

/-- The 32 bytes of a reply (spec 15, R475, R477). -/
def replyBytes (seq tag : Word) (attn : Byte) (cls detail opcode kind : Nat) (result : Bytes) : Bytes :=
  leBytes 4 seq.toNat ++ leBytes 4 tag.toNat ++ leBytes 4 (attn.toNat * 2 ^ 24 + cls * 2 ^ 20 + detail)
    ++ leBytes 2 opcode ++ [BitVec.ofNat 8 kind, 0] ++ fitBytes 16 result

/-- The model's key of a byte of host memory (assumption log 2). -/
def hostKey (port bus : Nat) : Nat := port * 2 ^ 64 + bus

/-- Write a reply into the next slot of the port's ring (spec 15, R466, R470); nothing while the rings do not run. -/
def HostIo.putReply (io : HostIo) (kind : Nat) (r : Reply) : HostIo :=
  let x := io.port r.port
  if x.running then
    let bus := x.replyBase.toNat + 32 * (x.replyProduced.toNat % 4096)
    let bs := replyBytes x.replyProduced r.tag x.attn r.cls r.detail r.opcode kind r.result
    let io := { io with mem := putBytes io.mem (hostKey r.port bus) bs }
    io.setPort r.port { x with replyProduced := x.replyProduced + 1 }
  else io

/-- Take the first debt of a tag and opcode away (spec 15, R476). -/
def dropOwed (tag : Word) (opcode : Nat) : List Owed → List Owed
  | [] => []
  | o :: l => if o.tag = tag ∧ o.opcode = opcode then l else o :: dropOwed tag opcode l

/-- Whether the port is owed this completion. -/
def HostIo.owes (io : HostIo) (r : Reply) : Bool :=
  (io.port r.port).owed.any (fun o => decide (o.tag = r.tag) && decide (o.opcode = r.opcode))

/-- Write a completion that the port is owed; a completion that was dropped is not written (spec 15, R465, R476). -/
def HostIo.putCompletion (io : HostIo) (r : Reply) : HostIo :=
  if io.owes r then
    let x := io.port r.port
    (io.setPort r.port { x with owed := dropOwed r.tag r.opcode x.owed }).putReply 1 r
  else io

/-- Attention bits of an outbox reach the copies (spec 15, R478, R479). -/
def HostIo.attend (io : HostIo) (o : Outbox) : HostIo :=
  let set (p : Nat) (a : Byte) : Byte :=
    let a := o.attnAck.foldl (fun a e => if e.1 = p then a &&& ~~~e.2 else a) a
    let a := a ||| o.attn
    o.attnPort.foldl (fun a e => if e.1 = p then a ||| e.2 else a) a
  { io with p0 := { io.p0 with attn := set 0 io.p0.attn }, p1 := { io.p1 with attn := set 1 io.p1.attn } }

/-- Host writes of an outbox. -/
def HostIo.store (io : HostIo) (ws : List HostWrite) : HostIo :=
  { io with mem := ws.foldl (fun mem w => putBytes mem (hostKey w.port w.bus) w.data) io.mem }

/-- Stop a port's rings (spec 15, R465): what it is owed is dropped. -/
def Port.stop (x : Port) : Port := { x with enable := false, running := false, owed := [] }

/-- How many completions a stop drops. -/
def HostIo.dropped (io : HostIo) (ports : List Nat) : Nat :=
  (if 0 ∈ ports then io.p0.owed.length else 0) + (if 1 ∈ ports then io.p1.owed.length else 0)

/-- Stop rings, clear attention bytes, reset the registers, as the outbox says (spec 15, R463, R465, R471). -/
def HostIo.settle (io : HostIo) (o : Outbox) : HostIo :=
  let fix (p : Nat) (x : Port) : Port :=
    let x := if p ∈ o.ringsOff then x.stop else x
    let x := if p ∈ o.attnClear then { x with attn := 0 } else x
    if o.portsReset then Port.reset else x
  { io with p0 := fix 0 io.p0, p1 := fix 1 io.p1 }

/-- How many of the completions handed over are REJECTED and will be written (spec 15, R474). -/
def HostIo.rejections (io : HostIo) (o : Outbox) : Nat :=
  (o.completions.filter (fun r => decide (r.cls = Cls.rejected) && io.owes r)).length

/-- Hand the outbox to the host's side, in the order of R470: attention, buffers, completions; then what stops. The
outbox is empty after it. -/
def State.flush (s : State) : State :=
  let o := s.m.out
  let io := (s.io.attend o).store o.host
  let rej := io.rejections o
  let io := o.completions.foldl HostIo.putCompletion io
  let lost := io.dropped o.ringsOff
  let io := io.settle o
  let m := { s.m with out := Outbox.empty }
  let m := if rej = 0 then m else m.count Cnt.cmdRejected rej
  let m := if lost = 0 then m else m.count Cnt.replyDropped lost
  { s with io := io, m := m }

/-- The messages that the last command sent are gone when the next one begins. -/
def Mod.fresh (m : Mod) : Mod := { m with fab := { m.fab with out := [] } }

/-- An event of the module: its effect, then what it hands over. -/
def State.event (s : State) (f : Mod → Mod) : State := State.flush { s with m := f s.m.fresh }

/-! ### Register writes (spec 15, R464 to R469) -/

/-- Whether the ring bases let the rings run (spec 15, R465). -/
def Port.basesOk (x : Port) : Bool :=
  x.cmdBase != 0 && x.replyBase != 0 && x.cmdBase.toNat % 4096 == 0 && x.replyBase.toNat % 4096 == 0

/-- RING_CTRL enable from 0 to 1 (spec 15, R465). -/
def Port.start (x : Port) : Port :=
  if x.basesOk then
    { x with enable := true, running := true, error := false, consumed := 0, replyProduced := 0 }
  else { x with enable := true, running := false, error := true }

/-- Whether a doorbell value is valid (spec 15, R467). -/
def Port.doorbellOk (x : Port) (d : Word) : Bool :=
  let k := (d - x.consumed).toInt
  decide (0 ≤ k) && decide (k ≤ 4096)

/-- Whether a REPLY_CONSUMED value is in range (spec 15, R469): 0 to 4,096 behind REPLY_PRODUCED. -/
def Port.replyConsumedOk (x : Port) (v : Word) : Bool :=
  let k := (x.replyProduced - v).toInt
  decide (0 ≤ k) && decide (k ≤ 4096)

/-! ### Commands of a ring -/

/-- What a command answers: class, detail, result field, and the module after it. A class other than OK, ACCEPTED and
FAULTED leaves the module as it was. -/
structure Ans where
  cls : Nat
  detail : Nat
  result : Bytes
  m : Mod

def Ans.ok (m : Mod) (result : Bytes := []) : Ans := ⟨Cls.ok, Detail.none, result, m⟩
def Ans.accepted (m : Mod) (result : Bytes := []) : Ans := ⟨Cls.accepted, Detail.none, result, m⟩
def Ans.rejected (m : Mod) (detail : Nat) : Ans := ⟨Cls.rejected, detail, [], m⟩
def Ans.busy (m : Mod) : Ans := ⟨Cls.busy, Detail.none, [], m⟩

/-- Renew the owner that starts a command (spec 15, R483, R487). -/
def Mod.renew (m : Mod) (port : Nat) : Mod :=
  if m.ctl.owner = some port then { m with ctl := { m.ctl with lapsed := false, ownerIdleMs := 0 } } else m

/-- Write the immediate reply of a command and note a completion owed (spec 15, R475, R476); then what the command hands
over. -/
def State.answer (s : State) (h : Cmd) (opcode : Nat) (a : Ans) : State :=
  let o := a.m.out
  let io := (s.io.attend o).store o.host
  let io := io.putReply 0 ⟨h.port, h.tag, opcode, a.cls, a.detail, a.result⟩
  let x := io.port h.port
  let io := if a.cls = Cls.accepted then io.setPort h.port { x with owed := x.owed ++ [⟨h.tag, opcode⟩] } else io
  let m := { a.m with out := { o with attn := 0, attnPort := [], attnAck := [], host := [] } }
  let m := if a.cls = Cls.rejected then m.count Cnt.cmdRejected 1 else m
  State.flush { s with io := io, m := m }

/-- Whether the port has a packet to fetch (spec 15, R467, R471, R485): the module answers, its hearth controller runs,
the rings run, and the producer serial lies ahead. -/
def State.fetches (s : State) (port : Nat) : Bool :=
  let x := s.io.port port
  decide (port < 2) && s.m.ctl.state != .off && (if port = 0 then s.m.link0.on else s.m.link1.on)
  && s.m.ctl.restart.isNone && x.running
  && decide (0 < (x.producer - x.consumed).toInt)

/-- Whether the reply ring has room for a command to start (spec 15, R469). -/
def Port.hasRoom (x : Port) : Bool := decide (2 + x.owed.length ≤ x.freeReplies)

/-- The packet is fetched: CMD_CONSUMED advances. -/
def State.consume (s : State) (port : Nat) : State :=
  let x := s.io.port port
  { s with io := s.io.setPort port { x with consumed := x.consumed + 1 } }

/-- What the checks of R474 know of a command: its opcode, whether only the owner may send it, reserved bits among its
operands (check 2), who else may not send it (check 3), its parameter check (check 4: a detail, none if it passes), its
effect with the checks 5 and 6 of its own. -/
structure CmdSpec where
  opcode : Nat
  ownerOnly : Bool
  reserved : Bool := false
  forbidden : Mod → Bool := fun _ => false
  params : Mod → Option Nat
  run : Mod → Ans

/-- The opcodes that each module state accepts (spec 15, R485). -/
def statusSet (op : Nat) : Bool :=
  op ≤ 0x06 || (0x11 ≤ op && op ≤ 0x13) || op == Op.faultLogRead || op == Op.digestPolicySet
  || (0x90 ≤ op && op ≤ 0x92) || op == Op.attestQuote || op == Op.identityRead

def ModState.accepts (st : ModState) (op : Nat) : Bool :=
  match st with
  | .ready => true
  | .running => true
  | .halted => true
  | .off => false
  | .kindling => statusSet op || op == Op.channelStatus || op == Op.timebaseStatus
  | .standby => statusSet op || op == Op.moduleReset || op == Op.pstateSet || op == Op.fwStage || op == Op.fwActivate
  | .tripped => statusSet op || op == Op.moduleReset || op == Op.pstateSet
  | .expelled => statusSet op || op == Op.channelStatus || op == Op.timebaseStatus || op == Op.moduleReset
      || op == Op.distanceRead || op == Op.regionRegister || op == Op.regionRevoke || op == Op.regionQuery
      || op == Op.planReport || op == Op.planUnload || op == Op.stepStatus || op == Op.bankStatus
      || op == Op.bankServe || op == Op.testResultRead

/-- The memory, plan, stream and bank commands that wait for HBM_PARTITION's reply (spec 05, R150). -/
def waitsForPartition (op : Nat) : Bool :=
  op == Op.hbmPartition || (0x30 ≤ op && op ≤ 0x35) || (0x38 ≤ op && op ≤ 0x3B) || op == Op.snapshotExport
  || (0x50 ≤ op && op ≤ 0x54)

/-- Checks 2 to 5 of R474 in their order, then the command's own effect. -/
def CmdSpec.judge (c : CmdSpec) (h : Cmd) (m : Mod) : Ans :=
  if h.rsv ≠ 0 ∨ c.reserved then Ans.rejected m Detail.badReserved
  else if (c.ownerOnly ∧ m.ctl.owner ≠ some h.port) ∨ c.forbidden m then Ans.rejected m Detail.notOwner
  else match c.params m with
    | some d => Ans.rejected m d
    | none =>
      if !m.ctl.state.accepts c.opcode then Ans.rejected m Detail.badState
      else if m.hbm.repart.isSome && waitsForPartition c.opcode then Ans.busy m
      else c.run m

/-- A command answered BUSY or REJECTED changes nothing; FW_ACTIVATE has its own rule for a failed check (spec 15,
R474). -/
def Ans.guard (a : Ans) (opcode : Nat) (m : Mod) : Ans :=
  if (a.cls = Cls.busy ∨ a.cls = Cls.rejected) ∧ opcode ≠ Op.fwActivate then { a with m := m } else a

/-- Run a command of a ring: fetch, room for the reply, checks, effect, reply. -/
def runCmd (h : Cmd) (c : CmdSpec) (s : State) : State :=
  if s.fetches h.port then
    if (s.io.port h.port).hasRoom then
      let m := s.m.fresh.renew h.port
      (s.consume h.port).answer h c.opcode ((c.judge h m).guard c.opcode m)
    else { s with m := s.m.count Cnt.replyStall 1 }
  else s

/-! ### Host buffers (spec 15, R473) -/

/-- Whether a range of a region may be used: ACTIVE, held by the port, with the permission, covering it. -/
def Mod.regionCovers (m : Mod) (port region off len : Nat) (write : Bool) : Bool :=
  let r := SMap.get Region.free m.regions region
  decide (region < 4096) && r.state == .active && r.port == port && (if write then r.write else r.read)
  && decide (off + len ≤ r.size)

/-- The sideband's own buffer region (spec 18, R553). -/
def sideRegion : Nat := 0xFFFE

/-- Whether a command's buffer of `len` bytes is valid. Port 2 stands for the sideband. -/
def Mod.bufferOk (m : Mod) (h : Cmd) (len : Nat) (write : Bool) : Bool :=
  if h.port = 2 then h.bufRegion.toNat == sideRegion && h.bufOffset.toNat == 0 && decide (len ≤ 20480)
  else m.regionCovers h.port h.bufRegion.toNat h.bufOffset.toNat len write

/-- A command that takes no buffer names none (spec 15, R472, R473). -/
def noBuffer (h : Cmd) : Bool := h.bufRegion == 0xFFFF#16 && h.bufOffset == 0#64

/-- Write a command's buffer (spec 15, R470; spec 18, R553). -/
def Mod.writeAt (m : Mod) (port region off : Nat) (bs : Bytes) : Mod :=
  if port = 2 then { m with side := { m.side with buffer := bs ++ m.side.buffer.drop bs.length } }
  else
    let r := SMap.get Region.free m.regions region
    { m with out := { m.out with host := m.out.host ++ [⟨r.port, r.base + off, bs⟩] } }

def Mod.writeBuffer (m : Mod) (h : Cmd) (bs : Bytes) : Mod := m.writeAt h.port h.bufRegion.toNat h.bufOffset.toNat bs

/-- Parameter check of a command without a buffer. -/
def plainParams (h : Cmd) (bad : Bool := false) : Mod → Option Nat :=
  fun _ => if bad || !noBuffer h then some Detail.badParam else none

/-- Parameter check of a command with a written buffer of a fixed length. -/
def bufParams (h : Cmd) (len : Nat) (bad : Bool := false) : Mod → Option Nat :=
  fun m => if bad || !m.bufferOk h len true then some Detail.badParam else none

end Sys2Proof.Machine
end

