-- ==== Sys2Proof/Machine/Contexts.lean ====
section
/-! DEFINITION. Stream contexts (spec 06, R174), the settle buffer's free space (spec 04, R131), STREAM records (spec 13,
R410), the version table and exports (spec 12, R399 to R406). -/
namespace Sys2Proof.Machine

/-! ### Contexts -/

def Mod.ctx (m : Mod) (h : Nat) : Option Ctx := SMap.get none m.ctxs h
def Mod.setCtx (m : Mod) (h : Nat) (c : Option Ctx) : Mod := { m with ctxs := SMap.put none m.ctxs h c }

/-- Contexts in use with what they hold. -/
def Mod.usedCtxs (m : Mod) : List (Nat × Ctx) := m.ctxs.filterMap (fun e => e.2.map (fun c => (e.1, c)))

/-- Contexts of a core from `lo` on that are neither used, fenced nor under test, lowest first; which free context a stream takes
is not stated (assumption log 15). -/
def Mod.freeCtxs (m : Mod) (core lo n : Nat) : List Nat :=
  ((List.range n).map (fun i => core * 512 + lo + i)).filter (fun h =>
    (m.ctx h).isNone && !(h ∈ m.fenced) && !(m.tests.running.any (fun t => t.ctx == some h)))

/-- The 480 contexts of plan streams, the 32 of command streams (spec 06, R174). -/
def Mod.planCtxs (m : Mod) (core : Nat) : List Nat := m.freeCtxs core 0 480
def Mod.cmdCtxs (m : Mod) (core : Nat) : List Nat := m.freeCtxs core 480 32

/-- A stream descriptor with nothing in it. -/
def StreamDesc.none : StreamDesc :=
  { streamId := 0, kind := .copy, homeCore := 0, remote := false, unitDim := 0, ringUnits := 0, esize := 2, srcBase := 0,
    dstBase := 0, srcRec := 0xFFFF, dstRec := 0xFFFF, waitValue := 0, extent := [1, 1, 1, 1, 1, 1],
    srcStride := [0, 0, 0, 0, 0, 0], dstStride := [0, 0, 0, 0, 0, 0], indexLimit := 0, indexStream := 0xFFFF,
    doneFlag := 0xFFFF, creditFlag := 0xFFFF, dstPosition := 0xFFFF }

/-- A context that holds a stream with no progress. -/
def Ctx.fresh (use : CtxUse) (st : CtxSt) (stream port : Nat) (d : StreamDesc) : Ctx :=
  { use := use, st := st, stream := stream, port := port, desc := d, cause := 0, resume := 0, region := 0xFFFF,
    reading := false, ticket := Option.none, pend := Option.none, serial := 0, writes := [] }

/-- Bytes that drains still hold in the settle buffer (spec 04, R131). -/
def Mod.drainBytes (m : Mod) : Nat :=
  (m.usedCtxs.map (fun e => (e.2.writes.map (fun w => w.data.length)).sum)).sum

/-- Free space of the settle buffer. -/
def Mod.settleFree (m : Mod) : Nat := m.hbm.settleGib * gib - m.drainBytes

/-- The payload of a STREAM record (spec 13, R410). -/
def streamPayload (handle stream cause resume : Nat) : Bytes :=
  leBytes 4 handle ++ leBytes 4 stream ++ [BitVec.ofNat 8 cause] ++ zeros 3 ++ leBytes 8 resume

/-! ### Version sets (spec 12, R399 to R403) -/

def Plan.vset (p : Plan) (i : Nat) : Option VersionSet :=
  match p.updates[i]? with
  | some (.vset v) => some v
  | _ => Option.none

/-- Version sets with their UPDATES index. -/
def Plan.vsets (p : Plan) : List (Nat × VersionSet) :=
  (List.range p.updates.length).filterMap (fun i => (p.vset i).map (fun v => (i, v)))

/-- The chain of update records of a round (spec 12, R384), with their index: up to the first with last set. -/
def updChain : Nat → List UpdRec → List (Nat × UpdRec)
  | _, [] => []
  | i, r :: rs =>
    match r with
    | .update u => if u.last then [(i, r)] else (i, r) :: updChain (i + 1) rs
    | .bind last _ => if last then [(i, r)] else (i, r) :: updChain (i + 1) rs
    | _ => [(i, r)]

def Plan.chainOf (p : Plan) (r : RoundHdr) : List (Nat × UpdRec) :=
  if r.updateRef = 0xFFFFFFFF then [] else updChain r.updateRef (p.updates.drop r.updateRef)

/-- The update descriptor of a round. -/
def Plan.updateOf (p : Plan) (r : RoundHdr) : Option (Nat × UpdDesc) :=
  (p.chainOf r).findSome? (fun e => match e.2 with | .update u => some (e.1, u) | _ => Option.none)

/-- The binding entries of a round. -/
def Plan.bindsOf (p : Plan) (r : RoundHdr) : List VerBind :=
  ((p.chainOf r).map (fun e => match e.2 with | .bind _ es => es | _ => [])).flatten

/-- Current slot of a set. -/
def Mod.curSlot (m : Mod) (set : Nat) : Nat := (SMap.get Version.zero m.step.versions set).slot

/-- What a pin register holds. -/
def Mod.pinOf (m : Mod) (r : Nat) : Option Pin := SMap.get Option.none m.step.pins r

/-- The handle that a record index is (spec 12, R401): the set and the handle. -/
def Plan.handleOf (p : Plan) (rec : Nat) : Option (Nat × Nat) :=
  p.vsets.findSome? (fun e =>
    if e.2.slotRec ≤ rec ∧ rec < e.2.slotRec + e.2.slotCount then some (e.1, rec - e.2.slotRec) else Option.none)

/-- The slot that a handle reads in the open round (spec 12, R401). -/
def Mod.slotRead (m : Mod) (set handle : Nat) : Nat :=
  match m.run.binds.find? (fun b => b.1 == (set, handle)) with
  | some b => b.2
  | Option.none => m.curSlot set

/-- The record that a read of record index `rec` reaches (spec 12, R401). -/
def Mod.readRec (m : Mod) (rec : Nat) : Option Alloc :=
  m.plan.plan.bind (fun p =>
    match p.handleOf rec with
    | some (set, h) => (p.vset set).bind (fun v => p.alloc (v.slotRec + m.slotRead set h))
    | Option.none => p.alloc rec)

/-- An address named through a record, moved to the record that the read reaches. -/
def Mod.readAddr (m : Mod) (rec addr : Nat) : Nat :=
  match m.plan.plan.bind (fun p => p.alloc rec), m.readRec rec with
  | some a, some b => addr + b.base - a.base
  | _, _ => addr

/-- Bind the handles of a round at its open (spec 12, R401). -/
def Mod.bindVersions (m : Mod) (bs : List VerBind) : List ((Nat × Nat) × Nat) :=
  bs.map (fun b => ((b.set, b.handle),
    match b.action with
    | .pin => m.curSlot b.set
    | _ => ((m.pinOf b.pin).map (·.slot)).getD (m.curSlot b.set)))

/-- A slot that an update may take (spec 12, R403; spec 14, R444): not current, no pin, no export pin, no bank pin. -/
def Mod.slotFree (m : Mod) (set slot : Nat) : Bool :=
  slot != m.curSlot set && !(m.step.pins.any (fun e => e.2 == some ⟨set, slot⟩))
  && !(m.step.exports.any (fun x => x.set == set && x.slot == slot)) && !(m.bank.pins.any (fun x => x == ⟨set, slot⟩))

/-- The target slot (spec 12, R403). -/
def Mod.targetSlot (m : Mod) (set : Nat) (v : VersionSet) : Option Nat :=
  (List.range v.slotCount).find? (fun k => m.slotFree set k)

/-- The set that the round's update refreshes, if any. -/
def Plan.updSet (p : Plan) (r : RoundHdr) : Option (Nat × VersionSet) :=
  (p.updateOf r).bind (fun u => (p.vset u.2.versionSet).map (fun v => (u.2.versionSet, v)))

/-- Version changes at settle (spec 12, R402): PIN and RELEASE, then the new current slot of an applied update. -/
def Mod.commitVersions (m : Mod) (bs : List VerBind) : Mod :=
  let pins := bs.foldl (fun pins b =>
    match b.action with
    | .pin => SMap.put Option.none pins b.pin (some ⟨b.set, m.curSlot b.set⟩)
    | .release => SMap.put Option.none pins b.pin Option.none
    | .use => pins) m.step.pins
  let m1 := { m with step := { m.step with pins := pins } }
  match m.run.target with
  | some t =>
    if m.run.discarded then m1
    else { m1 with step := { m1.step with
        versions := SMap.upd Version.zero m1.step.versions t.set (fun v => ⟨t.slot, v.serial + 1⟩) } }
  | Option.none => m1

/-! ### Exports (spec 12, R405, R406) -/

/-- End an export as truncated: completion PARTIAL, record, ATTN_LOG, counter; pin and context go. -/
def Mod.truncateExport (m : Mod) (x : Export) : Mod :=
  let c := (m.ctx x.handle).getD (Ctx.fresh .snapshot .idle 0xFFFFFFFF x.ticket.port StreamDesc.none)
  let m := { m with step := { m.step with exports := m.step.exports.filter (fun y => y.handle != x.handle) } }
  let m := (m.setCtx x.handle Option.none).count Cnt.snapshotTrunc 1
  let m := m.report { cls := Rec.stream, attn := Attn.log, detail := Detail.streamTruncated,
                      payload := streamPayload x.handle 0xFFFFFFFF c.cause c.resume }
  m.complete x.ticket Op.snapshotExport Cls.part Detail.streamTruncated []

/-- The oldest export on a set. -/
def Mod.oldestExport (m : Mod) (set : Nat) : Option Export := m.step.exports.find? (fun x => x.set == set)

end Sys2Proof.Machine
end

