-- ==== Sys2Proof/Machine/Bank.lean ====
section
/-! DEFINITION. The bank's shared operations (spec 14): the bank region (R438), the image (R440, R441), the module's own
updates (R443, R444, R448, R449). -/
namespace Sys2Proof.Machine

/-! ### The bank region (spec 14, R438) -/

/-- X. -/
def Mod.bankX (m : Mod) : Nat := m.bank.snapGib * gib
/-- Q. -/
def Mod.bankQ (m : Mod) : Nat := (m.hbm.bankGib * gib - m.bankX) / (m.bank.slots * 64) * 64
def Mod.heldBase (m : Mod) (k : Nat) : Nat := m.hbm.bankRegion.lo + k * m.bankQ
def Mod.snapBase (m : Mod) : Nat := m.hbm.wideEnd - m.bankX

def Bank.held (b : Bank) (k : Nat) : Held := if k = 0 then b.held0 else b.held1
def Bank.setHeld (b : Bank) (k : Nat) (h : Held) : Bank := if k = 0 then { b with held0 := h } else { b with held1 := h }

/-- Held slots and the snapshot area become EMPTY (spec 14, R439). -/
def Bank.clearHeld (b : Bank) : Bank :=
  { b with held0 := Held.empty, held1 := Held.empty, snap := Held.empty, latest := none }

/-! ### The image (spec 14, R440, R441) -/

/-- The 128 bytes of an allocation record (spec 05, R160); base and scale_base as given. -/
def Alloc.bytes (a : Alloc) (base scaleBase : Nat) : Bytes :=
  let pclass : Nat := match a.pclass with
    | .scratch => 0 | .working => 1 | .state => 2 | .version => 3 | .bank => 4 | .snapshot => 5
  let space : Nat := match a.space with | .hbmWide => 0 | .hbmNear => 1 | .pool => 2 | .host => 3
  [1, 0] ++ leBytes 2 (pclass * 2 ^ 12 + space * 2 ^ 8 + a.rank * 2 ^ 5) ++ leBytes 4 a.tensorId ++ leBytes 8 base
    ++ leBytes 4 a.fmt ++ leBytes 4 a.scale.toNat ++ leBytes 4 a.invScale.toNat ++ leBytes 4 a.padBits
    ++ (a.extent.map (leBytes 4)).flatten ++ (a.stride.map (leBytes 8)).flatten ++ leBytes 8 scaleBase
    ++ leBytes 4 a.scalePitch ++ zeros 20

/-- layout_crc (spec 14, R441). -/
def Alloc.layoutCrc (a : Alloc) : Dword := crc64 (a.bytes 0 0)

/-- An entry of an image: id, kind, source slot, the record whose layout it names, the record whose bytes it holds, the
version slot it pins. -/
structure ImgEntry where
  id : Nat
  kind : Nat
  slot : Nat
  layout : Alloc
  src : Alloc
  pin : Option Pin

/-- The records of an image (spec 14, R440). -/
def Mod.imgEntries (m : Mod) : List ImgEntry :=
  match m.plan.plan with
  | none => []
  | some p =>
    ((p.allocs.filter (fun e => e.2.pclass == .state)).map (fun e => ⟨e.2.tensorId, 0, 0, e.2, e.2, none⟩))
    ++ p.vsets.filterMap (fun e =>
      match p.alloc e.2.slotRec, p.alloc (e.2.slotRec + m.curSlot e.1) with
      | some a0, some a => some ⟨a0.tensorId, 1, m.curSlot e.1, a0, a, some ⟨e.1, m.curSlot e.1⟩⟩
      | _, _ => none)

/-- Image offsets of the entries' data, in directory order, from an offset on. -/
def dataOffsets : Nat → List ImgEntry → List Nat
  | _, [] => []
  | o, e :: es => o :: dataOffsets (o + e.src.spanBytes) es

/-- image_bytes of a list of entries. -/
def imgBytes (es : List ImgEntry) : Nat := 64 + 64 * es.length + (es.map (fun e => e.src.spanBytes)).sum

/-- A directory entry (spec 14, R441). -/
def Mod.dirEntry (m : Mod) (e : ImgEntry) (offset : Nat) : Bytes :=
  leBytes 4 e.id ++ [BitVec.ofNat 8 e.kind, BitVec.ofNat 8 e.slot] ++ zeros 2 ++ leBytes 8 offset
    ++ leBytes 8 e.src.spanBytes ++ leBytes 8 (crc64 (m.rdBytes e.src.base e.src.spanBytes)).toNat
    ++ leBytes 8 e.layout.layoutCrc.toNat ++ zeros 24

def Mod.imgDir (m : Mod) (es : List ImgEntry) : Bytes :=
  ((es.zip (dataOffsets (64 + 64 * es.length) es)).map (fun x => m.dirEntry x.1 x.2)).flatten

/-- The image header (spec 14, R441); hdr_crc is taken with sealed 1. -/
def imgHeader (isSealed : Bool) (owner planId step serial bytes count : Nat) (dir : Bytes) : Bytes :=
  let head (x : Bool) : Bytes :=
    ascii "VKBANK09" ++ leBytes 2 1 ++ leBytes 2 owner ++ leBytes 2 0x240C ++ [BitVec.ofNat 8 (b2n x), 0]
      ++ leBytes 8 planId ++ leBytes 4 step ++ leBytes 4 serial ++ leBytes 8 bytes ++ leBytes 4 count ++ zeros 4
      ++ leBytes 8 (crc64 dir).toNat
  head isSealed ++ leBytes 8 (crc64 (head true)).toNat

/-- A header with its sealed byte set. -/
def sealHeader (h : Bytes) : Bytes := h.take 0x0E ++ [1] ++ h.drop 0x0F

/-! ### Own updates -/

/-- Send image bytes to an area as DATA packets of at most 3,824 bytes (spec 14, R445). -/
def dataPackets (dst area offset : Nat) (bs : Bytes) : List Sent :=
  ((chunks 3824 bs).zipIdx).map (fun e => Sent.bankData dst area (offset + 3824 * e.2) e.1)

/-- The bank partner's member word (spec 10, R313): the module in the adjacent tray of the pair. -/
def partnerWord : Nat := Config.position ^^^ 8

/-- The regions of a host pair. -/
def Bank.pairOf (b : Bank) (k : Nat) : Nat × Nat := if k = 0 then (b.p0a, b.p1a) else (b.p0b, b.p1b)

/-- H (spec 14, R448). -/
def splitAt (bytes : Nat) : Nat := 64 * ceilDiv bytes 128

/-- Write to a host region if it is ACTIVE, writable and covers the range. -/
def Mod.writeRegion (m : Mod) (region off : Nat) (bs : Bytes) : Mod :=
  let r := SMap.get Region.free m.regions region
  if r.state = .active ∧ r.write ∧ off + bs.length ≤ r.size ∧ bs ≠ [] then
    { m with out := { m.out with host := m.out.host ++ [⟨r.port, r.base + off, bs⟩] } }
  else m

/-- Write image bytes to a host pair by the split of R448. -/
def Mod.writePair (m : Mod) (pair bytes off : Nat) (bs : Bytes) : Mod :=
  let h := splitAt bytes
  let rs := m.bank.pairOf pair
  let n := h - off
  let m := m.writeRegion rs.1 off (bs.take n)
  m.writeRegion rs.2 (off + (bs.take n).length - h) (bs.drop n)

/-- A pair can take an image (spec 14, R448): both regions ACTIVE, on their ports, writable, covering their parts. -/
def Mod.pairOk (m : Mod) (pair bytes : Nat) : Bool :=
  let rs := m.bank.pairOf pair
  m.regionCovers 0 rs.1 0 (splitAt bytes) true && m.regionCovers 1 rs.2 0 (bytes - splitAt bytes) true

/-- A partner send runs. -/
def OwnUpd.isSending (u : OwnUpd) : Bool := match u.send with | .none => false | _ => true

/-- image_bytes of an update. -/
def OwnUpd.bytes (u : OwnUpd) : Nat := fieldAt u.header 0x20 8

/-- One way an own transfer ends early (spec 14, R449). -/
def Mod.bankEnded (m : Mod) (result : Nat) : Mod :=
  (({ m with bank := { m.bank with lastResult := result } }).attention Attn.bank).count Cnt.bankAborted 1

/-- Once neither destination is left, the update is over: hold and pins go. -/
def Mod.closeUpdate (m : Mod) : Mod :=
  match m.bank.upd with
  | some u => if !u.isSending && u.host.isNone then { m with bank := { m.bank with upd := none, pins := [] } } else m
  | none => m

def Mod.setSend (m : Mod) (p : SendPh) : Mod :=
  match m.bank.upd with
  | some u => { m with bank := { m.bank with upd := some { u with send := p } } }
  | none => m

def Mod.setHostCopy (m : Mod) (p : Option Nat) : Mod :=
  match m.bank.upd with
  | some u => { m with bank := { m.bank with upd := some { u with host := p } } }
  | none => m

/-- The ABORT of a running partner send. -/
def Mod.sendAbort (m : Mod) : Mod :=
  match m.bank.upd with
  | some u =>
    match u.send with
    | .sending a => m.send (.abort a u.serial.toNat)
    | .sealed a => m.send (.abort a u.serial.toNat)
    | _ => m
  | none => m

/-- End the partner send with a result of R449; `abort` where the module sends ABORT. -/
def Mod.endSend (m : Mod) (result : Nat) (abort : Bool) : Mod :=
  match m.bank.upd with
  | some u =>
    if u.isSending then
      (((if abort then m.sendAbort else m).setSend .none).bankEnded result).closeUpdate
    else m
  | none => m

/-- End every running own transfer with a result of R449. -/
def Mod.endUpdate (m : Mod) (result : Nat) (abort : Bool) : Mod :=
  match m.bank.upd with
  | some _ => ((((if abort then m.sendAbort else m).setSend .none).setHostCopy none).bankEnded result).closeUpdate
  | none => m

/-- Start an image update of a step (spec 14, R443, R444, R447 to R449). -/
def Mod.startUpdate (m : Mod) (step : Word) (toPartner toHost : Bool) : Mod :=
  let es : List ImgEntry := m.imgEntries
  let dir := m.imgDir es
  let bytes := imgBytes es
  let serial := m.bank.serial + 1
  let hdr := imgHeader false Config.position m.planId step.toNat serial.toNat bytes es.length dir
  let pair := if m.bank.pairs = 2 then serial.toNat % 2 else 0
  let sends := toPartner && m.bank.partner != 2
  let copies := toHost && m.pairOk pair bytes
  let offs := dataOffsets (64 + 64 * es.length) es
  let upd : OwnUpd :=
    { step := step, serial := serial, send := if sends then .opened else .none,
      host := if copies then some pair else none, header := hdr, dir := dir,
      extents := (es.zip offs).map (fun x => (x.2, x.1.src.base, x.1.src.spanBytes, x.1.pin)), read := [] }
  let m := { m with bank := { m.bank with
    serial := serial, upd := some upd, pins := es.filterMap (fun (e : ImgEntry) => e.pin) } }
  let m := if toHost && !copies then { m with bank := { m.bank with lastResult := 8 } } else m
  let m := if toPartner && !sends then m.bankEnded 2 else m
  let m := if sends then m.send (.bankOpen hdr) else m
  let m := if copies then m.writePair pair bytes 64 dir else m
  m.closeUpdate

/-- The extents that a running update has not read. -/
def OwnUpd.unread (u : OwnUpd) : List Span :=
  (u.extents.drop u.read.length).map (fun e => ⟨e.2.1, e.2.1 + e.2.2.1⟩)

/-- The commit hold (spec 14, R444): a staged write of the open round reaches an extent that is not read yet. -/
def Mod.commitHeld (m : Mod) : Bool :=
  match m.bank.upd with
  | some u => anyMeet (m.run.staged.map (fun w => ⟨w.addr, w.addr + w.data.length⟩)) u.unread
  | none => false

/-- Whether any bank transfer runs (spec 14, R442, R458). -/
def Mod.bankBusy (m : Mod) : Bool :=
  m.bank.upd.isSome || m.bank.relight.isSome || m.bank.pulled.isSome
  || m.bank.serves.any (fun s => s.active)
  || m.bank.held0.st == 1 || m.bank.held1.st == 1 || m.step.exports.any (fun x => x.partner)

end Sys2Proof.Machine
end

