-- ==== Sys2Proof/Machine/Operands.lean ====
section
/-! DEFINITION. Operand forms of plan work: reads of record elements through version handles (spec 12, R401), and stores
of FP32 results into a record with its conversion, masking and counts (spec 02, R76 to R81; spec 05, R161, R162,
R166). -/
namespace Sys2Proof.Machine

/-! ### Reads -/

/-- The record that an index names, as a round reads it; none for 0xFFFF or a tiling record. -/
def Mod.operand (m : Mod) (rec : Nat) : Option Alloc := if rec = 0xFFFF then none else m.readRec rec

/-- The stored value of element i (row-major) as FP32 (spec 02, R58, R61, R62). -/
def Mod.elem (m : Mod) (a : Alloc) (i : Nat) : F32 := F32.ofNum (m.value a (i / a.cols) (i % a.cols))

/-- FP32 elements [first, first + n) of a record, row-major. -/
def Mod.elems (m : Mod) (a : Alloc) (first n : Nat) : List F32 := (List.range n).map (fun i => m.f32El a (first + i))

/-! ### Stores -/

/-- What a store does: its writes in order, and what it adds to the counts of R81. -/
structure Stored where
  writes : List (Nat × Bytes)
  nonfinite : Nat
  saturated : Nat

def Stored.none : Stored := ⟨[], 0, 0⟩

def Stored.join (a b : Stored) : Stored := ⟨a.writes ++ b.writes, a.nonfinite + b.nonfinite, a.saturated + b.saturated⟩

def Stored.all (l : List Stored) : Stored := l.foldl Stored.join Stored.none

/-- One element of a format other than FP4B; nothing outside the logical extents (spec 05, R166). -/
def storeCell (a : Alloc) (w : FmtWord) (key : SrKey) (q c idx : Nat) (x : F32) : Stored :=
  if c < a.cols ∧ q < a.rows then
    let v := convert w (key.by w idx) a.invScale x
    ⟨[(a.addr q c, leBytes (w.fmt.width / 8) v.code)], b2n v.nonfinite, b2n v.saturated⟩
  else Stored.none

/-- Two 4-bit codes to a byte, the lower index in bits [3:0] (spec 02, R61). -/
def packNibbles : List Nat → Bytes
  | a :: b :: l => BitVec.ofNat 8 (a + 16 * b) :: packNibbles l
  | [a] => [BitVec.ofNat 8 a]
  | [] => []

/-- One FP4B block at columns [c, c + 32), its elements inside the logical extent (spec 02, R61, R77). -/
def storeBlock (a : Alloc) (w : FmtWord) (key : SrKey) (q c idx : Nat) (xs : List F32) : Stored :=
  let xs := xs.take (a.cols - c)
  if q < a.rows ∧ xs ≠ [] then
    let b := toFp4 (fun i => key.by w (idx + i)) xs
    ⟨[(a.addr q c, packNibbles b.codes), (a.scaleAddr q c, [BitVec.ofNat 8 b.scale])], b.nonfinite, b.saturated⟩
  else Stored.none

/-- Consecutive elements of row q from column c on; `idx` is the element index of the first for R79. -/
def storeRow (a : Alloc) (w : FmtWord) (key : SrKey) (q c idx : Nat) (xs : List F32) : Stored :=
  if w.fmt = .fp4b then
    Stored.all (((chunks 32 xs).zipIdx).map (fun e => storeBlock a w key q (c + 32 * e.2) (idx + 32 * e.2) e.1))
  else
    Stored.all (xs.zipIdx.map (fun e => storeCell a w key q (c + e.2) (idx + e.2) e.1))

/-- Rows of a rectangle: row i goes to record row q + i, its first element has index idx + i · pitch. -/
def storeRows (a : Alloc) (w : FmtWord) (key : SrKey) (q c idx pitch : Nat) (rows : List (List F32)) : Stored :=
  Stored.all (rows.zipIdx.map (fun e => storeRow a w key (q + e.2) c (idx + e.2 * pitch) e.1))

/-- FP32 elements from row-major index `first` on, unrounded. -/
def storeF32 (a : Alloc) (first : Nat) (xs : List F32) : List (Nat × Bytes) :=
  mergeRuns (xs.zipIdx.map (fun e =>
    (a.addr ((first + e.2) / a.cols) ((first + e.2) % a.cols), leBytes 4 e.1.toNat)))

/-- Write what was stored, by each write's path, and count it. -/
def Mod.store (m : Mod) (s : Stored) : Mod :=
  (m.roundWrites (mergeRuns s.writes)).tallyR81 s.nonfinite s.saturated

/-- The generator's inputs for a tensor of the plan (spec 02, R79). -/
def Mod.srKey (m : Mod) (tensor : Nat) : SrKey :=
  ⟨(m.plan.plan.map (·.seed)).getD 0, tensor, m.step.reg.step.toNat⟩

end Sys2Proof.Machine
end

