-- ==== Sys2Proof/Machine/Reports.lean ====
section
/-! DEFINITION. Suspect records at their reporter (spec 10, R343 to R347), ROUND records and CONDITION records (spec 13,
R410), drops under R128. -/
namespace Sys2Proof.Machine

/-! ### Suspect records -/

/-- Records merge when suspect, class and round serial are equal (spec 10, R346). -/
def suspectSame (a b : Suspect) : Bool :=
  decide (a.suspect = b.suspect) && decide (a.cls = b.cls) && decide (a.serial = b.serial)

/-- The merge: counts add, saturating; the smallest first_time stays with its reporter, ties to the lower word. -/
def suspectMerge (a b : Suspect) : Suspect :=
  let first := decide (b.firstTime < a.firstTime) || (a.firstTime == b.firstTime && decide (b.firstReporter < a.firstReporter))
  { a with count := min 0xFFFF (a.count + b.count),
           firstTime := if first then b.firstTime else a.firstTime,
           firstReporter := if first then b.firstReporter else a.firstReporter }

/-- Hold a record, merged into one held already (spec 10, R346). -/
def Mod.holdSuspect (m : Mod) (r : Suspect) : Mod :=
  if m.fab.suspects.any (fun x => suspectSame x r) then
    { m with fab := { m.fab with suspects := updFirst (fun x => suspectSame x r) (fun x => suspectMerge x r) m.fab.suspects } }
  else { m with fab := { m.fab with suspects := m.fab.suspects ++ [r] } }

/-- The round serial at detection; 0 outside rounds. -/
def Mod.reportSerial (m : Mod) : Word := if m.run.phase.isOpen then m.run.serial else 0

/-- The module sees a peer misbehave (spec 10, R343): its record, counted in CNT_FABRIC_SUSPECT. -/
def Mod.raiseSuspect (m : Mod) (who : Nat) (cls : SuspectClass) (detail : Nat) : Mod :=
  (m.holdSuspect ⟨who, cls, m.reportSerial, m.fabricTime, Config.position, 1, detail⟩).count Cnt.fabricSuspect 1

def Mod.raiseSuspects (m : Mod) (who : List Nat) (cls : SuspectClass) (detail : Nat) : Mod :=
  who.foldl (fun m w => m.raiseSuspect w cls detail) m

/-! ### ROUND records (spec 13, R410) -/

/-- The payload: round_no, cause, the index of the barrier, set, route or collective, up to eight missing members. -/
def roundPayload (round cause index : Nat) (missing : List Nat) : Bytes :=
  leBytes 2 round ++ leBytes 2 cause ++ leBytes 4 index
    ++ ((missing.take 8).map (leBytes 2)).flatten ++ (if missing.length < 8 then leBytes 2 0xFFFF else [])

/-- A wait past its timeout: the record names what waits and who is missing; ATTN_FAULT. -/
def Mod.timeoutRecord (m : Mod) (detail index : Nat) (missing : List Nat) : Mod :=
  m.report { cls := Rec.round, attn := Attn.fault, detail := detail,
             payload := roundPayload m.plan.round 0 index missing }

/-! ### CONDITION records (spec 04, R138; spec 13, R410) -/

def Mod.conditionRecord (m : Mod) (n : Noted) : Mod :=
  let c := n.cond
  m.report { cls := Rec.condition, attn := Attn.log, detail := c.detail, since := some n.time,
             payload := leBytes 4 c.index ++ leBytes 2 m.plan.round ++ leBytes 2 c.unit ++ leBytes 8 c.elems
               ++ leBytes 4 c.row ++ leBytes 4 c.first }

/-! ### Messages under R128 -/

/-- A message or ember flit is dropped and counted: with the round's event counts while one is open, waits or opens,
otherwise at once (spec 04, R128, R140). -/
def Mod.dropEmber (m : Mod) : Mod :=
  if m.run.phase = .none then m.count Cnt.emberDropped 1 else m.tallyEvent Cnt.emberDropped 1

/-- Whether a message belongs to the open round and its sender to the settle set (spec 04, R128), its attempt apart. -/
def Mod.ownRound (m : Mod) (x : EmberMsg) : Bool :=
  m.run.phase.isOpen && decide (x.planIdLo = BitVec.ofNat 32 m.planId) && decide (x.setId = m.setId)
  && decide (x.serial = m.run.serial) && decide (x.sender ∈ m.others)

end Sys2Proof.Machine
end

