-- ==== Sys2Proof/Machine/Packets.lean ====
section
/-! DEFINITION. Data-class packets (spec 10, R322, R325, R337; spec 06, R189): what a module sends into a round, and how a
received MEMORY packet is written. -/
namespace Sys2Proof.Machine

/-! ### Sending -/

/-- Send an ember packet: it counts for the fence and in CNT_EMBER_SENT by its payload bytes (spec 04, R140). -/
def Mod.sendPacket (m : Mod) (dst : Nat) (x : Sent) (bytes : Nat) : Mod :=
  (m.sendData dst x).tallyEvent Cnt.emberSent bytes

/-- Send the signals of the open round that name a piece of traffic (spec 10, R332): kind 1 STREAM, 3 COLLECTIVE. -/
def Mod.sendSignals (m : Mod) (kind ref : Nat) : Mod :=
  match m.plan.plan, m.hdr with
  | some p, some r =>
    ((p.signalsOf r).filter (fun s => s.kind == kind && s.ref == ref)).foldl (fun m s => m.sendFlag s.member s.flag) m
  | _, _ => m

/-! ### Receiving -/

/-- A range lies in one SCRATCH or WORKING record of the plan. -/
def Plan.takesWrite (p : Plan) (s : Span) : Bool :=
  p.allocs.any (fun e => (e.2.pclass == .scratch || e.2.pclass == .working) && e.2.spans.any s.within)

/-- A flag message of the attempt whose fence is reached (spec 10, R337); one that is held for a later attempt waits. -/
def Mod.flagDue (m : Mod) (f : FlagMsg) : Bool :=
  decide (f.serial = m.run.serial) && decide (f.attempt = m.run.attempt)
  && decide (f.fence ≤ SMap.get 0 m.fab.seenFrom f.sender)

/-- Apply the flag messages whose fence is reached. -/
def Mod.applyFlags (m : Mod) : Mod :=
  let due := m.fab.flagWait.filter m.flagDue
  let m := { m with fab := { m.fab with flagWait := m.fab.flagWait.filter (fun f => !m.flagDue f) } }
  due.foldl (fun m f => m.incFlagFrom f.sender f.flag f.inc) m

/-- Count a packet of a sender as visible or dropped (spec 10, R337). -/
def Mod.seePacket (m : Mod) (src : Nat) : Mod :=
  ({ m with fab := { m.fab with seenFrom := SMap.upd 0 m.fab.seenFrom src (fun n => n + 1) } }).applyFlags

/-- Write a received MEMORY packet (spec 06, R189): by the module's own path, or dropped as in R123 outside its SCRATCH
and WORKING records. -/
def Mod.takeMemory (m : Mod) (src : Nat) (parts : List (Nat × Bytes)) : Mod :=
  let ok := match m.plan.plan with
    | some p => parts.all (fun w => p.takesWrite ⟨w.1, w.1 + w.2.length⟩)
    | none => false
  let m :=
    if !ok then (m.tallyEvent Cnt.emberBlocked 1).markDouse Douse.emberBlocked
    else if m.run.phase.isOpen then m.roundWrites parts
    else parts.foldl (fun m w => m.wr w.1 w.2) m
  m.seePacket src

end Sys2Proof.Machine
end

