-- ==== Sys2Proof/Machine/Collectives.lean ====
section
/-! DEFINITION. Collectives (spec 11): ranks and the tree (R356, R357), reduce-scatter by stages (R359 to R361), gathering
(R362), empty contributions (R364), the local operations (R365 to R367), NORM_FINITE (R369), and the acceptance of ember
packets (spec 10, R322, R340). -/
namespace Sys2Proof.Machine

/-! ### Ranks and the tree -/

/-- The tree of R357: the largest power of two below the length goes left. `fuel` bounds the depth. -/
def treeSum : Nat → List F32 → F32
  | 0, l => l.headD F32.zero
  | n + 1, l =>
    match l with
    | [] => F32.zero
    | [v] => v
    | l =>
      let left := 2 ^ Nat.log2 (l.length - 1)
      F32.add (treeSum n (l.take left)) (treeSum n (l.drop left))

def collTree (l : List F32) : F32 := treeSum l.length l

/-- A rank's coordinates (ri, ti, si), and back (spec 11, R356). -/
def Coll.si (c : Coll) (q : Nat) : Nat := q % c.a
def Coll.ti (c : Coll) (q : Nat) : Nat := q / c.a % c.b
def Coll.ri (c : Coll) (q : Nat) : Nat := q / (c.a * c.b)
def Coll.rank (c : Coll) (ri ti si : Nat) : Nat := (ri * c.b + ti) * c.a + si

/-- P. -/
def Coll.p (c : Coll) : Nat := c.a * c.b * c.c

/-- Group size of a stage, the slot of a rank in it, and the rank at slot k of the group of rank q (spec 11, R359). -/
def Coll.size (c : Coll) (s : Nat) : Nat := if s = 0 then c.a else if s = 1 then c.b else c.c
def Coll.slot (c : Coll) (s q : Nat) : Nat := if s = 0 then c.si q else if s = 1 then c.ti q else c.ri q
def Coll.peer (c : Coll) (s q k : Nat) : Nat :=
  if s = 0 then c.rank (c.ri q) (c.ti q) k
  else if s = 1 then c.rank (c.ri q) k (c.si q)
  else c.rank k (c.ti q) (c.si q)

/-- The shards that rank q receives in a stage, ascending (spec 11, R359). -/
def Coll.gets (c : Coll) (s q : Nat) : List Nat :=
  (List.range c.p).filter (fun x =>
    c.si x == c.si q && (s == 0 || c.ti x == c.ti q) && (decide (s < 2) || c.ri x == c.ri q))

/-- Stages that are not skipped. -/
def Coll.stages (c : Coll) : List Nat := [0, 1, 2].filter (fun s => 1 < c.size s)
def Coll.firstStage (c : Coll) : Nat := c.stages.headD 3
def Coll.nextStage (c : Coll) (s : Nat) : Option Nat := c.stages.find? (fun x => s < x)

/-- Chunks of a shard. -/
def Coll.shardChunks (c : Coll) : Nat := c.shardElems / 896

/-- This module's rank, and the member word of a rank. -/
def Plan.rankIn (p : Plan) (c : Coll) : Nat := (p.members c.memberSet).findIdx (fun x => x == Config.position)
def Plan.wordOf (p : Plan) (c : Coll) (q : Nat) : Nat := (p.members c.memberSet).getD q 0xFFFF

/-! ### State of a collective -/

def Mod.coll (m : Mod) (i : Nat) : CollRun := SMap.get CollRun.idle m.run.colls i

def Mod.setColl (m : Mod) (i : Nat) (f : CollRun → CollRun) : Mod :=
  { m with run := { m.run with colls := SMap.upd CollRun.idle m.run.colls i f } }

/-- The descriptor i, if the open round runs it. -/
def Mod.collDesc (m : Mod) (i : Nat) : Option Coll :=
  match m.plan.plan, m.hdr with
  | some p, some r => ((p.collsOf r).find? (fun e => e.1 == i)).map (·.2)
  | _, _ => none

def gotKey (stage chunk slot : Nat) : Nat := stage * 2 ^ 24 + chunk * 2 ^ 8 + slot

def CollRun.held (x : CollRun) (stage chunk slot : Nat) : Option Contribution :=
  SMap.get none x.got (gotKey stage chunk slot)

/-- Chunks summed, by key. -/
def sumKey (stage chunk : Nat) : Nat := stage * 2 ^ 16 + chunk

/-- An EMPTY contribution: 896 values of +0 (spec 11, R364). -/
def emptyChunk : Contribution := ⟨List.replicate 896 F32.zero, 0, true⟩

/-! ### The stage buffer (spec 11, R360) -/

/-- Bytes of a stage's region. -/
def Coll.regionBytes (c : Coll) (s q : Nat) : Nat := c.size s * ((c.gets s q).length * c.shardElems * 4)

/-- Where chunk j of slot k of a stage lies in the stage record. -/
def Coll.stageAt (c : Coll) (s q j k : Nat) : Nat :=
  (((c.stages.filter (fun x => x < s)).map (fun x => c.regionBytes x q)).sum) + (j * c.size s + k) * 3584

/-- Store a chunk in the stage buffer. -/
def Mod.stageChunk (m : Mod) (c : Coll) (q s j k : Nat) (v : List F32) : Mod :=
  match m.operand c.stageRec with
  | some a => m.roundWrite (a.base + c.stageAt s q j k) ((v.map (fun x => leBytes 4 x.toNat)).flatten)
  | none => m

/-! ### Gathering (spec 11, R362) -/

/-- FP32 elements of a collective's destination, row-major, its own writes of the round included. -/
def Mod.sums (m : Mod) (a : Alloc) (first n : Nat) : List F32 :=
  (List.range n).map (fun i => BitVec.ofNat 32 (m.rdStagedNat (a.addr ((first + i) / a.cols) ((first + i) % a.cols)) 4))

/-- The chunk at index g of a gathered destination. -/
def Mod.dstChunk (m : Mod) (a : Alloc) (g : Nat) : List F32 := m.sums a (g * 896) 896

/-- The ranks whose shards a module holds before it sends a gather stage: its own before stage 2, and so on. -/
def Coll.slice (c : Coll) (s q : Nat) : List Nat := if s = 2 then [q] else c.gets (s + 1) q

/-- Send one chunk to a member (spec 11, R362, R364): EMPTY when every value is +0. The packet names the place of the
chunk's first element and carries its 896 values close together. -/
def Mod.sendChunk (m : Mod) (dst addr : Nat) (v : List F32) : Mod :=
  if v.all (fun x => x == F32.zero) then
    (m.sendPacket dst (.data dst true addr (zeros 4)) 4).tally Cnt.collEmpty 1
  else m.sendPacket dst (.data dst true addr ((v.map (fun x => leBytes 4 x.toNat)).flatten)) (4 * v.length)

/-- Whether every chunk of a list of shards is present. -/
def CollRun.holds (x : CollRun) (c : Coll) (shards : List Nat) : Bool :=
  shards.all (fun q => (List.range c.shardChunks).all (fun j => (q * c.shardChunks + j) ∈ x.here))

/-- Send a gather stage: the whole current slice to every other member of the group. -/
def Mod.gatherStage (m : Mod) (p : Plan) (i s : Nat) (c : Coll) (a : Alloc) : Mod :=
  let q := p.rankIn c
  let others := ((List.range (c.size s)).map (c.peer s q)).filter (fun x => x != q)
  let chunks := ((c.slice s q).map (fun x => (List.range c.shardChunks).map (fun j => x * c.shardChunks + j))).flatten
  let m := others.foldl (fun m d => chunks.foldl (fun m g =>
    m.sendChunk (p.wordOf c d) (a.addr (g * 896 / a.cols) (g * 896 % a.cols)) (m.dstChunk a g)) m) m
  m.setColl i (fun x => { x with sent := x.sent ++ [s] })

/-- Send every gather stage whose slice is complete, from stage 2 down. -/
def Mod.gather (m : Mod) (i : Nat) (c : Coll) : Mod :=
  match m.plan.plan, m.operand c.dstRec with
  | some p, some a =>
    [2, 1, 0].foldl (fun m s =>
      if s ∈ c.stages ∧ s ∉ (m.coll i).sent ∧ (m.coll i).holds c (c.slice s (p.rankIn c)) then m.gatherStage p i s c a
      else m) m
  | _, _ => m

/-- Chunks of a gathered destination that a range of addresses covers whole. -/
def Alloc.chunksIn (a : Alloc) (s : Span) : List Nat :=
  (List.range (a.elems / 896)).filter (fun g =>
    decide (s.lo ≤ a.addr (g * 896 / a.cols) (g * 896 % a.cols))
    && decide (a.addr ((g * 896 + 895) / a.cols) ((g * 896 + 895) % a.cols) + 4 ≤ s.hi))

/-- Collectives of the round whose destination is gathered. -/
def Coll.gathers (c : Coll) : Bool := c.op == .allGather || c.op == .allReduce

/-- The chunk of a gathered destination that starts at an address. -/
def Mod.chunkAt (m : Mod) (addr : Nat) : Option (Alloc × Nat) :=
  match m.plan.plan, m.hdr with
  | some p, some r =>
    ((p.collsOf r).filter (fun e => e.2.gathers)).findSome? (fun e =>
      match m.operand e.2.dstRec with
      | some a =>
        ((List.range (a.elems / 896)).find? (fun g => a.addr (g * 896 / a.cols) (g * 896 % a.cols) == addr)).map (fun g => (a, g))
      | none => none)
  | _, _ => none

/-- What a MEMORY packet writes. A chunk of a gathered destination goes to its elements' places, row by row; an EMPTY packet
at a chunk's start, 4 bytes of zero, stands for 896 values of +0 (spec 11, R362, R364). -/
def Mod.packetParts (m : Mod) (addr : Nat) (bs : Bytes) : List (Nat × Bytes) :=
  match m.chunkAt addr with
  | some (a, g) =>
    if bs = zeros 4 then storeF32 a (g * 896) (List.replicate 896 F32.zero)
    else if bs.length = 3584 then storeF32 a (g * 896) ((chunks 4 bs).map (fun b => BitVec.ofNat 32 (leNat b)))
    else [(addr, bs)]
  | none => [(addr, bs)]

/-- From a packet's address to the end of what it writes. -/
def partsSpan (addr : Nat) (parts : List (Nat × Bytes)) : Span :=
  ⟨addr, match parts.getLast? with | some w => w.1 + w.2.length | none => addr⟩

/-- A MEMORY packet that lands in a gathered destination: its chunks are present, and later stages may go. -/
def Mod.noteGather (m : Mod) (s : Span) : Mod :=
  match m.plan.plan, m.hdr with
  | some p, some r =>
    ((p.collsOf r).filter (fun e => e.2.gathers)).foldl (fun m e =>
      match m.operand e.2.dstRec with
      | some a =>
        if a.spans.any s.within then
          let m := m.setColl e.1 (fun x => { x with here := x.here ++ (a.chunksIn s).filter (fun g => g ∉ x.here) })
          if (m.coll e.1).started then m.gather e.1 e.2 else m
        else m
      | none => m) m
  | _, _ => m

/-! ### Reduce-scatter (spec 11, R359 to R361) -/

/-- Send a contribution to the member at slot k of a stage, or keep it in the module's own slot. -/
def Mod.contribute (m : Mod) (p : Plan) (i : Nat) (c : Coll) (s j : Nat) (dest : Nat) (v : Contribution) : Mod :=
  let q := p.rankIn c
  if dest = q then m.setColl i (fun x => { x with got := SMap.put none x.got (gotKey s j (c.slot s q)) (some v) })
  else
    let dst := p.wordOf c dest
    let m := m.sendPacket dst (.sum dst i (s * 16384 + j) (c.slot s q) (if v.empty then [] else v.values))
      (if v.empty then 4 else 4 * v.values.length)
    let m := m.tally Cnt.collChunks 1
    if v.empty then m.tally Cnt.collEmpty 1 else m

/-- The sum of a chunk whose slots are all here (spec 11, R361, R364). -/
def CollRun.sumOf (x : CollRun) (c : Coll) (s j : Nat) : Option Contribution :=
  let slots := (List.range (c.size s)).map (x.held s j)
  if slots.all Option.isSome then
    let vs := slots.filterMap id
    if vs.all (·.empty) then some emptyChunk
    else some ⟨(List.range 896).map (fun e => collTree (vs.map (fun v => v.values.getD e F32.zero))), 0, false⟩
  else none

/-- Write a stage sum on: into the next stage, or into the destination after the last. `q'` is the shard the chunk
belongs to, `part` its chunk within the shard. -/
def Mod.passSum (m : Mod) (p : Plan) (i : Nat) (c : Coll) (s q' part : Nat) (v : Contribution) : Mod :=
  let q := p.rankIn c
  match c.nextStage s with
  | some t =>
    let dest := c.peer t q (c.slot t q')
    let j := ((c.gets t dest).findIdx (fun x => x == q')) * c.shardChunks + part
    let m := if dest = q then m.stageChunk c q t j (c.slot t q) v.values else m
    m.contribute p i c t j dest v
  | none =>
    match m.operand c.dstRec with
    | some a =>
      let first := (if c.op == .allReduce then q * c.shardElems else 0) + part * 896
      let m := m.roundWrites (storeF32 a first v.values)
      if c.op == .allReduce then
        m.setColl i (fun x => { x with here := x.here ++ [q * c.shardChunks + part] })
      else m
    | none => m

/-- Sum a chunk if all its slots are here, and pass the sum on; sums that this completes in later stages follow. -/
def Mod.trySum : Nat → Mod → Plan → Nat → Coll → Nat → Nat → Mod
  | 0, m, _, _, _, _, _ => m
  | fuel + 1, m, p, i, c, s, j =>
    if sumKey s j ∈ (m.coll i).summed then m
    else match (m.coll i).sumOf c s j with
      | none => m
      | some v =>
        let q := p.rankIn c
        let q' := (c.gets s q).getD (j / c.shardChunks) 0
        let part := j % c.shardChunks
        let m := m.setColl i (fun x => { x with summed := x.summed ++ [sumKey s j] })
        let m := m.passSum p i c s q' part v
        match c.nextStage s with
        | some t =>
          if c.peer t q (c.slot t q') = q then
            Mod.trySum fuel m p i c t (((c.gets t q).findIdx (fun x => x == q')) * c.shardChunks + part)
          else m
        | none => if c.op == .allReduce then m.gather i c else m

/-- Start the stages of a reduction: this module's own contribution to every member of its first group, chunk by
chunk. -/
def Mod.startReduce (m : Mod) (p : Plan) (i : Nat) (c : Coll) (empty : Bool) : Mod :=
  let q := p.rankIn c
  let s := c.firstStage
  match m.operand c.srcRec with
  | none => m
  | some a =>
    (List.range (c.size s)).foldl (fun m k =>
      let dest := c.peer s q k
      ((c.gets s dest).zipIdx).foldl (fun m sh =>
        (List.range c.shardChunks).foldl (fun m part =>
          let j := sh.2 * c.shardChunks + part
          let v : Contribution :=
            if empty then emptyChunk else ⟨m.elems a (sh.1 * c.shardElems + part * 896) 896, 0, false⟩
          let m := m.contribute p i c s j dest v
          if dest = q then Mod.trySum 3 m p i c s j else m) m) m) m

/-! ### Local operations -/

/-- TIE_SUM (spec 11, R365). -/
def tieSum (ins : List (List F32)) (subLast : Bool) : List F32 :=
  let n := ins.length
  (ins.zipIdx).foldl (fun acc e =>
    if e.2 = 0 then e.1
    else (acc.zip e.1).map (fun x =>
      if subLast ∧ e.2 = n - 1 then F32.sub x.1 x.2 else F32.add x.1 x.2)) []

/-- An element of SEED (spec 11, R366). -/
def seedElem (seed : Dword) (tensor e : Nat) : F32 :=
  let u : Nat := (srBits seed tensor 0 e).toNat / 2 ^ 40
  let v : Int := (u : Int) - 8388608
  F32.ofNum (.fin (decide (v < 0)) v.natAbs (-23))

/-- dot of two columns (spec 11, R367). -/
def dotCol (x y : List F32) : F32 := F32.chunkSum ((x.zip y).map (fun e => F32.mul e.1 e.2))

/-- ORTHO on columns (spec 11, R367): the orthonormal columns, and how many were set to +0. -/
def orthoCols : List (List F32) → List (List F32) → Nat → List (List F32) × Nat
  | ready, [], z => (ready, z)
  | ready, col :: cols, z =>
    let col := ready.foldl (fun col r =>
      let d := F32.neg (dotCol r col)
      (r.zip col).map (fun e => F32.fma d e.1 e.2)) col
    let s := dotCol col col
    if F32.isZero s || !F32.isFinite s then
      orthoCols (ready ++ [col.map (fun _ => F32.zero)]) cols (z + 1)
    else
      let t := F32.sqrt s
      orthoCols (ready ++ [col.map (fun v => F32.div v t)]) cols z

/-! ### NORM_FINITE (spec 11, R369) -/

/-- Sum of squares of a shard. -/
def shardSquares (xs : List F32) : F32 := F32.chunkSum (xs.map (fun x => F32.mul x x))

def sat32 (n : Nat) : Nat := min n 0xFFFFFFFF

/-- The measured elements of one collective at this module. -/
def Mod.measured (m : Mod) (p : Plan) (c : Coll) : List F32 :=
  match m.operand c.dstRec with
  | some a =>
    let first := if c.op == .allReduce then p.rankIn c * c.shardElems else 0
    m.sums a first c.shardElems
  | none => []

/-- The local pair. -/
def Mod.normPair (m : Mod) (p : Plan) (c : Coll) : Contribution :=
  let shards := (List.range c.normCount).filterMap (fun k => p.colls[c.normFirst + k]?)
  let xs := shards.map (m.measured p)
  ⟨[F32.chain (xs.map shardSquares)], sat32 ((xs.map (fun l => (l.filter (fun x => !F32.isFinite x)).length)).sum), false⟩

/-- The 16 bytes of the result. -/
def normBytes (v : Contribution) : Bytes :=
  let h := v.values.headD F32.zero
  leBytes 4 h.toNat ++ leBytes 4 v.count ++ leBytes 4 (F32.sqrt h).toNat ++ zeros 4

/-- Send the pair to every other member of a stage's group and keep it in the module's own slot. -/
def Mod.sendPair (m : Mod) (p : Plan) (i : Nat) (c : Coll) (s : Nat) (v : Contribution) : Mod :=
  let q := p.rankIn c
  let m := m.setColl i (fun x => { x with got := SMap.put none x.got (gotKey s 0 (c.slot s q)) (some v) })
  (((List.range (c.size s)).map (c.peer s q)).filter (fun x => x != q)).foldl (fun m dest =>
    let dst := p.wordOf c dest
    (m.sendPacket dst (.sum dst i (s * 16384) (c.slot s q) (v.values ++ [BitVec.ofNat 32 v.count])) 8).tally
      Cnt.collChunks 1) m

/-- Combine the pairs of a stage once all are here, and go on to the next stage or write the result. -/
def Mod.tryNorm : Nat → Mod → Plan → Nat → Coll → Nat → Mod
  | 0, m, _, _, _, _ => m
  | fuel + 1, m, p, i, c, s =>
    let slots := (List.range (c.size s)).map ((m.coll i).held s 0)
    if sumKey s 0 ∈ (m.coll i).summed ∨ !(slots.all Option.isSome) then m
    else
      let vs := slots.filterMap id
      let v : Contribution :=
        ⟨[collTree (vs.map (fun x => x.values.headD F32.zero))], sat32 ((vs.map (·.count)).sum), false⟩
      let m := m.setColl i (fun x => { x with summed := x.summed ++ [sumKey s 0] })
      match c.nextStage s with
      | some t => Mod.tryNorm fuel (m.sendPair p i c t v) p i c t
      | none =>
        match m.operand c.dstRec with
        | some a => m.roundWrite a.base (normBytes v)
        | none => m

/-! ### Receiving a SUM packet (spec 10, R340; spec 11, R361, R363) -/

/-- Store a contribution by its key, and go on with what it completes. `values` is empty for an EMPTY packet. -/
def Mod.takeSum (m : Mod) (src i key slot : Nat) (values : List F32) : Mod :=
  match m.plan.plan, m.collDesc i with
  | some p, some c =>
    let s := key / 16384
    let j := key % 16384
    if ((m.coll i).held s j slot).isSome then
      ((m.tallyEvent Cnt.collDup 1).raiseSuspect src .badPacket 0).markDouse Douse.fence
    else
      let norm := c.op == .normFinite
      let v : Contribution :=
        if norm then ⟨values.take 1, (values.getD 1 0).toNat, false⟩
        else if values = [] then emptyChunk else ⟨values, 0, false⟩
      let m := m.setColl i (fun x => { x with got := SMap.put none x.got (gotKey s j slot) (some v) })
      if norm then (if (m.coll i).started then Mod.tryNorm 3 m p i c s else m)
      else Mod.trySum 3 (m.stageChunk c (p.rankIn c) s j slot v.values) p i c s j
  | _, _ => m

/-! ### Acceptance of ember packets (spec 10, R322) -/

/-- The serial that the next gated or opened round takes (spec 04, R128). -/
def Mod.nextRoundSerial (m : Mod) : Word := if m.plan.reopen then m.run.serial else m.plan.opened + 1

/-- A whole packet with its ember bit set: taken, held or dropped. -/
inductive Take where
  | now | hold | drop
  deriving DecidableEq, Repr

def Mod.takeOf (m : Mod) (k : Packet) : Take :=
  let isOpen := m.run.phase.isOpen && m.run.phase != .doused && m.run.phase != .replay
  if isOpen && decide (k.attempt = m.run.attempt) && decide (k.serialLo = m.run.serial.toNat % 16) then
    if k.src ∈ m.others then .now else .drop
  else if m.run.phase = .replay ∧ k.attempt = m.curAttempt ∧ k.serialLo = m.run.serial.toNat % 16 then .hold
  else if k.attempt = 0 ∧ k.serialLo = m.nextRoundSerial.toNat % 16 ∧ m.plan.st = .running then .hold
  else .drop

/-- The contribution that a REDUCTION packet carries (spec 11, R361, R364, R369): EMPTY for 4 bytes of zero. -/
def packetValues (bs : Bytes) : List F32 :=
  if bs.length = 4 then [] else (chunks 4 bs).map (fun b => BitVec.ofNat 32 (leNat b))

/-- A SUM packet that names a slot of a chunk which this module sums, and has the length of such a contribution (spec 10,
R340; spec 11, R359, R361, R364, R369). -/
def Mod.sumFits (m : Mod) (k : Packet) : Bool :=
  match m.plan.plan, m.collDesc (bits k.addr 31 0) with
  | some p, some c =>
    let s := bits k.addr 47 32 / 16384
    let j := bits k.addr 47 32 % 16384
    let n := k.data.length
    decide (s ∈ c.stages) && decide (bits k.addr 55 48 < c.size s)
    && (match c.op with
      | .reduceScatter => decide (j < (c.gets s (p.rankIn c)).length * c.shardChunks) && (n == 3584 || k.data == zeros 4)
      | .allReduce => decide (j < (c.gets s (p.rankIn c)).length * c.shardChunks) && (n == 3584 || k.data == zeros 4)
      | .normFinite => j == 0 && n == 8
      | _ => false)
  | _, _ => false

/-- Drop a malformed packet: counted, its sender reported; its packet count advances (spec 10, R325, R337, R343). -/
def Mod.dropPacket (m : Mod) (k : Packet) : Mod :=
  let m := (m.count Cnt.fabricDropped 1).raiseSuspect k.src .badPacket 0
  if k.ember && m.takeOf k == .now then m.seePacket k.src else m

/-- Act on an accepted packet by its target (spec 10, R325). -/
def Mod.takePacket (m : Mod) (k : Packet) : Mod :=
  match k.target with
  | .memory =>
    let parts := m.packetParts k.addr k.data
    (m.takeMemory k.src parts).noteGather (partsSpan k.addr parts)
  | .reduction =>
    if m.sumFits k then
      (m.takeSum k.src (bits k.addr 31 0) (bits k.addr 47 32) (bits k.addr 55 48) (packetValues k.data)).seePacket k.src
    else m.dropPacket k
  | _ => m

/-- A packet with its ember bit set arrives (spec 10, R322). -/
def Mod.acceptEmber (m : Mod) (k : Packet) : Mod :=
  match m.takeOf k with
  | .now => m.takePacket k
  | .hold => { m with fab := { m.fab with early := m.fab.early ++ [k] } }
  | .drop => m.dropEmber

/-- At an open and at a replay the packets and flag messages held for the round are taken; others are dropped. -/
def Mod.releaseEarly (m : Mod) : Mod :=
  let held := m.fab.early
  let flags := m.fab.flagWait.filter (fun f =>
    f.serial == m.run.serial && f.attempt == m.run.attempt && decide (f.sender ∈ m.others))
  let lost := m.fab.flagWait.length - flags.length
  let m := (List.range lost).foldl (fun m _ => m.dropEmber) { m with fab := { m.fab with early := [], flagWait := flags } }
  (held.foldl Mod.acceptEmber m).applyFlags

end Sys2Proof.Machine
end

