-- ==== Sys2Proof/Machine/Geometry.lean ====
section
/-! DEFINITION. The geometry of streams (spec 06, R178 to R182, R186, R208). Element sizes are in half bytes, so
addresses are worked out in half bytes too. -/
namespace Sys2Proof.Machine

def StreamDesc.ext (d : StreamDesc) (k : Nat) : Nat := d.extent.getD k 1
def StreamDesc.srcStr (d : StreamDesc) (k : Nat) : Int := d.srcStride.getD k 0
def StreamDesc.dstStr (d : StreamDesc) (k : Nat) : Int := d.dstStride.getD k 0

/-- Positions of a stream: the product of its extents. -/
def StreamDesc.positions (d : StreamDesc) : Nat := ((List.range 6).map d.ext).prod

/-- Positions inside dimension k. -/
def StreamDesc.inner (d : StreamDesc) (k : Nat) : Nat := ((List.range k).map d.ext).prod

/-- Coordinate k of position p (spec 06, R178). -/
def StreamDesc.coord (d : StreamDesc) (p k : Nat) : Nat := p / d.inner k % d.ext k

/-- Positions of a unit, and how many units there are (spec 06, R186, R187); one unit without a ring. -/
def StreamDesc.unitSize (d : StreamDesc) : Nat := if d.ringUnits = 0 then d.positions else d.inner d.unitDim
def StreamDesc.units (d : StreamDesc) : Nat := if d.ringUnits = 0 then 1 else d.positions / d.inner d.unitDim

/-- An address in half bytes as a number; addresses of a validated stream are not negative. -/
def halfAddr (base esize : Nat) (elems : Int) : Nat := (((2 * base : Nat) : Int) + (esize : Int) * elems).toNat

/-- Source address of position p in half bytes (spec 06, R178). -/
def StreamDesc.srcAt (d : StreamDesc) (p : Nat) : Nat :=
  halfAddr d.srcBase d.esize (((List.range 6).map (fun k => (d.coord p k : Int) * d.srcStr k)).foldl (· + ·) 0)

/-- Destination address of position p in half bytes (spec 06, R178, R186). -/
def StreamDesc.dstAt (d : StreamDesc) (p : Nat) : Nat :=
  if d.ringUnits = 0 then
    halfAddr d.dstBase d.esize (((List.range 6).map (fun k => (d.coord p k : Int) * d.dstStr k)).foldl (· + ·) 0)
  else
    let u := p / d.inner d.unitDim
    halfAddr d.dstBase d.esize
      (((List.range d.unitDim).map (fun k => (d.coord p k : Int) * d.dstStr k)).foldl (· + ·) 0
        + ((u % d.ringUnits : Nat) : Int) * d.dstStr d.unitDim)

/-- Address on the indexed side, in half bytes: an index, and the coordinate of dimension 0 (spec 06, R182). -/
def indexedAt (base esize : Nat) (s0 s1 : Int) (index x0 : Nat) : Nat :=
  halfAddr base esize ((index : Int) * s1 + (x0 : Int) * s0)

/-- The true extent of a side in bytes (spec 06, R180), from its base, element size, extents and strides. -/
def trueExtent (base esize : Nat) (es : List Nat) (strides : List Int) : Int × Int :=
  let terms := (es.zip strides).map (fun x => ((x.1 - 1 : Nat) : Int) * x.2)
  let lo := (terms.map (fun t => min 0 t)).foldl (· + ·) 0
  let hi := (terms.map (fun t => max 0 t)).foldl (· + ·) 0
  (((2 * base : Nat) : Int) + lo * esize, ((2 * base : Nat) : Int) + (hi + 1) * esize)

/-- As a range of bytes; a half byte counts as its whole byte. -/
def toSpan (x : Int × Int) : Span := ⟨x.1.toNat / 2, (x.2.toNat + 1) / 2⟩

/-- A stream is index-driven. -/
def StreamKind.indexed : StreamKind → Bool
  | .copy => false | .index => false | _ => true

/-- The destination is the indexed side. -/
def StreamKind.scatters : StreamKind → Bool
  | .scatter => true | .scatterAdd => true | .scatterMax => true | _ => false

def StreamKind.accumulates : StreamKind → Bool
  | .scatterAdd => true | .scatterMax => true | _ => false

/-- The source side's bytes, with indices 0 to index_limit - 1 on an indexed source (spec 06, R180, R183). -/
def StreamDesc.srcExtent (d : StreamDesc) : Int × Int :=
  if d.kind = .gather then
    trueExtent d.srcBase d.esize [d.ext 0, max 1 d.indexLimit] [d.srcStr 0, d.srcStr 1]
  else trueExtent d.srcBase d.esize d.extent d.srcStride

/-- The destination side's bytes; a ring replaces the extents of unit_dim and above. -/
def StreamDesc.dstExtent (d : StreamDesc) : Int × Int :=
  if d.kind.scatters then
    trueExtent d.dstBase d.esize [d.ext 0, max 1 d.indexLimit] [d.dstStr 0, d.dstStr 1]
  else if d.ringUnits = 0 then trueExtent d.dstBase d.esize d.extent d.dstStride
  else trueExtent d.dstBase d.esize (d.extent.take d.unitDim ++ [d.ringUnits]) (d.dstStride.take (d.unitDim + 1))

def StreamDesc.srcSpan (d : StreamDesc) : Span := toSpan d.srcExtent
def StreamDesc.dstSpan (d : StreamDesc) : Span := if d.kind = .index then ⟨0, 0⟩ else toSpan d.dstExtent

/-- Which sides lie in host memory. -/
def StreamDesc.srcHost (d : StreamDesc) : Bool := isHost d.srcBase
def StreamDesc.dstHost (d : StreamDesc) : Bool := d.kind != .index && !d.remote && isHost d.dstBase

/-- One contiguous run: each dimension of extent above 1 steps by what lies inside it. -/
def StreamDesc.oneRun (d : StreamDesc) (str : Nat → Int) : Bool :=
  (List.range 6).all (fun k => d.ext k == 1 || str k == (d.inner k : Int))

/-- The stream runs on the flue (spec 06, R208). -/
def StreamDesc.isFlue (d : StreamDesc) : Bool :=
  d.kind == .copy && decide (d.positions * d.esize ≤ 512) && d.oneRun d.srcStr && d.oneRun d.dstStr
  && d.ringUnits == 0 && !d.srcHost && !d.dstHost

/-- Indices that a data stream needs (spec 06, R182). -/
def StreamDesc.indexCount (d : StreamDesc) : Nat := d.positions / d.ext 0

end Sys2Proof.Machine
end

