-- ==== Sys2Proof/Machine/Units.lean ====
section
/-! DEFINITION. Units (spec 01, R27, R28, R33 to R41): unit address words, the spare map, replacements (R36), strikes and
retirement (spec 13, R413, R414), withdrawn cores (spec 03, R94). -/
namespace Sys2Proof.Machine

/-! ### Unit address words (spec 01, R33, R34) -/

def unitCore (u : Nat) : Nat := bits u 15 13
def unitCluster (u : Nat) : Nat := bits u 12 8
def unitKind (u : Nat) : Nat := bits u 7 6
def unitIndex (u : Nat) : Nat := bits u 4 0

/-- The word of a unit. -/
def unitWord (core cluster kind index : Nat) : Nat := core * 2 ^ 13 + cluster * 2 ^ 8 + kind * 2 ^ 6 + index

def tileWord (core cluster tile : Nat) : Nat := unitWord core cluster 0 tile
def engineWord (core cluster engine : Nat) : Nat := unitWord core cluster 1 engine
def clusterWord (core cluster : Nat) : Nat := unitWord core cluster 2 0
def coreWord (core : Nat) : Nat := unitWord core 0 3 0

/-- What R34 rejects with BAD_PARAM. -/
def unitIllegal (u : Nat) : Bool :=
  decide (unitCluster u > 17) || (unitKind u == 0 && decide (unitIndex u > 16))
  || (unitKind u == 1 && decide (unitIndex u > 1)) || (decide (unitKind u ≥ 2) && unitIndex u != 0)
  || (unitKind u == 3 && unitCluster u != 0)

/-- Bit 5 (spec 01, R34). -/
def unitReserved (u : Nat) : Bool := bit u 5

/-! ### The spare map -/

/-- The record of a unit word. -/
def Mod.unit (m : Mod) (u : Nat) : UnitRec := SMap.get UnitRec.healthy m.units.recs u

def Mod.setUnit (m : Mod) (u : Nat) (f : UnitRec → UnitRec) : Mod :=
  { m with units := { m.units with recs := SMap.upd UnitRec.healthy m.units.recs u f } }

/-- A unit that plans do not use: clinker, pending clinker, disabled. -/
def UnitRec.bad (r : UnitRec) : Bool := r.clinker || r.pending || r.disabled

/-- A unit that may take no further work: also one that retires, drains, is being tested or waits for the next
PLAN_START. -/
def UnitRec.noClaim (r : UnitRec) : Bool :=
  r.bad || r.retiring || r.draining.isSome || r.testing.isSome || r.enabling

/-- The clusters in service of a core, in ascending order (spec 01, R27; after reset 0 to 15, assumption log 1). -/
def Mod.clustersOf (m : Mod) (core : Nat) : List Nat := SMap.get (List.range 16) m.units.clusters core

/-- The tiles at the grid positions of a cluster, in row-major order (spec 01, R28). -/
def Mod.gridOf (m : Mod) (core cluster : Nat) : List Nat := SMap.get (List.range 16) m.units.grid (core * 32 + cluster)

/-- Tiles of a cluster that can serve (spec 01, R35). -/
def Mod.goodTiles (m : Mod) (core cluster : Nat) : List Nat :=
  (List.range 17).filter (fun t => !(m.unit (tileWord core cluster t)).bad)

/-- A cluster is usable: not retired or disabled, both engines good, 16 good tiles (spec 01, R35, R38). -/
def Mod.clusterUsable (m : Mod) (core cluster : Nat) : Bool :=
  !(m.unit (clusterWord core cluster)).bad
  && !(m.unit (engineWord core cluster 0)).bad && !(m.unit (engineWord core cluster 1)).bad
  && decide (16 ≤ (m.goodTiles core cluster).length)

/-- A core's record. -/
def Mod.core (m : Mod) (c : Nat) : CoreRec := SMap.get CoreRec.off m.pwr.cores c

def Mod.setCore (m : Mod) (c : Nat) (f : CoreRec → CoreRec) : Mod :=
  { m with pwr := { m.pwr with cores := SMap.upd CoreRec.off m.pwr.cores c f } }

/-- Usable clusters of a core (spec 01, R38); 0 for a failed sequencer (spec 16, R498). -/
def Mod.usable (m : Mod) (core : Nat) : Nat :=
  if (m.core core).seqFailed then 0
  else ((List.range 18).filter (fun k => m.clusterUsable core k)).length

/-- Fill a grid position whose tile is bad with a good tile that stands nowhere in the grid (spec 01, R35). -/
def fillGrid (good : List Nat) (grid : List Nat) : List Nat :=
  grid.foldl (fun acc t =>
    if t ∈ good then acc ++ [t]
    else match good.find? (fun x => !(x ∈ grid) && !(x ∈ acc)) with
      | some x => acc ++ [x]
      | none => acc ++ [t]) []

/-- Clusters in service after replacement: a lost one gives its place to a usable spare; at most 16 (spec 01, R35,
R38). -/
def Mod.chooseClusters (m : Mod) (core : Nat) : List Nat :=
  let old := m.clustersOf core
  let kept := old.filter (fun k => m.clusterUsable core k)
  let spare := (List.range 18).filter (fun k => m.clusterUsable core k && !(k ∈ old))
  (List.range 18).filter (fun k => k ∈ kept ++ spare.take (16 - kept.length))

/-- Form clusters and gangs of a core from the spare map as it stands (spec 01, R54). -/
def Mod.formCore (m : Mod) (core : Nat) : Mod :=
  let ks := m.chooseClusters core
  let grid := ks.foldl (fun g k =>
    SMap.put (List.range 16) g (core * 32 + k) (fillGrid (m.goodTiles core k) (m.gridOf core k))) m.units.grid
  { m with units := { m.units with
      clusters := SMap.put (List.range 16) m.units.clusters core ks, grid := grid } }

/-- A unit's pending replacement takes effect (spec 01, R36, R37; spec 13, R414, R415, R421). -/
def UnitRec.replace (r : UnitRec) : UnitRec :=
  { r with
    clinker := (r.clinker && !r.enabling) || r.pending || r.retiring,
    pending := false, retiring := false, enabling := false,
    steer := r.pendSteer.getD r.steer, pendSteer := none }

/-- Whether a unit record waits for R36. -/
def UnitRec.waits (r : UnitRec) : Bool := r.pending || r.retiring || r.enabling || r.pendSteer.isSome

/-- Apply every pending replacement of units, clusters and bundles (spec 01, R36); the generation of the distance table
advances if any was pending (R50). The replacement of channels stands in Machine/Fabric.lean. -/
def Mod.replaceUnits (m : Mod) : Mod :=
  let any := m.units.recs.any (fun e => e.2.waits) || !m.units.linkPending.isEmpty
  let recs := SMap.mapVals UnitRec.healthy m.units.recs UnitRec.replace
  let m1 := { m with units := { m.units with
    recs := recs, linkUsed := m.units.linkUsed ++ m.units.linkPending, linkPending := [] } }
  let m2 := (List.range 8).foldl Mod.formCore m1
  let moved := decide (m2.units.clusters ≠ m.units.clusters) || decide (m2.units.grid ≠ m.units.grid)
  if any || moved then { m2 with ctl := { m2.ctl with generation := m2.ctl.generation + 1 } } else m2

/-! ### Withdrawn cores -/

/-- A core counts as withdrawn for a plan of operating point `op` (spec 03, R94; spec 16, R500, R505; spec 13, R417,
R423, R424). -/
def Mod.withdrawnAt (m : Mod) (op core : Nat) : Bool :=
  let c := m.core core
  !(c.ps == .run && decide (op ≤ c.op)) || c.kindling || c.faulted || c.seqFailed || c.changing
  || (m.unit (coreWord core)).bad || (m.unit (coreWord core)).draining.isSome
  || (match m.tests.forced with | some t => t.begun && t.core == core | none => false)
  || (match m.tests.margin with | some t => t.begun && t.core == core | none => false)
  || m.usable core == 0

/-- op_point of the plan held; 0 with none. -/
def Mod.opPoint (m : Mod) : Nat := (m.plan.plan.map (·.opPoint)).getD 0

def Mod.withdrawn (m : Mod) (core : Nat) : Bool := m.withdrawnAt m.opPoint core

/-- The cores that count as withdrawn. -/
def Mod.withdrawnCores (m : Mod) : List Nat := (List.range 8).filter m.withdrawn

/-- Another core counts as withdrawn. -/
def Mod.otherWithdrawn (m : Mod) (core : Nat) : Bool := m.withdrawnCores.any (fun c => c != core)

/-- Withdrawn bits of PLAN_REPORT (spec 03, R113). -/
def Mod.withdrawnMask (m : Mod) : Nat := (m.withdrawnCores.map (fun c => 2 ^ c)).sum

/-! ### Strikes -/

/-- Strikes of a unit that have not expired: 720 power-on hours (spec 13, R413). -/
def Mod.liveStrikes (m : Mod) (u : Nat) : List Nat :=
  (m.unit u).strikes.filter (fun t => decide (m.powerOnS < t + 720 * 3600))

/-- Charge a strike (spec 13, R413, R414): the record, and retirement on the third; `cause` is the serial of the record
that caused it. -/
def Mod.strike (m : Mod) (u : Nat) (cause : Word) : Mod :=
  let held := m.liveStrikes u ++ [m.powerOnS]
  let retire := decide (3 ≤ held.length)
  let m := m.setUnit u (fun r => { r with strikes := held, retiring := r.retiring || retire })
  let m := m.count Cnt.strike 1
  let m := if retire then m.count Cnt.unitRetired 1 else m
  let action := if retire then (if unitKind u = 1 then 2 else 1) else 0
  m.report { cls := Rec.strike, attn := Attn.integrity, detail := Detail.checkMismatch,
             scope := if retire then Scope.inBound else Scope.none,
             payload := leBytes 2 u ++ [BitVec.ofNat 8 held.length, BitVec.ofNat 8 action] ++ leBytes 4 cause.toNat }

end Sys2Proof.Machine
end

