-- ==== Sys2Proof/Machine/Power.lean ====
section
/-! DEFINITION. Power operations that rounds share with commands: core changes (spec 16, R503 to R507), kindling mode
(R500), forced windows and margin tests (spec 13, R423, R424), and what of these waits for a round open. -/
namespace Sys2Proof.Machine

/-! ### Rails (spec 18, R543) -/

/-- Give a rail a state (0 OFF, 2 ON, 3 TRIPPED) and its groups theirs (0 OFF, 1 ON, 2 TRIPPED). -/
def Mod.setRail (m : Mod) (rail state : Nat) : Mod :=
  let groups := if rail < 8 then [2 * rail, 2 * rail + 1] else [rail + 8]
  let g := if state = 0 then 0 else if state = 3 then 2 else 1
  { m with pwr := { m.pwr with
      rails := SMap.put 0 m.pwr.rails rail state,
      groups := groups.foldl (fun t k => SMap.upd Group.whole t k (fun x => { x with state := g })) m.pwr.groups } }

/-- Every rail but standby takes a state. -/
def Mod.setRails (m : Mod) (state : Nat) : Mod := (List.range 16).foldl (fun m r => m.setRail r state) m

/-! ### Core changes -/

def CorePs.ofCode (n : Nat) : CorePs := if n = 0 then .off else if n = 1 then .gated else if n = 2 then .idle else .run

/-- Bring a core to a power state (spec 16, R504 to R506): the change is being applied until its completion. -/
def Mod.putCore (m : Mod) (c : Nat) (st : CorePs) (op : Nat) : Mod :=
  let was := (m.core c).ps
  let m := m.setCore c (fun r =>
    { r with ps := st, op := if st = .run then op else 0, changing := true,
             kindling := if st = .off then false else r.kindling })
  if st = .off then (m.setRail c 0).dropCoreMemory c
  else if was = .off then m.setRail c 2
  else m

/-- Mark a pending change applied. -/
def Mod.markApplied (m : Mod) (kind index : Nat) : Mod :=
  { m with pwr := { m.pwr with changes := m.pwr.changes.map (fun c =>
      if c.kind = kind ∧ c.index = index then { c with applied := true } else c) } }

/-- Apply a pending core change. -/
def Mod.applyChange (m : Mod) (c : Change) : Mod :=
  (m.putCore c.index (CorePs.ofCode c.state) c.op).markApplied 0 c.index

/-- The pending core changes that are not applied, in ascending core number (spec 16, R505). -/
def Mod.waitingChanges (m : Mod) : List Change :=
  (List.range 8).filterMap (fun k => m.pwr.changes.find? (fun c => c.kind == 0 && c.index == k && !c.applied))

/-! ### Kindling mode, forced windows, margin tests -/

/-- KINDLING_ENTER takes effect (spec 16, R500). -/
def Mod.enterKindling (m : Mod) (c : Nat) : Mod :=
  match (m.core c).kindleWait with
  | some t => (m.setCore c (fun r => { r with kindling := true, kindleWait := none, kindleDone := some t })).count
      Cnt.kindlingEntry 1
  | none => m

/-- A forced window begins (spec 13, R423): the core counts as withdrawn. -/
def Mod.beginForced (m : Mod) : Mod :=
  match m.tests.forced with
  | some t => { m with tests := { m.tests with forced := some { t with begun := true } } }
  | none => m

/-- A margin test begins (spec 13, R424): the core counts as withdrawn and enters kindling mode. -/
def Mod.beginMargin (m : Mod) : Mod :=
  match m.tests.margin with
  | some t =>
    if t.begun ∨ t.aborted then m
    else ({ m with tests := { m.tests with margin := some { t with begun := true } } }).setCore t.core
      (fun r => { r with kindling := true })
  | none => m

/-- What takes effect at a round open (spec 16, R500, R505; spec 13, R423, R424): kindling mode, forced window, margin
test, and one core change if no other core counts as withdrawn and no change is being applied. -/
def Mod.openHook (m : Mod) : Mod :=
  let m := (List.range 8).foldl Mod.enterKindling m
  let m := m.beginForced.beginMargin
  match m.waitingChanges with
  | c :: _ =>
    if (List.range 8).all (fun k => k == c.index || !(m.withdrawn k)) && !((m.core c.index).changing) then m.applyChange c
    else m
  | [] => m

/-- No plan is RUNNING any more: what waited for a round open takes effect at once (spec 16, R500, R505; spec 13,
R423). -/
def Mod.quiesce (m : Mod) : Mod :=
  let m := (List.range 8).foldl Mod.enterKindling m
  let m := m.beginForced.beginMargin
  m.waitingChanges.foldl Mod.applyChange m

/-- Another core was withdrawn: a margin test in progress ends ABORTED (spec 13, R424). -/
def Mod.abortMargin (m : Mod) (core : Nat) : Mod :=
  match m.tests.margin with
  | some t =>
    if t.core ≠ core ∧ t.begun then
      ({ m with tests := { m.tests with margin := some { t with begun := false, aborted := true } } }).setCore t.core
        (fun r => { r with kindling := false })
    else m
  | none => m

end Sys2Proof.Machine
end

