-- ==== Sys2Proof/Machine/Rounds.lean ====
section
/-! DEFINITION. The life of a round (spec 03, R92, R98 to R101, R110; spec 04, R129 to R137; spec 10, R338; spec 12, R377,
R401 to R403): its open, barriers, start, run end, settle, commit, douse, halt. -/
namespace Sys2Proof.Machine

/-! ### Halting (spec 03, R92; spec 16, R494) -/

/-- Module and plan enter HALTED with a halt_kind; every pending PLAN_HALT completes, in order; what waited for a round
open takes effect. -/
def Mod.enterHalted (m : Mod) (kind opcode detail : Nat) : Mod :=
  let done := m.plan.halts
  let m := m.moveTo .halted opcode detail
  let m := { m with plan := { m.plan with
    st := .halted, haltKind := kind, halts := [], discarded := m.plan.discarded || kind == 2, reopen := kind == 2 } }
  (done.foldl (fun m t => m.complete t Op.planHalt Cls.ok Detail.none []) m).quiesce

/-- Plan streams of the attempt lose their contexts; drains keep theirs. -/
def Mod.freePlanCtxs (m : Mod) : Mod :=
  { m with ctxs := m.ctxs.filter (fun e => match e.2 with | some c => c.use != .plan | none => false) }

/-- The attempt is discarded (spec 04, R134): open work, flags, stream, route and collective progress, round-local
counts, conditions and staged writes. What stays: serial, retirements (R139), readiness, the bindings that a replay
repeats (spec 12, R402). -/
def Mod.discardAttempt (m : Mod) (phase : Phase) : Mod :=
  let r := m.run
  let m := m.freePlanCtxs
  { m with run := { Run.idle with
      phase := phase, attempt := r.attempt, serial := r.serial, start := r.start, runNs := r.runNs, events := r.events,
      tokens := r.tokens, readies := r.readies, retired := r.retired, arrivals := r.arrivals, binds := r.binds,
      target := r.target } }

/-- The event counts of an attempt post, and worst_run follows (spec 03, R113, R114; spec 04, R140). -/
def Mod.postAttempt (m : Mod) : Mod :=
  let m := m.post m.run.events
  let w := min m.run.runNs 0xFFFFFFFF
  let m := { m with run := { m.run with events := [] } }
  if m.plan.worstRun < w then { m with plan := { m.plan with worstRun := w, worstRound := m.plan.round } } else m

/-- Halt with the open attempt discarded. -/
def Mod.haltDiscarded (m : Mod) (opcode detail : Nat) : Mod :=
  (m.discardAttempt .none).enterHalted 2 opcode detail

/-! ### Barriers (spec 03, R110; spec 04, R135; spec 10, R338) -/

/-- Head of the members that agree in the bits above `sh`. -/
def headOf (ms : List Nat) (sh x : Nat) : Nat := ((ms.filter (fun y => y / sh == x / sh)).min?).getD x

/-- The member that x sends its arrival to: tray head, then rack head, then root; none at the root. -/
def treeParent (ms : List Nat) (x : Nat) : Option Nat :=
  let tray := headOf ms 8 x
  let rack := headOf ms 64 x
  let root := headOf ms 65536 x
  if x ≠ tray then some tray else if x ≠ rack then some rack else if x ≠ root then some root else none

/-- The members directly below x. -/
def treeChildren (ms : List Nat) (x : Nat) : List Nat := ms.filter (fun y => treeParent ms y == some x)

/-- The members below x, itself included: through at most three levels of heads. -/
def treeCount (ms : List Nat) (x : Nat) : Nat :=
  let l1 := treeChildren ms x
  let l2 := (l1.map (treeChildren ms)).flatten
  let l3 := (l2.map (treeChildren ms)).flatten
  1 + l1.length + l2.length + l3.length

/-- The member list of the barrier at which the module waits: of the settle set for the implicit barrier. -/
def Mod.barrierMembers (m : Mod) : List Nat :=
  match m.plan.plan, m.hdr with
  | some p, some r =>
    if m.run.phase = .implicit then (m.set.map (·.members)).getD []
    else match p.barriers[r.openBarrier]? with
      | some b => p.members b.memberSet
      | none => []
  | _, _ => []

/-- The id in its messages; the implicit barrier, to which the spec gives no id, takes 0xFFFF (assumption log 16). -/
def Mod.barrierId (m : Mod) : Nat := if m.run.phase = .implicit then 0xFFFF else (m.hdr.map (·.openBarrier)).getD 0xFFFF

def Phase.atBarrier : Phase → Bool
  | .barrier => true | .implicit => true | _ => false

def Mod.barrierMsg (m : Mod) (count : Nat) : BarrierMsg :=
  ⟨Config.position, m.barrierId, count, m.run.serial, BitVec.ofNat 32 m.planId⟩

/-- Once every member below has arrived this module arrives: upward, or, at the root, the release time is set and goes
down the tree. -/
def Mod.barrierStep (m : Mod) : Mod :=
  let ms := m.barrierMembers
  let below := treeChildren ms Config.position
  if m.run.phase.atBarrier && !m.run.arrived && below.all (fun x => x ∈ m.run.arrivals) then
    let m := { m with run := { m.run with arrived := true } }
    match treeParent ms Config.position with
    | some up => m.send (.arrive up (m.barrierMsg (treeCount ms Config.position)))
    | none =>
      let t := m.fab.time + 4000
      let m := { m with run := { m.run with release := some t } }
      m.sendAll (below.map (fun d => Sent.release d (m.barrierMsg 0) t))
  else m

/-! ### Round start (spec 03, R98, R99, R101; spec 12, R377) -/

/-- A gated round consumes an admission: it is latched, and staged group values apply. -/
def Mod.latchStep (m : Mod) : Mod :=
  match m.step.admissions with
  | a :: rest =>
    { m with step := { m.step with
        admissions := rest, reg := a, inStep := true, skipped := false, stagedGroups := [],
        groups := m.step.stagedGroups.foldl (fun g e => SMap.put GroupVals.zero g e.1 e.2) m.step.groups } }
  | [] => m

/-- Round start at a fabric time. A reopened round keeps its serial, consumes no admission and is no new open
(spec 04, R128, R135). -/
def Mod.startRound (m : Mod) (t : Nat) : Mod :=
  let gated := match m.hdr with | some r => r.stepGate | none => false
  let m := if gated && !m.plan.reopen then m.latchStep else m
  let m := if m.plan.reopen then m else { m with plan := { m.plan with opened := m.plan.opened + 1 } }
  let m := { m with
    plan := { m.plan with reopen := false, haltKind := 0 },
    run := { m.run with phase := .run, start := t, arrivals := [], release := none, arrived := false },
    fab := { m.fab with sentTo := [], seenFrom := [], sentRecords := 0 } }
  m.releaseEarly

/-! ### Arming streams (spec 06, R174, R192, R208) -/

/-- The drain of stream record i, if it still runs. -/
def Mod.drainOf (m : Mod) (i : Nat) : Option Nat :=
  (m.usedCtxs.find? (fun e => e.2.use == .drain && e.2.stream == i)).map (·.1)

/-- Arm one stream of the round: on the flue without a context, as a pending generation while its drain runs, otherwise
on the lowest free context of its home core. A retirement of an earlier attempt holds (spec 04, R139). -/
def Mod.armStream (m : Mod) (i : Nat) (d : StreamDesc) : Mod :=
  let cut := (m.run.retired.find? (fun e => e.1 == i)).map (·.2)
  let m := match cut with
    | some c => m.condition ⟨Detail.streamTruncated, i, 0, d.positions - c, 0, c⟩
    | none => m
  let put (m : Mod) (st : StrSt) (h : Option Nat) : Mod :=
    { m with run := { m.run with streams := SMap.ins i ⟨st, h, 0, 0, 0, cut, []⟩ m.run.streams } }
  if d.isFlue then put m .armed none
  else if (m.drainOf i).isSome then put m .held0 none
  else match m.planCtxs d.homeCore with
    | h :: _ => put (m.setCtx h (some (Ctx.fresh .plan .active i 0 d))) .armed (some h)
    | [] => put m .armed none

def Mod.armStreams (m : Mod) : Mod :=
  match m.plan.plan, m.hdr with
  | some p, some r => ((p.streamsOf r).zipIdx).foldl (fun m e => m.armStream (r.firstStream + e.2) e.1) m
  | _, _ => m

/-- Contexts that the waiting round needs on a core. -/
def Mod.ctxNeed (m : Mod) (core : Nat) : Nat :=
  match m.plan.plan, m.hdr with
  | some p, some r => (((p.streamsOf r).zipIdx).filter (fun e =>
      e.1.homeCore == core && !e.1.isFlue && (m.drainOf (r.firstStream + e.2)).isNone)).length
  | _, _ => 0

/-! ### The open of a round (spec 03, R98) -/

/-- Reset round-local state for an attempt of the round (spec 03, R98, R105); event counts of the open's waits, early
arrivals and retirements stay; the waits of streams are those of an attempt. -/
def Mod.resetRun (m : Mod) (attempt : Nat) (serial : Word) : Mod :=
  { m with run := { Run.idle with
      attempt := attempt, serial := serial, events := m.run.events, retired := m.run.retired,
      arrivals := m.run.arrivals, binds := m.run.binds, target := m.run.target, waitsSeen := m.run.waitsSeen.filter (fun k => decide (k < 16)) } }

/-- The waits of an open that still hold: 0 settle-buffer space (spec 04, R131), 1 stream contexts (spec 06, R192), 2 the
time base (spec 10, R328), 3 a version slot (spec 12, R403). -/
def Mod.openWaits (m : Mod) : List Nat :=
  match m.plan.plan, m.hdr with
  | some p, some r =>
    (if m.settleFree < (m.set.map (·.stageBytes)).getD 0 then [0] else [])
    ++ (if (List.range 8).any (fun c => decide ((m.planCtxs c).length < m.ctxNeed c)) then [1] else [])
    ++ (if r.fabric && m.fab.timeState != .locked && m.fab.timeState != .holdover then [2] else [])
    ++ (match p.updSet r with
        | some (i, v) => if (m.targetSlot i v).isNone then [3] else []
        | none => [])
  | _, _ => []

/-- Count a wait once per open: opens delayed under R131 and R403 with the round's events, the others at once. -/
def Mod.countWait (m : Mod) (k : Nat) : Mod :=
  if k ∈ m.run.waitsSeen then m
  else
    let m := { m with run := { m.run with waitsSeen := m.run.waitsSeen ++ [k] } }
    if k = 0 then m.tallyEvent Cnt.emberStageWait 1
    else if k = 1 then m.count Cnt.streamArmWait 1
    else if k = 2 then m.count Cnt.timebaseWait 1
    else m.tallyEvent Cnt.versionWait 1

/-- The step gate holds the waiting round back (spec 03, R101). -/
def Mod.gateShut (m : Mod) : Bool :=
  match m.hdr with
  | some r => r.stepGate && !m.plan.reopen && m.step.admissions.isEmpty
  | none => false

/-- Intervals that apply from a gated open (spec 13, R432; spec 14, R442). -/
def Mod.applyIntervals (m : Mod) : Mod :=
  let gated := match m.hdr with | some r => r.stepGate | none => false
  if gated && !m.plan.reopen then
    { m with
      tests := { m.tests with interval := m.tests.intervalStaged.getD m.tests.interval, intervalStaged := none },
      bank := { m.bank with interval := m.bank.intervalStaged.getD m.bank.interval, intervalStaged := none } }
  else m

/-- Bind version handles and choose the target slot (spec 12, R401, R403). -/
def Mod.openVersions (m : Mod) : Mod :=
  match m.plan.plan, m.hdr with
  | some p, some r =>
    { m with run := { m.run with
        binds := m.bindVersions (p.bindsOf r),
        target := (p.updSet r).bind (fun x => (m.targetSlot x.1 x.2).map (fun k => ⟨x.1, k⟩)) } }
  | _, _ => m

/-- The waits are over: header read, streams armed, then the barrier, the implicit barrier of a reopened round, or the
start. -/
def Mod.openNow (m : Mod) (r : RoundHdr) : Mod :=
  let again := m.plan.reopen
  let m := m.openHook.applyIntervals
  let m := ((m.resetRun 0 (if again then m.run.serial else m.plan.opened + 1)).openVersions).armStreams
  let domain := match m.set with | some s => s.domain | none => false
  if again then
    if domain then ({ m with run := { m.run with phase := .implicit } }).barrierStep
    else m.startRound m.fab.time
  else if r.barrierFlag then
    match (m.plan.plan.bind (fun p => p.barriers[r.openBarrier]?)).map (·.domain) with
    | some true => ({ m with run := { m.run with phase := .barrier } }).barrierStep
    | _ => m.startRound m.fab.time
  else m.startRound m.fab.time

/-- Open the waiting round if it may open; a pending PLAN_HALT halts the module instead (spec 03, R92), with DISCARDED
where the round has an attempt that was discarded. -/
def Mod.tryOpen (m : Mod) : Mod :=
  if m.run.phase = .waiting ∧ m.ctl.state = .running ∧ !m.ctl.refLost then
    match m.hdr with
    | none => m
    | some r =>
      if m.plan.halts ≠ [] then
        let kind := if m.plan.reopen then 2 else 1
        ({ m with run := { m.run with phase := .none } }).enterHalted kind Op.planHalt 0
      else if m.gateShut then m
      else
        let ws := m.openWaits
        if ws = [] then m.openNow r else ws.foldl Mod.countWait m
  else m

/-- The next round waits to open; after the last round of a plan without a body the plan halts with resume round
round_count (spec 03). -/
def Mod.nextRound (m : Mod) : Mod :=
  match m.plan.plan with
  | none => m
  | some p =>
    let n := p.rounds.length
    let next := if m.plan.round + 1 < n then m.plan.round + 1 else if p.bodyStart < n then p.bodyStart else n
    let m := { m with
      plan := { m.plan with round := next, reopen := false },
      run := { Run.idle with phase := .waiting, serial := m.run.serial, arrivals := m.run.arrivals } }
    if next = n then
      let opcode := if m.plan.halts = [] then 0xFFFF else Op.planHalt
      ({ m with run := { m.run with phase := .none } }).enterHalted 1 opcode 0
    else m.tryOpen

/-! ### Run end (spec 03, R100) -/

/-- Everything that the header names has finished. -/
def Mod.runDone (m : Mod) : Bool :=
  match m.plan.plan, m.hdr with
  | some p, some r =>
    (List.range r.itemCount).all (fun i => (SMap.get Ent.free m.run.ents i).st == .done)
    && (List.range r.groupCount).all (fun g => g ∈ m.run.groups)
    && m.run.streams.all (fun e => e.2.st == .done)
    && (p.routesOf r).all (fun e => match e.2 with
      | .route d =>
        let x := SMap.get RouteRun.idle m.run.routes e.1
        x.st == .done && decide (d.group.length ≤ x.returned.length)
      | .mask _ => e.1 ∈ m.run.masks
      | .binding _ _ => true)
    && (p.collsOf r).all (fun e => (SMap.get CollRun.idle m.run.colls e.1).done)
  | _, _ => false

/-! ### Settle (spec 04, R129, R130, R132) -/

/-- The 16 bytes of a NORM_FINITE result (spec 11, R369). -/
def Mod.normResult (m : Mod) (coll : Nat) : Option Bytes :=
  (m.plan.plan.bind (fun p => p.colls[coll]?)).bind (fun c =>
    (m.operand c.dstRec).map (fun a => (List.range 16).map (fun i => m.rdStaged (a.base + i))))

/-- The FINITE gate discards every deferred write of the round when the count is not zero. -/
def Mod.finiteGate (m : Mod) : Mod :=
  match m.set with
  | some s =>
    if s.gateFinite then
      match m.normResult s.finiteCollective with
      | some bs =>
        if fieldAt bs 4 4 ≠ 0 then
          { m with run := { m.run with staged := [], discarded := true }, step := { m.step with skipped := true } }
        else m
      | none => m
    else m
  | none => m

/-- Every token is held. -/
def Mod.allTokens (m : Mod) : Bool := m.others.all (fun x => x ∈ m.run.tokens)

/-- With every token held the gates act; DIGEST waits for its comparison. -/
def Mod.tryGates (m : Mod) : Mod :=
  if m.run.phase = .settling ∧ m.ctl.state = .running ∧ m.allTokens then
    let m := m.finiteGate
    let digest := match m.set with | some s => s.gateDigest | none => false
    { m with run := { m.run with phase := if digest then .digest else .commit } }
  else m

/-! ### Commit (spec 04, R130, R131; spec 06, R191; spec 12, R402) -/

/-- Staged writes to memory of the module take effect. -/
def Mod.applyStaged (m : Mod) : Mod :=
  m.run.staged.foldl (fun m w => if isHost w.addr then m else m.wr w.addr w.data) m

/-- Host writes of the round go to the drains of their streams, which keep the streams' contexts; a stream with nothing
to drain frees its context. -/
def Mod.startDrains (m : Mod) : Mod :=
  let writes (i : Nat) := m.run.staged.filter (fun w => isHost w.addr && w.stream == i)
  { m with ctxs := m.ctxs.filterMap (fun e => match e.2 with
      | some c =>
        if c.use = .plan then
          if writes c.stream = [] then none
          else some (e.1, some { c with use := .drain, st := .active, serial := m.run.serial, writes := writes c.stream })
        else some e
      | none => none) }

/-- clip of R390 (spec 12). -/
def clipOf (clipNorm norm : F32) : F32 :=
  if F32.lt F32.zero clipNorm && F32.lt clipNorm norm then F32.div clipNorm norm else F32.one

/-- The finite_collective that the step's update rounds name (spec 12, R397). -/
def Plan.stepNorm (p : Plan) : Option Nat :=
  (p.rounds.drop p.bodyStart).findSome? (fun r =>
    match p.setOf r with
    | some s => if s.gateFinite then some s.finiteCollective else none
    | none => none)

/-- nonfinite, sum_sq and norm of the step: free values where no NORM_FINITE gives them (assumption log 3). -/
def Mod.stepNorms (m : Mod) : (Nat × F32 × F32) × Mod :=
  match (m.plan.plan.bind Plan.stepNorm).bind m.normResult with
  | some bs => ((fieldAt bs 4 4, BitVec.ofNat 32 (fieldAt bs 0 4), BitVec.ofNat 32 (fieldAt bs 8 4)), m)
  | none =>
    let (x, m) := m.draw
    let (y, m) := m.draw
    let (z, m) := m.draw
    ((x % 2 ^ 32, BitVec.ofNat 32 y, BitVec.ofNat 32 z), m)

/-- The settle of a step_end round (spec 12, R397, R398, R408). -/
def Mod.endStep (m : Mod) : Mod :=
  let (n, m) := m.stepNorms
  let reg := m.step.reg
  let clip := clipOf reg.clipNorm n.2.2
  let clipped := F32.lt clip F32.one
  let overflow := decide (n.2.1 = 0x7F800000#32) && n.1 == 0
  let last : LastStep :=
    { step := reg.step, outcome := if m.step.skipped then 2 else 1, word := b2n clipped + 2 * b2n overflow,
      nonfinite := n.1, norm := n.2.2, clip := clip, baseLr := reg.baseLr, clipNorm := reg.clipNorm }
  let m := if m.step.skipped then m.count Cnt.updateSkipped 1 else m
  let m := if clipped then m.count Cnt.stepClipped 1 else m
  { m with
    step := { m.step with last := last, inStep := false, skipped := false },
    plan := { m.plan with stepSerial := m.plan.stepSerial + 1 } }

/-- The image update that a step_end settle starts (spec 14, R443). -/
def Mod.bankAfterStep (m : Mod) : Mod :=
  let s := m.step.reg.step
  let auto := decide (m.bank.interval ≠ 0) && s.toNat % m.bank.interval == 0
  let mask := m.bank.now.getD 0
  if m.bank.upd.isNone && (auto || m.bank.now.isSome) then
    ({ m with bank := { m.bank with now := none } }).startUpdate s (auto || bit mask 0)
      ((auto && m.bank.pairs != 0) || bit mask 1)
  else m

/-- The commit ends (spec 04, R130): deferred writes, the version table, counts, conditions, rounds_settled; then the next
open begins. -/
def Mod.commitNow (m : Mod) : Mod :=
  match m.plan.plan, m.hdr with
  | some p, some r =>
    let m := (m.applyStaged.commitVersions (p.bindsOf r)).startDrains
    let m := (m.post m.run.counts).postAttempt
    let m := m.run.conds.foldl Mod.conditionRecord m
    let m := { m with plan := { m.plan with
      settled := m.plan.settled + 1,
      routeCounts := m.run.routes.foldl (fun t (e : Nat × RouteRun) => SMap.put [] t e.1 e.2.counts) m.plan.routeCounts } }
    let m := if r.stepEnd then m.endStep.bankAfterStep else m
    m.nextRound
  | _, _ => m

/-! ### Douse (spec 04, R133 to R137) -/

/-- Every DOUSE_READY is held: the replay's start is fixed. -/
def Mod.tryReady (m : Mod) : Mod :=
  if m.run.phase = .doused ∧ m.others.all (fun x => x ∈ m.run.readies) then
    { m with run := { m.run with phase := .replay, tokens := [] } }
  else m

/-- The record of a douse (spec 04, R134): scope IN_BOUND for a fault, NONE for a douse by PLAN_HALT. -/
def douseReport (round cause : Nat) : Report :=
  { cls := Rec.round, attn := Attn.fault, detail := Detail.roundDoused,
    scope := if cause = Douse.halt then Scope.none else Scope.inBound, payload := roundPayload round cause 0 [] }

/-- The record of a second douse (spec 04, R135; spec 13, R434). -/
def replayFailReport (round cause : Nat) : Report :=
  { cls := Rec.round, attn := Attn.fault, detail := Detail.roundReplayFail, scope := Scope.outOfBound,
    payload := roundPayload round cause 0 [] }

/-- Counts of a douse, a run past its budget among them (spec 03, R100); then the attempt's events post (spec 03, R114; spec 04, R140). -/
def Mod.countDouse (m : Mod) (remote : Bool) : Mod :=
  let late := m.run.phase == .run && decide ((m.hdr.map (·.budgetNs)).getD 0 < m.fab.time - m.run.start)
  let m := if late then m.tallyEvent Cnt.roundLate 1 else m
  ((m.tallyEvent Cnt.roundDoused 1).tallyEvent (if remote then Cnt.emberDouseRemote else Cnt.emberDouseLocal) 1).postAttempt

/-- The originator douses (spec 04, R134, R135, R137): a second douse and a douse by PLAN_HALT halt the plan. -/
def Mod.douseHere (m : Mod) (cause : Nat) : Mod :=
  let m := m.sendEmber 2 m.run.attempt cause
  let m := m.countDouse false
  if m.run.attempt = 1 then
    (m.report (replayFailReport m.plan.round cause)).haltDiscarded 0xFFFF Detail.roundReplayFail
  else
    let m := m.report (douseReport m.plan.round cause)
    if cause = Douse.halt then m.haltDiscarded Op.planHalt 0
    else (m.discardAttempt .doused).tryReady

/-- A member's DOUSE of the attempt arrives (spec 04, R134, R135, R137). -/
def Mod.douseFrom (m : Mod) (x : EmberMsg) : Mod :=
  let m := m.sendEmber 3 m.run.attempt 0
  let m := m.countDouse true
  if m.run.attempt = 1 then
    (m.reportFault (replayFailReport m.plan.round x.cause)).haltDiscarded 0xFFFF Detail.roundReplayFail
  else
    let m := m.reportFault (douseReport m.plan.round x.cause)
    if x.cause = Douse.halt then m.haltDiscarded 0xFFFF Detail.roundDoused
    else
      let m := m.discardAttempt .doused
      ({ m with run := { m.run with readies := x.sender :: m.run.readies } }).tryReady

/-- A DOUSE reaches a module that halted unresolved (spec 04, R136): the attempt goes, the module stays HALTED. -/
def Mod.douseHalted (m : Mod) (x : EmberMsg) : Mod :=
  let m := m.sendEmber 3 m.run.attempt 0
  let m := m.countDouse true
  let m := m.reportFault (if m.run.attempt = 1 then replayFailReport m.plan.round x.cause
    else douseReport m.plan.round x.cause)
  let m := m.discardAttempt .none
  { m with plan := { m.plan with haltKind := 2, discarded := true, reopen := true } }

/-- The replay opens (spec 04, R134; spec 12, R402): attempt 1, streams armed again, the same bindings. -/
def Mod.replayNow (m : Mod) : Mod :=
  let early := m.run.tokens
  let m := (m.resetRun 1 m.run.serial).armStreams
  let m := { m with
    run := { m.run with phase := .run, start := m.fab.time, tokens := early },
    fab := { m.fab with sentTo := [], seenFrom := [] } }
  m.releaseEarly

end Sys2Proof.Machine
end

