-- ==== Sys2Proof/Machine/Waits.lean ====
section
/-! DEFINITION. Waits of a run phase that are past their timeout (spec 09, R306; spec 11, R363), during which a PLAN_HALT
douses the attempt (spec 04, R137). -/
namespace Sys2Proof.Machine

/-- Route descriptor i, if the open round runs it. -/
def Mod.routeDesc (m : Mod) (i : Nat) : Option RouteDesc :=
  match m.plan.plan, m.hdr with
  | some p, some r => (p.routesOf r).findSome? (fun e => if e.1 = i then (match e.2 with | .route d => some d | _ => none) else none)
  | _, _ => none

def Mod.route (m : Mod) (i : Nat) : RouteRun := SMap.get RouteRun.idle m.run.routes i

def Mod.setRoute (m : Mod) (i : Nat) (f : RouteRun → RouteRun) : Mod :=
  { m with run := { m.run with routes := SMap.upd RouteRun.idle m.run.routes i f } }

/-- Members whose frame or increment a route waits for. -/
def Mod.routeMissing (m : Mod) (d : RouteDesc) (x : RouteRun) : List Nat :=
  let ranks (t : SMap (List Nat)) : List Nat := (d.group.zipIdx.filter (fun e => SMap.get [] t e.2 == [])).map (·.1)
  let flag (f : Nat) : List Nat := d.group.filter (fun w => w ∉ SMap.get [] m.run.flagFrom f)
  if x.st = .counting then
    if x.counts = [] then ranks x.requests
    else (d.group.zipIdx.filter (fun e => SMap.get [] x.grants e.2 == [])).map (·.1)
  else if x.st = .returning then (if x.ret then flag d.returnFlag else flag d.dispatchFlag)
  else if x.st = .dispatching then flag d.dispatchFlag
  else []

/-- A wait of the run phase is past its timeout and goes on. -/
def Mod.lateWait (m : Mod) : Bool :=
  m.run.routes.any (fun e => e.2.late && (match m.routeDesc e.1 with | some d => !(m.routeMissing d e.2).isEmpty | none => false))
  || m.run.colls.any (fun e => e.2.late.any (fun k => k ∉ e.2.summed))

end Sys2Proof.Machine
end

