-- ==== Sys2Proof/Machine/Plans.lean ====
section
/-! DEFINITION. Plan and step commands (spec 03, R90 to R94, R101, R113; spec 04, R136; spec 12, R376, R378, R398). -/
namespace Sys2Proof.Machine

/-! ### Shared conditions -/

/-- A plan is held (spec 03, R90). -/
def Mod.holdsPlan (m : Mod) : Bool := m.plan.st == .loaded || m.plan.st == .running || m.plan.st == .halted

/-- The plan held has a body (spec 03, R101). -/
def Mod.hasBody (m : Mod) : Bool :=
  match m.plan.plan with
  | some p => decide (p.bodyStart < p.rounds.length)
  | none => false

/-- The memory ranges that a command stream's context touches, its pending generation included. -/
def Ctx.spansOf (c : Ctx) : List Span :=
  let of (d : StreamDesc) : List Span := [d.srcSpan, d.dstSpan]
  of c.desc ++ (match c.pend with | some g => of { c.desc with srcBase := g.src, dstBase := g.dst } | none => [])

/-- A command stream that is ACTIVE, HELD or has a pending generation (spec 06, R206, R207). -/
def Ctx.busyCommand (c : Ctx) : Bool := c.use == .command && (c.st != .idle || c.pend.isSome)

/-- A busy command stream meets an extent of the plan held (spec 06, R207). -/
def Mod.planMetByStream (m : Mod) : Bool :=
  let ext := match m.plan.plan with
    | some p => (p.allocs.map (fun e => e.2.spans)).flatten
    | none => []
  m.usedCtxs.any (fun e => e.2.busyCommand && anyMeet e.2.spansOf ext)

/-- Some round of the plan uses the fabric (spec 10, R348). -/
def Mod.usesFabric (m : Mod) : Bool :=
  match m.plan.plan with | some p => p.rounds.any (fun r => r.fabric) | none => false

/-- What PLAN_START and PLAN_RESUME refuse with BAD_STATE: more than one withdrawn core (spec 03, R94), no data plane
(spec 01, R47). -/
def Mod.cannotRun (m : Mod) : Bool := decide (1 < m.withdrawnCores.length) || m.ctl.refLost

/-! ### PLAN_REPORT -/

/-- The report (spec 03, R113). -/
def Mod.planReport (m : Mod) : Bytes :=
  let p := m.plan
  let failed := p.st == .failed
  leBytes 8 (fieldAt p.header 0x10 8) ++ [BitVec.ofNat 8 p.st.code, BitVec.ofNat 8 (if failed then p.failCheck else 0)]
    ++ leBytes 2 (if failed then p.failSection else 0) ++ leBytes 4 (if failed then p.failSub else 0)
    ++ leBytes 8 (if failed then p.failOffset else 0) ++ fitBytes 64 p.measurement
    ++ leBytes 4 (fieldAt p.header 0x28 4) ++ leBytes 4 p.opened.toNat ++ leBytes 4 p.settled.toNat
    ++ leBytes 4 p.round ++ leBytes 4 p.stepSerial.toNat
    ++ [BitVec.ofNat 8 m.withdrawnMask, BitVec.ofNat 8 m.step.admissions.length, BitVec.ofNat 8 p.haltKind, 0]
    ++ leBytes 8 (m.counter Cnt.roundLate).value ++ leBytes 8 (m.counter Cnt.roundDoused).value
    ++ leBytes 8 (m.counter Cnt.itemReturned).value ++ leBytes 8 (m.counter Cnt.itemWatchdog).value
    ++ leBytes 4 p.worstRun ++ leBytes 4 p.worstRound ++ zeros 104

def planReportSpec (h : Cmd) : CmdSpec :=
  { opcode := Op.planReport, ownerOnly := false, params := bufParams h 256,
    run := fun m => Ans.ok (m.writeBuffer h m.planReport) }

/-- PLAN_REPORT (spec 03, R113). -/
def execPlanReport (h : Cmd) (s : State) : Out := .next (runCmd h (planReportSpec h) s)

/-! ### PLAN_START, PLAN_HALT, PLAN_RESUME -/

/-- Group values as the plan's group records give them (spec 12, R378). -/
def Plan.groupVals (p : Plan) : SMap GroupVals :=
  p.updates.foldl (fun t r => match r with
    | .group g => SMap.put GroupVals.zero t g.groupId ⟨g.lrMult, g.weightDecay⟩
    | _ => t) []

/-- Every pending replacement applies (spec 01, R36): units, clusters and bundles, then channels; a spare channel that takes
a role advances the generation of the distance table too (R50). -/
def Mod.replaceAll (m : Mod) : Mod :=
  let n := m.replaceUnits.replaceChannels
  let took := (List.range 28).any (fun k => (n.chan k).taken.isSome && (m.chan k).taken.isNone)
  if took && n.ctl.generation == m.ctl.generation then { n with ctl := { n.ctl with generation := n.ctl.generation + 1 } } else n

/-- The plan starts: replacements, round 0 waits to open (spec 01, R36; spec 03, R91, R113; spec 12, R377, R378). -/
def Mod.planStart (m : Mod) : Mod :=
  let m := m.replaceAll
  let m := { m with fenced := [] }
  let m := m.moveTo .running Op.planStart 0
  let m := { m with
    plan := { m.plan with
      st := .running, haltKind := 0, opened := 0, settled := 0, stepSerial := 0, worstRun := 0, worstRound := 0,
      round := 0, halts := [], discarded := false, reopen := false },
    run := { Run.idle with phase := .waiting },
    step := { m.step with
      reg := ⟨0, 0, 0⟩, inStep := false, skipped := false,
      groups := (m.plan.plan.map Plan.groupVals).getD [] } }
  m.tryOpen

/-- PLAN_START (spec 03, R91, R94; spec 06, R207; spec 10, R348; spec 14, R450, R453). -/
def execPlanStart (h : Cmd) (s : State) : Out :=
  .next (runCmd h
    { opcode := Op.planStart, ownerOnly := true, params := plainParams h,
      run := fun m =>
        if m.ctl.state ≠ .ready ∨ m.plan.st ≠ .loaded ∨ m.cannotRun ∨ m.bank.relightFailed
            ∨ (m.usesFabric ∧ !m.fab.configured) then Ans.rejected m Detail.badState
        else if m.bank.relight.isSome ∨ m.planMetByStream then Ans.busy m
        else Ans.ok m.planStart } s)

/-- A PLAN_HALT ends a wait at once, or stays pending until the round boundary (spec 03, R92; spec 04, R136, R137). -/
def Mod.planHalt (m : Mod) (t : Ticket) : Mod :=
  let m := { m with plan := { m.plan with halts := m.plan.halts ++ [t] } }
  match m.run.phase with
  | .waiting => ({ m with run := { m.run with phase := .none } }).enterHalted (if m.plan.reopen then 2 else 1) Op.planHalt 0
  | .barrier =>
    if m.run.barrierOut ∧ m.run.release = none then
      ({ m.freePlanCtxs with run := { Run.idle with serial := m.run.serial } }).enterHalted 1 Op.planHalt 0
    else m
  | .implicit =>
    if m.run.release = none then
      ({ m.freePlanCtxs with run := { Run.idle with serial := m.run.serial } }).enterHalted 2 Op.planHalt 0
    else m
  | .settling => if m.run.settleOut then m.enterHalted 3 Op.planHalt 0 else m
  | .run => if m.lateWait ∧ m.run.mark = none then { m with run := { m.run with mark := some Douse.halt } } else m
  | _ => m

/-- PLAN_HALT (spec 03, R91, R92). -/
def execPlanHalt (h : Cmd) (s : State) : Out :=
  .next (runCmd h
    { opcode := Op.planHalt, ownerOnly := true, params := plainParams h,
      run := fun m =>
        if m.ctl.state ≠ .running then Ans.rejected m Detail.badState
        else Ans.accepted (m.planHalt ⟨h.port, h.tag⟩) } s)

/-- The plan resumes: the settle wait goes on, or the resume round waits to open; a plan that has run past its last
round stays HALTED (spec 03, R91; spec 04, R135, R136). -/
def Mod.planResume (m : Mod) : Mod :=
  if m.plan.haltKind = 3 then
    let m := m.moveTo .running Op.planResume 0
    ({ m with plan := { m.plan with st := .running, haltKind := 0 } }).tryGates
  else if m.hdr.isNone then m
  else
    let m := m.moveTo .running Op.planResume 0
    ({ m with
      plan := { m.plan with st := .running, haltKind := 0 },
      run := { Run.idle with phase := .waiting, serial := m.run.serial, arrivals := m.run.arrivals } }).tryOpen

/-- PLAN_RESUME (spec 03, R91, R94; spec 06, R207). -/
def execPlanResume (h : Cmd) (s : State) : Out :=
  .next (runCmd h
    { opcode := Op.planResume, ownerOnly := true, params := plainParams h,
      run := fun m =>
        if m.ctl.state ≠ .halted ∨ m.plan.st ≠ .halted ∨ m.cannotRun then Ans.rejected m Detail.badState
        else if m.planMetByStream then Ans.busy m
        else Ans.ok m.planResume } s)

/-! ### PLAN_UNLOAD -/

/-- Nothing of the plan is held any more: staged writes, admissions, staged group values and the version table go
(spec 03, R91, R101; spec 12, R378). Drains of settled rounds go on. -/
def Mod.dropPlan (m : Mod) : Mod :=
  let m := m.freePlanCtxs
  { m with
    plan := { m.plan with
      st := .none, haltKind := 0, failCheck := 0, failSection := 0, failSub := 0, failOffset := 0, measurement := [],
      plan := none, loading := none, header := [], round := 0, halts := [], discarded := false, reopen := false, deferred := [],
      routeCounts := [] },
    run := Run.idle,
    step := { m.step with
      admissions := [], inStep := false, skipped := false, groups := [], stagedGroups := [], versions := [], pins := [] },
    fab := { m.fab with sentTo := [], seenFrom := [], flagWait := [], early := [] } }

/-- The unload (spec 03, R91; spec 12, R406; spec 14, R449, R453). -/
def Mod.planUnload (m : Mod) (t : Ticket) : Mod :=
  let m := m.step.exports.foldl Mod.truncateExport m
  let m := (m.endUpdate 6 true).dropPlan
  let m := { m with plan := { m.plan with unload := some t }, bank := { m.bank with relightFailed := false } }
  if m.ctl.state = .ready then m else m.moveTo .ready Op.planUnload 0

/-- PLAN_UNLOAD (spec 03, R91). -/
def execPlanUnload (h : Cmd) (s : State) : Out :=
  .next (runCmd h
    { opcode := Op.planUnload, ownerOnly := true, params := plainParams h,
      run := fun m =>
        if (m.ctl.state = .ready ∨ m.ctl.state = .halted ∨ m.ctl.state = .expelled)
            ∧ (m.plan.st = .loaded ∨ m.plan.st = .halted ∨ m.plan.st = .failed) then
          Ans.accepted (m.planUnload ⟨h.port, h.tag⟩)
        else Ans.rejected m Detail.badState } s)

/-- PLAN_UNLOAD_COMPLETE (spec 03, R91): its completion. -/
def execPlanUnloadComplete (s : State) : Out :=
  .next (match s.m.plan.unload with
    | some t => s.event (fun m =>
        ({ m with plan := { m.plan with unload := none } }).complete t Op.planUnload Cls.ok Detail.none [])
    | none => s)

/-! ### Step commands -/

/-- FP32, finite, at or above +0 (spec 12, R376, R378). -/
def stepValueOk (x : F32) : Bool := F32.isFinite x && !F32.lt x F32.zero

/-- STEP_BEGIN (spec 12, R376; spec 03, R101). -/
def execStepBegin (h : Cmd) (step : Word) (baseLr clipNorm : F32) (stepFlags : Word) (s : State) : Out :=
  .next (runCmd h
    { opcode := Op.stepBegin, ownerOnly := true, reserved := stepFlags != 0,
      params := plainParams h (!stepValueOk baseLr || !stepValueOk clipNorm),
      run := fun m =>
        if !m.holdsPlan ∨ !m.hasBody then Ans.rejected m Detail.badState
        else if 2 ≤ m.step.admissions.length then Ans.busy m
        else Ans.ok
          ({ m with step := { m.step with admissions := m.step.admissions ++ [Admission.mk step baseLr clipNorm] } }).tryOpen } s)

/-- The plan has a group record with an id. -/
def Plan.hasGroup (p : Plan) (id : Nat) : Bool :=
  p.updates.any (fun r => match r with | .group g => g.groupId == id | _ => false)

/-- GROUP_SET (spec 12, R378). -/
def execGroupSet (h : Cmd) (id : Half) (lrMult weightDecay : F32) (s : State) : Out :=
  .next (runCmd h
    { opcode := Op.groupSet, ownerOnly := true,
      params := fun m =>
        let unknown := match m.plan.plan with | some p => !p.hasGroup id.toNat | none => false
        plainParams h (decide (255 < id.toNat) || !stepValueOk lrMult || !stepValueOk weightDecay || unknown) m,
      run := fun m =>
        if !m.holdsPlan ∨ !m.hasBody then Ans.rejected m Detail.badState
        else Ans.ok { m with step := { m.step with
          stagedGroups := SMap.ins id.toNat (GroupVals.mk lrMult weightDecay) m.step.stagedGroups } } } s)

/-- step_state of R398. -/
def Mod.stepState (m : Mod) : Nat :=
  if m.plan.st = .halted then 3
  else if m.run.phase = .waiting ∧ m.gateShut then 1
  else if m.step.inStep then 2
  else 0

/-- The block of R398 (spec 12). -/
def Mod.stepStatus (m : Mod) : Bytes :=
  let l := m.step.last
  leBytes 4 m.plan.stepSerial.toNat ++ leBytes 4 l.step.toNat
    ++ [BitVec.ofNat 8 m.stepState, BitVec.ofNat 8 l.outcome, BitVec.ofNat 8 m.step.admissions.length, BitVec.ofNat 8 l.word]
    ++ leBytes 4 l.nonfinite ++ leBytes 4 l.norm.toNat ++ leBytes 4 l.clip.toNat ++ leBytes 4 l.baseLr.toNat
    ++ leBytes 4 l.clipNorm.toNat ++ leBytes 8 (m.counter Cnt.updateSkipped).value
    ++ leBytes 8 (m.counter Cnt.versionWait).value ++ leBytes 8 (m.counter Cnt.snapshotTrunc).value ++ zeros 8

/-- STEP_STATUS (spec 12, R398). -/
def execStepStatus (h : Cmd) (s : State) : Out :=
  .next (runCmd h
    { opcode := Op.stepStatus, ownerOnly := false, params := bufParams h 64,
      run := fun m => Ans.ok (m.writeBuffer h m.stepStatus) } s)

end Sys2Proof.Machine
end

