-- ==== Sys2Proof/Machine/HostCmd.lean ====
section
/-! DEFINITION. Host commands on status, ownership, counters, regions, records (spec 15, R468, R479, R482, R487 to R492;
spec 06, R194 to R196; spec 13, R412; spec 01, R50; spec 18, R548 to R550; spec 16, R508, R510; spec 18, R543).
Each `…Spec` is shared with the sideband (spec 18, R553). -/
namespace Sys2Proof.Machine

/-! ### Status -/

/-- NOP (spec 15, R468). -/
def nopSpec (h : Cmd) : CmdSpec :=
  { opcode := Op.nop, ownerOnly := false, params := plainParams h, run := fun m => Ans.ok m }

def execNop (h : Cmd) (s : State) : Out := .next (runCmd h (nopSpec h) s)

/-- The population word of R2 (spec 03, R95). -/
def population : Nat := 0x240C

/-- IDENTIFY's result (spec 15, R486). -/
def Mod.identity (m : Mod) : Bytes :=
  leBytes 2 population ++ leBytes 2 Config.position ++ leBytes 4 m.fw.running.version
    ++ (List.range 8).map (fun c => BitVec.ofNat 8 (m.usable c))

def identifySpec (h : Cmd) : CmdSpec :=
  { opcode := Op.identify, ownerOnly := false, params := plainParams h, run := fun m => Ans.ok m m.identity }

/-- IDENTIFY (spec 15, R486). -/
def execIdentify (h : Cmd) (s : State) : Out := .next (runCmd h (identifySpec h) s)

/-- Serial of the newest fault record; 0 while none has been written since cold start (spec 15, R487). -/
def FaultLog.newest (l : FaultLog) : Word :=
  if l.written then (if l.next = 1#32 then 0xFFFFFFFF#32 else l.next - 1) else 0

/-- STATUS_READ's result for a port (spec 15, R487). -/
def Mod.status (m : Mod) (port : Nat) : Bytes :=
  [BitVec.ofNat 8 m.ctl.state.code, BitVec.ofNat 8 m.plan.st.code, BitVec.ofNat 8 (m.ctl.owner.getD 0xFF),
   BitVec.ofNat 8 (b2n (decide (m.ctl.owner = some port)) + 2 * b2n m.ctl.lapsed + 4 * b2n m.ctl.refLost)]
  ++ leBytes 4 m.plan.round ++ leBytes 4 (min m.ctl.ownerIdleMs 0xFFFFFFFF) ++ leBytes 4 m.log.newest.toNat

def statusReadSpec (h : Cmd) : CmdSpec :=
  { opcode := Op.statusRead, ownerOnly := false, params := plainParams h,
    run := fun m => Ans.ok m (m.status h.port) }

/-- STATUS_READ (spec 15, R487). -/
def execStatusRead (h : Cmd) (s : State) : Out := .next (runCmd h (statusReadSpec h) s)

/-- ATTN_ACK (spec 15, R479): commands take effect one at a time, so no bit of the mask stays set. -/
def execAttnAck (h : Cmd) (mask : Byte) (s : State) : Out :=
  .next (runCmd h
    { opcode := Op.attnAck, ownerOnly := false, params := plainParams h,
      run := fun m => Ans.ok { m with out := { m.out with attnAck := m.out.attnAck ++ [(h.port, mask)] } } [0] } s)

/-! ### Ownership -/

/-- A change of owner (spec 15, R482): ATTN_OWNER in both copies, CNT_OWNER_CHANGE. -/
def Mod.setOwner (m : Mod) (o : Option Nat) : Mod :=
  let m := { m with ctl := { m.ctl with owner := o, lapsed := false, ownerIdleMs := 0 } }
  (m.attention Attn.owner).count Cnt.ownerChange 1

/-- OWNER_CLAIM (spec 15, R482). -/
def execOwnerClaim (h : Cmd) (s : State) : Out :=
  .next (runCmd h
    { opcode := Op.ownerClaim, ownerOnly := false, params := plainParams h,
      run := fun m =>
        if m.ctl.owner = some h.port then Ans.ok m [BitVec.ofNat 8 h.port]
        else if m.ctl.owner = none ∨ m.ctl.lapsed then Ans.ok (m.setOwner (some h.port)) [BitVec.ofNat 8 h.port]
        else Ans.rejected m Detail.badState } s)

/-- OWNER_YIELD (spec 15, R482). -/
def execOwnerYield (h : Cmd) (s : State) : Out :=
  .next (runCmd h
    { opcode := Op.ownerYield, ownerOnly := true, params := plainParams h,
      run := fun m => Ans.ok (m.setOwner none) } s)

/-- The owner lapses (spec 15, R482): ATTN_OWNER. -/
def Mod.lapse (m : Mod) : Mod :=
  if m.ctl.owner.isSome && !m.ctl.lapsed then
    ({ m with ctl := { m.ctl with lapsed := true } }).attention Attn.owner
  else m

/-- OWNER_LAPSE (spec 15, R482): 2,000 ms without a started command of the owner. -/
def execOwnerLapse (s : State) : Out :=
  .next (if 2000 ≤ s.m.ctl.ownerIdleMs then s.event Mod.lapse else s)

/-! ### Counters -/

/-- One entry of COUNTER_READ (spec 15, R492). -/
def Mod.counterEntry (m : Mod) (id : Nat) : Bytes :=
  if Cnt.present id then
    leBytes 2 id ++ [BitVec.ofNat 8 (b2n (m.counter id).sat)] ++ zeros 5 ++ leBytes 8 (m.counter id).value
  else leBytes 2 id ++ [2] ++ zeros 13

/-- Clear the counters of a range (spec 15, R488). -/
def Mod.clearCounters (m : Mod) (first count : Nat) : Mod :=
  { m with cnt := SMap.keep m.cnt (fun id => !(decide (first ≤ id) && decide (id < first + count))) }

def counterReadSpec (h : Cmd) (first count : Half) (flags : Byte) : CmdSpec :=
  { opcode := Op.counterRead, ownerOnly := false, reserved := decide (1 < flags.toNat),
    forbidden := fun m => flags.toNat == 1 && decide (m.ctl.owner ≠ some h.port),
    params := bufParams h (16 * count.toNat)
      (count == 0 || decide (256 < count.toNat) || decide (0x10000 < first.toNat + count.toNat)),
    run := fun m =>
      let bs := ((List.range count.toNat).map (fun i => m.counterEntry (first.toNat + i))).flatten
      let m := m.writeBuffer h bs
      let m := if flags.toNat = 1 then m.clearCounters first.toNat count.toNat else m
      Ans.ok m (leBytes 2 count.toNat) }

/-- COUNTER_READ (spec 15, R488, R489, R492). -/
def execCounterRead (h : Cmd) (firstId count : Half) (flags : Byte) (s : State) : Out :=
  .next (runCmd h (counterReadSpec h firstId count flags) s)

/-! ### The distance table (spec 01, R49, R50) -/

/-- Die of a core, and of a target of a distance block. -/
def coreDie (core : Nat) : Nat := core / 4

def targetDie (core entry : Nat) : Nat :=
  if entry < 768 then entry / 64 / 6
  else if entry < 775 then coreDie (let c := entry - 768; if c < core then c else c + 1)
  else (entry - 775) / 2

/-- One word of the table. -/
def distanceWord (gen minHops core entry : Nat) : Nat :=
  if Config.reachable gen core entry then
    let hops := Config.hops gen core entry
    let cross := b2n (targetDie core entry != coreDie core)
    (hops % 256) * 2 ^ 24 + ((hops - minHops + 8 * cross) % 65536) * 2 ^ 8 + 2 * cross + 1
  else 0

/-- The block of a core: 779 words. -/
def distanceBlock (gen core : Nat) : Bytes :=
  let hops := ((List.range 779).filter (Config.reachable gen core)).map (Config.hops gen core)
  let minHops := hops.foldl min (hops.headD 0)
  ((List.range 779).map (fun e => leBytes 4 (distanceWord gen minHops core e))).flatten

def distanceTable (gen : Word) : Bytes :=
  leBytes 4 gen.toNat ++ leBytes 2 8 ++ leBytes 2 779 ++ leBytes 2 4 ++ zeros 6
    ++ ((List.range 8).map (distanceBlock gen.toNat)).flatten

/-- DISTANCE_READ (spec 01, R50, R51). -/
def execDistanceRead (h : Cmd) (s : State) : Out :=
  .next (runCmd h
    { opcode := Op.distanceRead, ownerOnly := false, params := bufParams h 24944,
      run := fun m => Ans.ok (m.writeBuffer h (distanceTable m.ctl.generation)) (leBytes 4 m.ctl.generation.toNat) } s)

/-! ### Regions (spec 06, R194 to R196) -/

def Mod.region (m : Mod) (id : Nat) : Region := SMap.get Region.free m.regions id

def Mod.setRegion (m : Mod) (id : Nat) (r : Region) : Mod :=
  { m with regions := SMap.put Region.free m.regions id r }

/-- Streams held on a region (spec 06, R194). -/
def Mod.heldOn (m : Mod) (id : Nat) : Nat :=
  (m.ctxs.filter (fun e => match e.2 with
    | some c => c.st == .held && c.region == id
    | none => false)).length

/-- A region table entry as bytes (spec 06, R194). -/
def Mod.regionBytes (m : Mod) (id : Nat) : Bytes :=
  let r := m.region id
  let st := match r.state with | .free => 0 | .active => 1 | .revoking => 2
  let word := st * 2 ^ 14 + r.port * 2 ^ 12 + b2n r.read * 2 ^ 11 + b2n r.write * 2 ^ 10
  leBytes 2 id ++ leBytes 2 word ++ leBytes 4 r.gen.toNat ++ leBytes 8 r.base ++ leBytes 8 r.size
    ++ leBytes 4 r.drained.toNat ++ leBytes 2 (min 0xFFFF (m.heldOn id)) ++ zeros 2

/-- What REGION_REGISTER rejects with BAD_PARAM (spec 06, R195). -/
def regionIllegal (id access base size : Nat) : Bool :=
  decide (4095 < id) || base % 4096 != 0 || size % 4096 != 0 || decide (size < 4096) || decide (2 ^ 40 < size)
  || decide (2 ^ 64 < base + size) || access == 0

/-- REGION_REGISTER (spec 06, R195). -/
def execRegionRegister (h : Cmd) (id : Half) (access : Byte) (base size : Dword) (s : State) : Out :=
  .next (runCmd h
    { opcode := Op.regionRegister, ownerOnly := false, reserved := decide (3 < access.toNat),
      params := plainParams h (regionIllegal id.toNat access.toNat base.toNat size.toNat),
      run := fun m =>
        let r := m.region id.toNat
        if r.state ≠ .free then Ans.rejected m Detail.badState
        else Ans.ok (m.setRegion id.toNat
          { r with state := .active, port := h.port, read := bit access.toNat 0, write := bit access.toNat 1,
                   gen := r.gen + 1, base := base.toNat, size := size.toNat, ticket := none }) } s)

/-- REGION_REVOKE (spec 06, R196). -/
def execRegionRevoke (h : Cmd) (id : Half) (s : State) : Out :=
  .next (runCmd h
    { opcode := Op.regionRevoke, ownerOnly := false,
      forbidden := fun m => (m.region id.toNat).state != .free && (m.region id.toNat).port != h.port,
      params := plainParams h (decide (4095 < id.toNat)),
      run := fun m =>
        let r := m.region id.toNat
        if r.state ≠ .active then Ans.rejected m Detail.badState
        else Ans.accepted (m.setRegion id.toNat { r with state := .revoking, ticket := some ⟨h.port, h.tag⟩ }) } s)

/-- A revoke ends (spec 06, R196): the entry becomes FREE; generation and drained_serial stay (R195). -/
def Mod.freeRegion (m : Mod) (id : Nat) : Mod :=
  let r := m.region id
  if r.state = .revoking then
    (m.setRegion id { Region.free with gen := r.gen, drained := r.drained }).completeOpt r.ticket Op.regionRevoke
      Cls.ok Detail.none []
  else m

/-- REGION_REVOKE_COMPLETE (spec 06, R196). -/
def execRegionRevokeComplete (id : Nat) (s : State) : Out := .next (s.event (fun m => m.freeRegion id))

/-- REGION_QUERY (spec 06, R194; spec 15, R486): the buffer is optional. -/
def execRegionQuery (h : Cmd) (id : Half) (s : State) : Out :=
  .next (runCmd h
    { opcode := Op.regionQuery, ownerOnly := false,
      params := fun m =>
        if 4095 < id.toNat then some Detail.badParam
        else if noBuffer h then none
        else if m.bufferOk h 32 true then none else some Detail.badParam,
      run := fun m =>
        let bs := m.regionBytes id.toNat
        let m := if noBuffer h then m else m.writeBuffer h bs
        Ans.ok m (bs.take 8 ++ bs.drop 0x18) } s)

/-- The regions of a port are revoked without a reply (spec 15, R463). -/
def Mod.revokePort (m : Mod) (port : Nat) : Mod :=
  { m with regions := SMap.mapVals Region.free m.regions (fun r =>
      if r.state = .active ∧ r.port = port then { r with state := .revoking, ticket := none } else r) }

/-! ### Fault log (spec 13, R412) -/

/-- Serial a is at or after serial b (spec 15, R490). -/
def atOrAfter (a b : Word) : Bool := decide (0 ≤ serialDist b a)

/-- The serials that FAULT_LOG_READ returns. -/
def FaultLog.select (l : FaultLog) (first : Word) (n : Nat) : List FaultRec :=
  (l.recs.filter (fun r => atOrAfter r.serial first)).take n

/-- Mark the records returned (spec 13, R411). -/
def FaultLog.mark (l : FaultLog) (serials : List Word) : FaultLog :=
  { l with recs := l.recs.map (fun r => if r.serial ∈ serials then { r with returned := true } else r) }

def faultLogReadSpec (h : Cmd) (first : Word) (maxCount : Half) : CmdSpec :=
  { opcode := Op.faultLogRead, ownerOnly := false,
    params := bufParams h (64 * maxCount.toNat) (maxCount == 0 || decide (4096 < maxCount.toNat)),
    run := fun m =>
      let sel := m.log.select first maxCount.toNat
      let oldest := match m.log.recs with | r :: _ => r.serial | [] => m.log.next
      let m := m.writeBuffer h (sel.map FaultRec.bytes).flatten
      let m := { m with log := m.log.mark (sel.map (·.serial)) }
      Ans.ok m (leBytes 2 sel.length ++ zeros 2 ++ leBytes 4 oldest.toNat) }

/-- FAULT_LOG_READ (spec 13, R412). -/
def execFaultLogRead (h : Cmd) (first : Word) (maxCount : Half) (s : State) : Out :=
  .next (runCmd h (faultLogReadSpec h first maxCount) s)

/-! ### The ash record (spec 18, R548 to R550) -/

/-- Oldest ash_seq held. -/
def Ash.oldest (a : Ash) : Word := a.next - BitVec.ofNat 32 a.held

/-- Newest ash_seq. -/
def Ash.newest (a : Ash) : Word := a.next - 1

/-- The entries from a serial on, verbatim, at most n. -/
def Ash.select (a : Ash) (first : Word) (n : Nat) : List Bytes :=
  let start := if atOrAfter first a.oldest then (first - a.oldest).toNat else 0
  ((List.range (min n (a.held - start))).map (fun i =>
    fitBytes 64 (SMap.get [] a.slots ((a.oldest.toNat + start + i) % 2 ^ 32 % ashSlots))))

def ashReadSpec (h : Cmd) (first maxCount : Word) : CmdSpec :=
  { opcode := Op.ashRead, ownerOnly := false,
    params := bufParams h (64 * maxCount.toNat) (maxCount == 0 || decide (65536 < maxCount.toNat)),
    run := fun m =>
      let sel := m.ash.select first maxCount.toNat
      Ans.ok (m.writeBuffer h sel.flatten)
        (leBytes 4 sel.length ++ leBytes 4 m.ash.oldest.toNat ++ leBytes 4 m.ash.newest.toNat) }

/-- ASH_READ (spec 18, R548). -/
def execAshRead (h : Cmd) (first maxCount : Word) (s : State) : Out :=
  .next (runCmd h (ashReadSpec h first maxCount) s)

/-- The time of a port's last ASH_NOTE. -/
def Ash.noteAt (a : Ash) (port : Nat) : Option Nat := if port = 0 then a.note0 else a.note1

def Ash.setNote (a : Ash) (port now : Nat) : Ash :=
  if port = 0 then { a with note0 := some now } else { a with note1 := some now }

/-- ASH_NOTE (spec 18, R549): one per port per millisecond of power-on time. -/
def execAshNote (h : Cmd) (note : BitVec 320) (s : State) : Out :=
  .next (runCmd h
    { opcode := Op.ashNote, ownerOnly := true, params := plainParams h,
      run := fun m =>
        if m.ash.noteAt h.port = some m.ctl.powerOnMs then Ans.busy m
        else
          let seq := m.ash.next
          let m := m.ashAppend 0x08 (.host h.port) (leBytes 40 note.toNat)
          Ans.ok { m with ash := m.ash.setNote h.port m.ctl.powerOnMs } (leBytes 4 seq.toNat) } s)

def ashStatusSpec (h : Cmd) : CmdSpec :=
  { opcode := Op.ashStatus, ownerOnly := false, params := plainParams h,
    run := fun m => Ans.ok m (leBytes 4 m.ash.newest.toNat ++ leBytes 4 m.ash.oldest.toNat ++ leBytes 4 m.ash.held
      ++ leBytes 2 (min 0xFFFF m.ash.torn) ++ [BitVec.ofNat 8 (b2n m.ash.wrapped + 2 * b2n m.ash.bench), 0]) }

/-- ASH_STATUS (spec 18, R550). -/
def execAshStatus (h : Cmd) (s : State) : Out := .next (runCmd h (ashStatusSpec h) s)

/-! ### Power queries (spec 16, R508 to R510; spec 18, R543) -/

/-- Whether a PSTATE_SET for a target is pending. -/
def Mod.changing (m : Mod) (kind index : Nat) : Bool :=
  m.pwr.changes.any (fun c => c.kind == kind && c.index == index)

def CorePs.code : CorePs → Nat
  | .off => 0 | .gated => 1 | .idle => 2 | .run => 3

/-- A 4-byte entry of PSTATE_QUERY. -/
def pstateEntry (state op flags : Nat) : Bytes :=
  [BitVec.ofNat 8 state, BitVec.ofNat 8 op, BitVec.ofNat 8 flags, 0]

def Mod.stack (m : Mod) (k : Nat) : StackRec := SMap.get StackRec.off m.pwr.hbmStacks k

def Mod.pstateCore (m : Mod) (c : Nat) : Bytes :=
  let r := m.core c
  pstateEntry r.ps.code (if r.ps = .run then r.op else 0)
    (4 * b2n (m.changing 0 c) + 2 * b2n (m.withdrawn c) + b2n r.kindling)

def Mod.pstateStack (m : Mod) (k : Nat) : Bytes := pstateEntry (m.stack k).ps 0 (4 * b2n (m.changing 1 k))
def Mod.pstatePort (m : Mod) (p : Nat) : Bytes :=
  pstateEntry (b2n (if p = 0 then m.link0.on else m.link1.on)) 0 (4 * b2n (m.changing 3 p))

/-- Whether a channel is powered (spec 16, R503). -/
def Mod.channelPowered (m : Mod) (k : Nat) : Bool := (SMap.get Chan.off m.fab.chans k).powered

def pstateQuerySpec (h : Cmd) : CmdSpec :=
  { opcode := Op.pstateQuery, ownerOnly := false, params := bufParams h 216,
    run := fun m =>
      Ans.ok (m.writeBuffer h ([BitVec.ofNat 8 m.ctl.state.code, BitVec.ofNat 8 (b2n m.pwr.guard.coolOk)] ++ zeros 14
        ++ ((List.range 8).map m.pstateCore).flatten ++ ((List.range 12).map m.pstateStack).flatten
        ++ ((List.range 28).map (fun k =>
          pstateEntry (b2n (m.channelPowered k)) 0 (4 * b2n (m.changing 2 k)))).flatten
        ++ ((List.range 2).map m.pstatePort).flatten)) }

/-- PSTATE_QUERY (spec 16, R508). -/
def execPstateQuery (h : Cmd) (s : State) : Out := .next (runCmd h (pstateQuerySpec h) s)

/-- The nominal operating points (spec 16, R509): MHz, mV, W; the ninth is the margin point. -/
def opPoints : List (Nat × Nat × Nat) :=
  [(600, 620, 49), (750, 650, 67), (900, 690, 91), (1000, 720, 110), (1100, 750, 131), (1200, 780, 155),
   (1350, 810, 188), (1500, 850, 230), (1600, 880, 0)]

/-- The nine entries of OPPOINT_READ for a core (spec 16, R510). -/
def opPointEntries (core : Nat) : Bytes :=
  ((List.range 9).map (fun i =>
    let p := opPoints.getD i (0, 0, 0)
    [BitVec.ofNat 8 i, BitVec.ofNat 8 (b2n (i == 8))] ++ leBytes 2 p.1 ++ leBytes 2 p.2.1
      ++ leBytes 2 (Config.calibratedMv core i) ++ leBytes 2 p.2.2 ++ zeros 6)).flatten

def oppointReadSpec (h : Cmd) (core : Byte) : CmdSpec :=
  { opcode := Op.oppointRead, ownerOnly := false, params := bufParams h 160 (decide (7 < core.toNat)),
    run := fun m =>
      let r := m.core core.toNat
      Ans.ok (m.writeBuffer h ([core, BitVec.ofNat 8 (if r.ps = .run then r.op else 0xFF)] ++ zeros 14
        ++ opPointEntries core.toNat)) }

/-- OPPOINT_READ (spec 16, R510). -/
def execOppointRead (h : Cmd) (core : Byte) (s : State) : Out := .next (runCmd h (oppointReadSpec h core) s)

/-- A rail's state code, and the group it starts with and how many (spec 18, R543). -/
def Mod.rail (m : Mod) (r : Nat) : Nat := SMap.get 0 m.pwr.rails r

def railGroups (r : Nat) : Nat × Nat :=
  if r < 8 then (2 * r, 2) else if r < 16 then (r + 8, 1) else (0xFF, 0)

def Mod.group (m : Mod) (g : Nat) : Group := SMap.get Group.whole m.pwr.groups g

/-- The rail of a group. -/
def groupRail (g : Nat) : Nat := if g < 16 then g / 2 else g - 8

def healthyPhases (mask : Nat) : Nat := ((List.range 6).map (fun n => b2n (bit mask n))).sum

/-- A signed 16-bit field. -/
def le16s (v : Int) : Bytes := leBytes 2 (unsigned 16 v)

/-- Times of TRIP_CURRENT within the last 24 power-on hours (spec 18, R536, R543). -/
def Mod.recentTrips (m : Mod) : List Nat :=
  m.pwr.guard.currentTrips.filter (fun t => decide (m.ctl.powerOnMs < t + 86400000))

def Mod.guardFlags (m : Mod) : Nat :=
  let g := m.pwr.guard
  b2n g.coolOk + 2 * b2n g.present + 4 * b2n (g.swA && g.swB) + 8 * b2n g.lockout + 16 * b2n g.selfTestOk

/-- RAIL_STATUS's 560 bytes (spec 18, R543). What no input gives (rail voltages, currents, powers, commanded voltages,
phase temperatures) are free readings from draw `d` (assumption log 3). -/
def Mod.railStatus (m : Mod) (d : Nat) : Bytes :=
  let g := m.pwr.guard
  let rail (r : Nat) : Bytes :=
    [BitVec.ofNat 8 r, BitVec.ofNat 8 (m.rail r), BitVec.ofNat 8 (railGroups r).1, BitVec.ofNat 8 (railGroups r).2]
    ++ leBytes 2 (Config.reading (d + 8 * r)) ++ leBytes 2 (Config.reading (d + 8 * r + 1))
    ++ leBytes 2 (Config.reading (d + 8 * r + 2)) ++ leBytes 2 (Config.reading (d + 8 * r + 3)) ++ zeros 4
  let group (k : Nat) : Bytes :=
    [BitVec.ofNat 8 k, BitVec.ofNat 8 (healthyPhases (m.group k).mask), BitVec.ofNat 8 (m.group k).mask,
     BitVec.ofNat 8 (m.group k).state]
    ++ leBytes 2 (Config.reading (d + 8 * k + 4)) ++ leBytes 2 (Config.reading (d + 8 * k + 5))
  [BitVec.ofNat 8 m.ctl.state.code, BitVec.ofNat 8 m.guardFlags, BitVec.ofNat 8 m.recentTrips.length, 0]
  ++ leBytes 4 g.lastTrip ++ leBytes 2 g.vin ++ leBytes 2 g.iin ++ leBytes 2 g.iinPeak ++ leBytes 2 g.pin
  ++ leBytes 4 m.powerOnS ++ zeros 12
  ++ ((List.range 12).map (fun k => le16s (SMap.get 0 g.dieTemps k))).flatten
  ++ ((List.range 12).map (fun k => le16s (SMap.get 0 g.stackTemps k))).flatten
  ++ le16s g.coolantIn ++ le16s g.coolantOut ++ zeros 12
  ++ ((List.range 17).map rail).flatten ++ ((List.range 24).map group).flatten

def railStatusSpec (h : Cmd) : CmdSpec :=
  { opcode := Op.railStatus, ownerOnly := false, params := bufParams h 560,
    run := fun m =>
      let m := m.writeBuffer h (m.railStatus m.free)
      Ans.ok { m with free := m.free + 256,
                      pwr := { m.pwr with guard := { m.pwr.guard with iinPeak := m.pwr.guard.iin } } } }

/-- RAIL_STATUS (spec 18, R543). -/
def execRailStatus (h : Cmd) (s : State) : Out := .next (runCmd h (railStatusSpec h) s)

end Sys2Proof.Machine
end

