-- ==== Sys2Proof/Machine/Hearth.lean ====
section
/-! DEFINITION. The hearth controller (spec 15, R464, R471), link events (R463), IDE and SPDM (spec 17, R526, R527). -/
namespace Sys2Proof.Machine

/-- The standby supply is up: the module is not OFF. -/
def State.powered (s : State) : Bool := s.m.ctl.state != .off

/-- One millisecond (spec 15, R464; assumption log 7): power-on time and the owner's idle time advance; HEARTH_BEAT
advances while the hearth controller runs. -/
def Mod.beat (m : Mod) : Mod :=
  { m with ctl := { m.ctl with
      powerOnMs := m.ctl.powerOnMs + 1,
      ownerIdleMs := if m.ctl.owner.isSome then m.ctl.ownerIdleMs + 1 else m.ctl.ownerIdleMs,
      beat := if m.ctl.restart.isNone then m.ctl.beat + 1 else m.ctl.beat } }

/-- HEARTH_BEAT (spec 15, R464). -/
def execHearthBeat (s : State) : Out := .next (if s.powered then s.event Mod.beat else s)

/-- The hearth controller stops: both ports' rings are disabled (spec 15, R471). -/
def Mod.hearthStops (m : Mod) (why : Restart) : Mod :=
  { m with ctl := { m.ctl with restart := some why }, out := { m.out with ringsOff := m.out.ringsOff ++ [0, 1] } }

/-- HEARTH_LOCKSTEP_MISMATCH (spec 15, R471). -/
def execHearthLockstepMismatch (s : State) : Out :=
  .next (if s.powered && s.m.ctl.restart.isNone then s.event (fun m => m.hearthStops .lockstep) else s)

/-- The FENCE record of a restart (spec 15, R471). R471 names class, cause and unit; detail UNIT_FENCED and scope
OUT_OF_BOUND are read from R47 and R434 (assumption log 10). -/
def restartRecord : Report :=
  { cls := Rec.fence, attn := Attn.fault, detail := Detail.unitFenced, scope := Scope.outOfBound,
    payload := leBytes 2 0xFFFF ++ [4] }

/-- The hearth controller runs again (spec 15, R471; spec 17, R518: an activation advances nothing and writes no
record). -/
def Mod.hearthUp (m : Mod) : Mod :=
  match m.ctl.restart with
  | some .lockstep =>
    let m := { m with ctl := { m.ctl with restart := none, restarts := min 0xFFFFFFFF (m.ctl.restarts + 1) } }
    m.reportFault restartRecord
  | some .activate => { m with ctl := { m.ctl with restart := none } }
  | _ => m

/-- HEARTH_RESTART_COMPLETE (spec 15, R471). -/
def execHearthRestartComplete (s : State) : Out := .next (s.event Mod.hearthUp)

/-! ### Link events -/

def Mod.setLink (m : Mod) (port : Nat) (f : Link → Link) : Mod :=
  if port = 0 then { m with link0 := f m.link0 } else { m with link1 := f m.link1 }

def Mod.link (m : Mod) (port : Nat) : Link := if port = 0 then m.link0 else m.link1

/-- Link down, hot reset, function-level reset, conventional reset of a port (spec 15, R463; IDE goes off, spec 17,
R526). -/
def Mod.linkDown (m : Mod) (port : Nat) : Mod :=
  let m := m.revokePort port
  let m := if m.ctl.owner = some port then m.lapse else m
  let m := m.setLink port (fun l => { l with session := none, progKey := none, activeKey := none })
  let m := m.attentionAt (1 - port) Attn.owner
  { m with out := { m.out with ringsOff := m.out.ringsOff ++ [port], attnClear := m.out.attnClear ++ [port] } }

def State.linkEvent (s : State) (port : Nat) (f : Mod → Mod) : State :=
  if s.powered && decide (port < 2) then s.event f else s

/-- LINK_DOWN (spec 15, R463). -/
def execLinkDown (port : Nat) (s : State) : Out := .next (s.linkEvent port (fun m => m.linkDown port))

/-- HOT_RESET (spec 15, R463). -/
def execHotReset (port : Nat) (s : State) : Out := .next (s.linkEvent port (fun m => m.linkDown port))

/-- FUNCTION_LEVEL_RESET (spec 15, R463). -/
def execFunctionLevelReset (port : Nat) (s : State) : Out := .next (s.linkEvent port (fun m => m.linkDown port))

/-- CONVENTIONAL_RESET (spec 15, R463): does the same for the port and does not reset the module. -/
def execConventionalReset (port : Nat) (s : State) : Out := .next (s.linkEvent port (fun m => m.linkDown port))

/-- IDE_FAIL (spec 17, R527). -/
def execIdeFail (port : Nat) (s : State) : Out :=
  .next (s.linkEvent port (fun m =>
    let m := (m.linkDown port).attentionAt (1 - port) Attn.fault
    m.ashSecurity .hearth Detail.ideFail m.fw.running.version m.fw.running.measurement))

/-! ### SPDM and IDE_KM (spec 17, R526, R527) -/

def Mod.doe (m : Mod) (bs : Bytes) : Mod := { m with side := { m.side with doeOut := bs } }

/-- Sign a digest with the identity key: a free signature of 1 to 1,280 bytes (assumption log 3). -/
def signature (draw : Nat) (digest : Bytes) : Bytes :=
  fitBytes (Config.freeNat draw % 1280 + 1) (Config.falconSign draw digest)

/-- KEY_EXCHANGE (spec 17, R526): a session signed with the identity key; it fails while a debug scope is unlocked
(R523). -/
def execKeyExchange (port key : Nat) (s : State) : Out :=
  .next (s.linkEvent port (fun m =>
    if m.side.scopes ≠ 0 then m.doe []
    else
      let sig := signature m.free (leBytes 64 key)
      let m := { m with free := m.free + 1 }
      (m.setLink port (fun l => { l with session := some key })).doe sig))

/-- IDE_KM_KEY_PROG (spec 17, R526): inside a session. -/
def execIdeKmKeyProg (port key : Nat) (s : State) : Out :=
  .next (s.linkEvent port (fun m =>
    if (m.link port).session.isSome then m.setLink port (fun l => { l with progKey := some key }) else m))

/-- K_SET_GO (spec 17, R527). -/
def execKSetGo (port : Nat) (s : State) : Out :=
  .next (s.linkEvent port (fun m =>
    m.setLink port (fun l => match l.progKey with
      | some k => { l with activeKey := some k, progKey := none }
      | none => l)))

end Sys2Proof.Machine
end

