-- ==== Sys2Proof/Machine/RoundEvents.lean ====
section
/-! DEFINITION. Events of a round: its open, barriers, run end, settle, gates, commit, douse, replay (spec 03, R98 to R100,
R110; spec 04, R128 to R137; spec 10, R336, R338; spec 12, R403; spec 13, R430, R431). An event whose premise does not
hold in the state changes nothing. -/
namespace Sys2Proof.Machine

/-! ### Open and barriers -/

/-- ROUND_OPEN (spec 03, R98). -/
def execRoundOpen (s : State) : Out := .next (s.event Mod.tryOpen)

/-- VERSION_WAIT_TIMEOUT (spec 12, R403): the oldest export on the set ends as truncated; the open proceeds. -/
def Mod.versionTimeout (m : Mod) : Mod :=
  if m.run.phase = .waiting ∧ m.ctl.state = .running ∧ 3 ∈ m.openWaits then
    match (m.plan.plan.bind (fun p => m.hdr.bind p.updSet)).bind (fun x => m.oldestExport x.1) with
    | some x => (m.truncateExport x).tryOpen
    | none => m
  else m

def execVersionWaitTimeout (s : State) : Out := .next (s.event Mod.versionTimeout)

/-- Members directly below whose arrival is missing (spec 10, R338). -/
def Mod.missingArrivals (m : Mod) : List Nat :=
  (treeChildren m.barrierMembers Config.position).filter (fun x => x ∉ m.run.arrivals)

/-- BARRIER_TIMEOUT (spec 03, R110; spec 04, R135; spec 10, R343): the record, the suspects, and the wait goes on. -/
def Mod.barrierTimeout (m : Mod) : Mod :=
  if m.run.phase.atBarrier ∧ m.run.release = none ∧ !m.run.barrierOut then
    let gone := m.missingArrivals
    let index := if m.run.phase = .implicit then m.setId else m.barrierId
    let m := { m with run := { m.run with barrierOut := true } }
    (m.timeoutRecord Detail.barrierTimeout index gone).raiseSuspects gone .noBarrier m.barrierId
  else m

def execBarrierTimeout (s : State) : Out := .next (s.event Mod.barrierTimeout)

/-- A barrier message belongs to the plan held and to the round that opens next (spec 10, R336), and, while the module
waits at a barrier, to that barrier. -/
def Mod.ownBarrier (m : Mod) (x : BarrierMsg) : Bool :=
  m.plan.plan.isSome && x.planIdLo == BitVec.ofNat 32 m.planId && x.serial == m.nextRoundSerial
  && (!m.run.phase.atBarrier || x.barrier == m.barrierId)

/-- BARRIER_ARRIVE (spec 10, R338): held until every member below has arrived. -/
def Mod.barrierArrive (m : Mod) (x : BarrierMsg) : Mod :=
  if m.ownBarrier x && (!m.run.phase.atBarrier || decide (x.sender ∈ treeChildren m.barrierMembers Config.position)) then
    let m := if x.sender ∈ m.run.arrivals then m
      else { m with run := { m.run with arrivals := x.sender :: m.run.arrivals } }
    m.barrierStep
  else m.dropEmber

def execBarrierArrive (msg : BarrierMsg) (s : State) : Out := .next (s.event (fun m => m.barrierArrive msg))

/-- BARRIER_RELEASE (spec 10, R338): passed down the tree; a release after its time starts the round on arrival. -/
def Mod.barrierRelease (m : Mod) (x : BarrierMsg) (t : Nat) : Mod :=
  if m.run.phase.atBarrier && m.run.arrived && m.ownBarrier x
      && treeParent m.barrierMembers Config.position == some x.sender then
    let m := { m with run := { m.run with release := some t } }
    let m := m.sendAll ((treeChildren m.barrierMembers Config.position).map (fun d => Sent.release d (m.barrierMsg 0) t))
    if t < m.fab.time then (m.count Cnt.barrierLate 1).startRound t else m
  else m.dropEmber

def execBarrierRelease (msg : BarrierMsg) (releaseTime : Nat) (s : State) : Out :=
  .next (s.event (fun m => m.barrierRelease msg releaseTime))

/-- BARRIER_RELEASE_TIME (spec 10, R338; spec 03, R99): fabric time reaches the release time and the round starts. -/
def Mod.releaseNow (m : Mod) : Mod :=
  match m.run.release with
  | some t =>
    if m.run.phase.atBarrier ∧ m.ctl.state = .running then
      ({ m with fab := { m.fab with time := max m.fab.time t } }).startRound t
    else m
  | none => m

def execBarrierReleaseTime (s : State) : Out := .next (s.event Mod.releaseNow)

/-! ### Run end and settle -/

/-- RUN_PHASE_END (spec 03, R100): everything that the round names has finished. `runNs` is the interval from round start;
a run past budget_ns counts in CNT_ROUND_LATE when the round settles or douses. -/
def Mod.runEnds (m : Mod) (runNs : Nat) : Mod :=
  if m.run.phase = .run ∧ m.run.mark = none ∧ m.ctl.state = .running ∧ m.runDone then
    let late := decide ((m.hdr.map (·.budgetNs)).getD 0 < runNs)
    let m := if late then m.tallyEvent Cnt.roundLate 1 else m
    { m with
      run := { m.run with phase := .ended, runNs := runNs },
      fab := { m.fab with time := max m.fab.time (m.run.start + runNs) } }
  else m

def execRunPhaseEnd (runNs : Nat) (s : State) : Out := .next (s.event (fun m => m.runEnds runNs))

/-- SETTLE_TOKEN_SEND (spec 04, R129): the run has ended, every check of it has passed and the link layer has
acknowledged the attempt's own ember and SUM flits. -/
def Mod.tokenSend (m : Mod) : Mod :=
  if m.run.phase = .ended ∧ m.run.mark = none ∧ m.ctl.state = .running then
    let m := m.sendEmber 1 m.run.attempt 0
    ({ m with run := { m.run with phase := .settling } }).tryGates
  else m

def execSettleTokenSend (s : State) : Out := .next (s.event Mod.tokenSend)

/-- A message of the current attempt of the open round (spec 04, R128). -/
def Mod.ownMsg (m : Mod) (x : EmberMsg) : Bool := m.ownRound x && x.attempt == m.curAttempt

/-- SETTLE_TOKEN (spec 04, R129, R130, R136). -/
def Mod.takeToken (m : Mod) (x : EmberMsg) : Mod :=
  if m.ownMsg x then
    let m := if x.sender ∈ m.run.tokens then m else { m with run := { m.run with tokens := x.sender :: m.run.tokens } }
    m.tryGates
  else m.dropEmber

def execSettleToken (msg : EmberMsg) (s : State) : Out := .next (s.event (fun m => m.takeToken msg))

/-- SETTLE_TIMEOUT (spec 04, R136; spec 10, R343). -/
def Mod.settleTimeout (m : Mod) : Mod :=
  if m.run.phase = .settling ∧ m.ctl.state = .running ∧ !m.run.settleOut then
    let gone := m.others.filter (fun x => x ∉ m.run.tokens)
    let m := { m with run := { m.run with settleOut := true } }
    (m.timeoutRecord Detail.settleTimeout m.setId gone).raiseSuspects gone .noToken 0
  else m

def execSettleTimeout (s : State) : Out := .next (s.event Mod.settleTimeout)

/-! ### The DIGEST gate (spec 13, R430, R431) -/

/-- The gathered digest messages: 64 bytes of each replica, by rank. -/
def Mod.digestBlocks (m : Mod) (c : Coll) : List Bytes :=
  match m.operand c.dstRec with
  | some a => (List.range c.p).map (fun q => m.rdBytes (a.addr (q * 896 / a.cols) (q * 896 % a.cols)) 64)
  | none => []

/-- What two blocks must share. -/
def digestKey (b : Bytes) : Bytes := b.drop 4

/-- How many blocks agree with one. -/
def agreeing (bs : List Bytes) (b : Bytes) : Nat := (bs.filter (fun x => digestKey x == digestKey b)).length

/-- The size of the largest agreeing set. -/
def largestSet (bs : List Bytes) : Nat := (bs.map (agreeing bs)).foldl max 0

/-- A DIGEST record (spec 13, R410): verdict 1 EXPELLED, 2 SPLIT. -/
def digestReport (attn : Byte) (detail verdict replicas update expelled rank largest : Nat) : Report :=
  { cls := Rec.digest, attn := attn, detail := detail,
    payload := [BitVec.ofNat 8 verdict, BitVec.ofNat 8 replicas] ++ leBytes 2 update ++ leBytes 2 expelled
      ++ [BitVec.ofNat 8 rank, BitVec.ofNat 8 largest] }

/-- The module is the odd one out: EXPELLED, the plan HALTED with this round as the resume round; a PLAN_HALT that
waited completes. -/
def Mod.expel (m : Mod) : Mod :=
  let done := m.plan.halts
  let m := (m.discardAttempt .none).moveTo .expelled 0xFFFF Detail.expelled
  let m := { m with plan := { m.plan with st := .halted, haltKind := 2, halts := [], discarded := true, reopen := true } }
  (done.foldl (fun m t => m.complete t Op.planHalt Cls.ok Detail.none []) m).quiesce

/-- The verdict over the blocks. -/
def Mod.digestVerdict (m : Mod) (bs : List Bytes) (rank update : Nat) : Mod :=
  let n := bs.length
  let interval := fieldAt (bs.headD []) 2 2
  let commit (m : Mod) : Mod := { m with run := { m.run with phase := .commit } }
  if interval = 0 ∨ m.step.reg.step.toNat % interval ≠ 0 then commit m
  else
    let top := largestSet bs
    let m := m.tally Cnt.digestCompared 1
    if top = n then commit m
    else
      let m := m.tally Cnt.digestMismatch 1
      if 3 ≤ n ∧ n < 2 * top then
        let outside := (List.range n).filter (fun q => agreeing bs (bs.getD q []) != top)
        let word := fieldAt (bs.getD (outside.headD 0) []) 0 2
        if rank ∈ outside then
          (m.report (digestReport Attn.integrity Detail.expelled 1 n update word rank top)).expel
        else commit (m.report (digestReport Attn.log Detail.digestMajority 1 n update word rank top))
      else
        (m.report (digestReport (Attn.integrity ||| Attn.fault) Detail.digestSplit 2 n update 0xFFFF rank top)).haltDiscarded
          0xFFFF Detail.digestSplit

/-- DIGEST_GATE (spec 13, R430). -/
def Mod.digestGate (m : Mod) : Mod :=
  if m.run.phase = .digest ∧ m.ctl.state = .running then
    match m.plan.plan, m.hdr.bind (fun r => m.plan.plan.bind (fun p => p.digestOf r)) with
    | some p, some (coll, update) =>
      match m.collDesc coll with
      | some c => m.digestVerdict (m.digestBlocks c) (p.rankIn c) update
      | none => m
    | _, _ => m
  else m

def execDigestGate (s : State) : Out := .next (s.event Mod.digestGate)

/-! ### Commit -/

/-- ROUND_COMMIT_COMPLETE (spec 04, R130), unless the bank holds the commit (spec 14, R444). -/
def Mod.commitComplete (m : Mod) : Mod :=
  if m.run.phase = .commit ∧ m.ctl.state = .running then
    if m.commitHeld then
      if m.run.holdSeen then m
      else ({ m with run := { m.run with holdSeen := true } }).count Cnt.bankCommitWait 1
    else m.commitNow
  else m

def execRoundCommitComplete (s : State) : Out := .next (s.event Mod.commitComplete)

/-! ### Douse and replay -/

/-- DOUSE_ORIGINATE (spec 04, R134, R135, R137): the attempt bears a mark. -/
def Mod.originate (m : Mod) : Mod :=
  match m.run.mark with
  | some cause => if m.run.phase.runs ∧ m.ctl.state = .running then m.douseHere cause else m
  | none => m

def execDouseOriginate (s : State) : Out := .next (s.event Mod.originate)

/-- DOUSE (spec 04, R128, R134 to R137). -/
def Mod.takeDouse (m : Mod) (x : EmberMsg) : Mod :=
  if !m.ownMsg x then m.dropEmber
  else if m.ctl.state = .halted then m.douseHalted x
  else if m.run.phase.runs || m.run.phase.tokenSent then m.douseFrom x
  else if m.run.phase = .doused then
    if x.cause = Douse.halt then m.haltDiscarded 0xFFFF Detail.roundDoused
    else ({ m with run := { m.run with readies := x.sender :: m.run.readies } }).tryReady
  else ({ m with run := { m.run with attempt := 1 } }).douseFrom x

def execDouse (msg : EmberMsg) (s : State) : Out := .next (s.event (fun m => m.takeDouse msg))

/-- DOUSE_READY (spec 04, R128, R134). -/
def Mod.takeReady (m : Mod) (x : EmberMsg) : Mod :=
  if m.ownMsg x then
    let m := if x.sender ∈ m.run.readies then m
      else { m with run := { m.run with readies := x.sender :: m.run.readies } }
    m.tryReady
  else m.dropEmber

def execDouseReady (msg : EmberMsg) (s : State) : Out := .next (s.event (fun m => m.takeReady msg))

/-- REPLAY_ROUND_START (spec 04, R134). -/
def Mod.replayStarts (m : Mod) : Mod :=
  if m.run.phase = .replay ∧ m.ctl.state = .running then m.replayNow else m

def execReplayRoundStart (s : State) : Out := .next (s.event Mod.replayStarts)

end Sys2Proof.Machine
end

