-- ==== Sys2Proof/Machine/Faults.lean ====
section
/-! DEFINITION. Faults of units, clusters and cores (spec 01, R37 to R40; spec 03, R104, R106; spec 13, R433, R434): fences,
returned items, the FENCE record. -/
namespace Sys2Proof.Machine

/-- Rails are up: the module is in KINDLING, READY, RUNNING, HALTED or EXPELLED (spec 16, R494). -/
def Mod.railsUp (m : Mod) : Bool :=
  match m.ctl.state with
  | .kindling => true | .ready => true | .running => true | .halted => true | .expelled => true | _ => false

/-- The data plane moves data: rails up, the reference present (spec 01, R47). -/
def Mod.dataPlane (m : Mod) : Bool := m.railsUp && m.ctl.state != .kindling && !m.ctl.refLost

/-! ### Which work an element holds -/

/-- A unit word lies inside an element: itself, its cluster or its core. Update items carry their core's word. -/
def unitWithin (part whole : Nat) : Bool :=
  unitCore part == unitCore whole
  && (unitKind whole == 3
      || (unitKind part != 3 && unitCluster part == unitCluster whole && (unitKind whole == 2 || part == whole)))

/-- An entry runs on an element, or waits there for its verdict. -/
def Ent.onUnit (e : Ent) (u : Nat) : Bool :=
  match e.st with
  | .running => e.units.any (fun x => unitWithin x u)
  | .checking => e.units.any (fun x => unitWithin x u)
  | .rerun => e.reUnits.any (fun x => unitWithin x u)
  | .recheck => e.reUnits.any (fun x => unitWithin x u)
  | .passed => (if e.reUnits.isEmpty then e.units else e.reUnits).any (fun x => unitWithin x u)
  | _ => false

/-- An entry as it goes back to the woodpile (spec 03, R104): it keeps its done_flag increment; a stopped re-execution
waits for another resource. -/
def Ent.back (e : Ent) : Ent :=
  match e.st with
  | .rerun => { e with st := .awaiting, reCore := 0, reUnits := [] }
  | .recheck => { e with st := .awaiting, reCore := 0, reUnits := [] }
  | _ => { Ent.free with signalled := e.signalled }

/-- The entries of the open round on an element. -/
def Mod.entsOn (m : Mod) (u : Nat) : List (Nat × Ent) := m.run.ents.filter (fun e => e.2.onUnit u)

/-- An element holds work of the open round. -/
def Mod.holdsWork (m : Mod) (u : Nat) : Bool := !(m.entsOn u).isEmpty

/-- Return one entry. -/
def Mod.returnEntry (m : Mod) (i : Nat) : Mod :=
  ({ m with run := { m.run with ents := SMap.upd Ent.free m.run.ents i Ent.back } }).tallyEvent Cnt.itemReturned 1

/-- Return an element's entries; if ember output had left it the attempt is marked for douse (spec 01, R39). -/
def Mod.returnWork (m : Mod) (u cause : Nat) : Mod :=
  let es := m.entsOn u
  let m := es.foldl (fun m e => m.returnEntry e.1) m
  if es.any (fun e => e.2.signalled) then m.markDouse cause else m

/-! ### Fences -/

/-- Scope of an element's fault once it is fenced (spec 13, R433, R434): OUT_OF_BOUND where the spare of its level is
spent, or for a second withdrawn core while a plan runs. -/
def Mod.fenceScope (m : Mod) (u : Nat) : Nat :=
  let inBound :=
    if unitKind u = 0 then decide (16 ≤ (m.goodTiles (unitCore u) (unitCluster u)).length)
    else if unitKind u = 3 then !(m.plan.st == .running && m.otherWithdrawn (unitCore u))
    else decide (16 ≤ m.usable (unitCore u))
  if inBound then Scope.inBound else Scope.outOfBound

/-- Payload of a FENCE record (spec 13, R410). -/
def fencePayload (unit cause returned handle : Nat) : Bytes :=
  leBytes 2 unit ++ [BitVec.ofNat 8 cause, BitVec.ofNat 8 (min returned 255)] ++ leBytes 4 handle

def fenceReport (unit cause returned scope : Nat) : Report :=
  { cls := Rec.fence, attn := Attn.fault, detail := if cause = 1 then Detail.sramUncorrected else Detail.unitFenced,
    scope := scope, payload := fencePayload unit cause returned 0 }

/-- The fence closes: a unit or cluster becomes a pending clinker (spec 01, R37), a core is withdrawn (R40). -/
def Mod.closeFence (m : Mod) (u : Nat) : Mod :=
  if unitKind u = 3 then (m.setCore (unitCore u) (fun r => { r with faulted := true })).abortMargin (unitCore u)
  else m.setUnit u (fun r => { r with pending := true })

/-- A fault in a unit, a cluster or a core (spec 01, R39, R40): fence, return, mark, record. -/
def Mod.unitFault (m : Mod) (u cause : Nat) : Mod :=
  let n := (m.entsOn u).length
  let m := (m.returnWork u Douse.fence).closeFence u
  m.reportFault (fenceReport u cause n (m.fenceScope u))

/-- Codes of the causes (spec 13, R410). -/
def FenceCause.code : FenceCause → Nat
  | .watchdog => 0 | .sram => 1 | .parity => 2 | .pll => 3 | .heartbeat => 4 | .disable => 5 | .poison => 6

/-- An element is in service: neither fenced, disabled nor withdrawn by a fault. -/
def Mod.inService (m : Mod) (u : Nat) : Bool :=
  !unitIllegal u && !unitReserved u && !(m.unit u).bad && !(unitKind u == 3 && (m.core (unitCore u)).faulted)

/-- UNIT_FAULT_DETECTED (spec 01, R39). -/
def execUnitFaultDetected (unit : Half) (cause : FenceCause) (s : State) : Out :=
  .next (s.event (fun m =>
    if m.railsUp && m.inService unit.toNat then m.unitFault unit.toNat (FenceCause.code cause) else m))

/-- SEQUENCER_HEARTBEAT_MISS (spec 13, R433; spec 01, R40). -/
def execSequencerHeartbeatMiss (core : Nat) (s : State) : Out :=
  .next (s.event (fun m =>
    if decide (core < 8) && m.railsUp && m.inService (coreWord core) then m.unitFault (coreWord core) 4 else m))

/-- The woodpile entry of the open round with an index. -/
def Mod.wpEntry (m : Mod) (i : Nat) : Option WpEntry :=
  match m.plan.plan, m.hdr with
  | some p, some r => (p.entriesOf r)[i]?
  | _, _ => none

def Mod.ent (m : Mod) (i : Nat) : Ent := SMap.get Ent.free m.run.ents i
def Mod.setEnt (m : Mod) (i : Nat) (e : Ent) : Mod :=
  { m with run := { m.run with ents := SMap.put Ent.free m.run.ents i e } }

/-- The units on which an entry runs now. -/
def Ent.runsOn (e : Ent) : List Nat :=
  match e.st with
  | .running => e.units
  | .rerun => e.reUnits
  | _ => []

/-- ITEM_WATCHDOG (spec 03, R106): the unit at grid row 0 and column 0 of the gang is faulty. -/
def Mod.watchdog (m : Mod) (i busyNs : Nat) : Mod :=
  match m.wpEntry i, (m.ent i).runsOn with
  | some w, u :: _ =>
    if m.run.phase = .run ∧ min (2 * w.estNs) 20000 < busyNs then (m.tallyEvent Cnt.itemWatchdog 1).unitFault u 0 else m
  | _, _ => m

def execItemWatchdog (item busyNs : Nat) (s : State) : Out := .next (s.event (fun m => m.watchdog item busyNs))

end Sys2Proof.Machine
end

