-- ==== Sys2Proof/Machine/StreamCheck.lean ====
section
/-! DEFINITION. The checks of a stream descriptor that need no round (spec 06, R175 to R182, R186, R193): its parts, its
format, ranges, the alias test, rings, host regions, flags. STREAM_CREATE, STREAM_ARM and PLAN_LOAD share them. -/
namespace Sys2Proof.Machine

/-! ### Parsing (spec 06, R175 to R177) -/

def streamKindOf : Nat → Option StreamKind
  | 0 => some .copy | 1 => some .gather | 2 => some .scatter | 3 => some .scatterAdd | 4 => some .scatterMax
  | 5 => some .index | _ => none

/-- Six strides of 40 bits. -/
def stridesAt (bs : Bytes) (off : Nat) : List Int := (List.range 6).map (fun d => signed 40 (fieldAt bs (off + 5 * d) 5))

/-- The descriptor in 128 bytes, read as it stands. -/
def parseStream (bs : Bytes) : StreamDesc :=
  let w := fieldAt bs 0x04 2
  { streamId := fieldAt bs 0x00 4, kind := (streamKindOf (bits w 15 12)).getD .copy, homeCore := bits w 11 9,
    remote := bit w 8, unitDim := bits w 7 5, ringUnits := bits w 4 0, esize := 2 ^ bits (fieldAt bs 0x06 2) 15 13,
    srcBase := fieldAt bs 0x08 8, dstBase := fieldAt bs 0x10 8, srcRec := fieldAt bs 0x18 2, dstRec := fieldAt bs 0x1A 2,
    waitValue := fieldAt bs 0x1C 4, extent := (List.range 6).map (fun d => fieldAt bs (0x20 + 4 * d) 4),
    srcStride := stridesAt bs 0x38, dstStride := stridesAt bs 0x56, indexLimit := fieldAt bs 0x74 4,
    indexStream := fieldAt bs 0x78 2, doneFlag := fieldAt bs 0x7A 2, creditFlag := fieldAt bs 0x7C 2,
    dstPosition := fieldAt bs 0x7E 2 }

/-- Illegal codes and reserved bits of the packed words. -/
def streamWordsBad (bs : Bytes) : Bool :=
  (streamKindOf (bits (fieldAt bs 0x04 2) 15 12)).isNone || decide (3 < bits (fieldAt bs 0x06 2) 15 13)
  || bits (fieldAt bs 0x06 2) 12 0 != 0

/-- The extent rules of R179. -/
def StreamDesc.extentsBad (d : StreamDesc) : Bool :=
  d.extent.any (fun e => e == 0) || decide (2 ^ 40 < d.positions)
  || (List.range 6).any (fun k => d.ext k == 1 && (d.srcStr k != 0 || d.dstStr k != 0))
  || (d.esize == 1 && (d.ext 0 % 2 != 0 || d.srcStr 0 != 1 || (d.kind != .index && d.dstStr 0 != 1)
      || [1, 2, 3, 4, 5].any (fun k => d.srcStr k % 2 != 0 || d.dstStr k % 2 != 0)))

/-- DESC_FORMAT, stream_id apart (spec 06, R193). -/
def StreamDesc.formatBad (d : StreamDesc) : Bool :=
  decide (5 < d.unitDim) || (d.ringUnits == 0 && d.unitDim != 0)
  || (d.kind == .index && (d.esize != 8 || d.dstBase != 0)) || (d.kind.accumulates && d.esize != 8)
  || (!d.kind.indexed && d.indexLimit != 0) || (!d.remote && d.dstPosition != 0xFFFF) || d.extentsBad

/-! ### Ranges (spec 06, R180, R193) -/

/-- A side lies in its record, or, without one, in one mapped range. -/
def Hbm.sideOk (h : Hbm) (rec : Nat) (a : Option Alloc) (esize : Nat) (x : Int × Int) : Bool :=
  if rec = 0xFFFF then decide (0 ≤ x.1) && h.isMapped (toSpan x)
  else match a with
    | some a => decide (((2 * a.base : Nat) : Int) ≤ x.1) && decide (x.2 ≤ ((2 * (a.base + a.spanBytes) : Nat) : Int))
        && decide (4 * esize = a.fw.fmt.width)
    | none => false

/-- RANGE of a source or destination that no index drives. -/
def StreamDesc.rangeBad (d : StreamDesc) (h : Hbm) (src dst : Option Alloc) : Bool :=
  (d.kind != .gather && !h.sideOk d.srcRec src d.esize d.srcExtent)
  || (d.kind != .index && !d.kind.scatters && !d.remote && !h.sideOk d.dstRec dst d.esize d.dstExtent)

/-- The indexed range of an index-driven stream (fail_sub INDEX). -/
def StreamDesc.indexedBad (d : StreamDesc) (h : Hbm) (src dst : Option Alloc) : Bool :=
  (d.kind == .gather && !h.sideOk d.srcRec src d.esize d.srcExtent)
  || (d.kind.scatters && !h.sideOk d.dstRec dst d.esize d.dstExtent)

/-! ### The alias test (spec 06, R181, R182) -/

def insertDim (x : Nat × Nat) : List (Nat × Nat) → List (Nat × Nat)
  | [] => [x]
  | y :: l => if x.2 ≤ y.2 then x :: y :: l else y :: insertDim x l

/-- The test over (extent, |stride|) pairs in ascending stride. -/
def aliasTest : Nat → List (Nat × Nat) → Bool
  | _, [] => true
  | need, (e, s) :: l => decide (need ≤ s) && aliasTest (need + (e - 1) * s) l

/-- The dimensions of the destination that the test takes. -/
def StreamDesc.aliasDims (d : StreamDesc) : List (Nat × Nat) :=
  let dims : List (Nat × Nat) :=
    if d.kind = .scatter then [(d.ext 0, (d.dstStr 0).natAbs), (d.indexLimit, (d.dstStr 1).natAbs)]
    else if d.ringUnits = 0 then (List.range 6).map (fun k => (d.ext k, (d.dstStr k).natAbs))
    else (List.range d.unitDim).map (fun k => (d.ext k, (d.dstStr k).natAbs))
      ++ [(d.ringUnits, (d.dstStr d.unitDim).natAbs)]
  (dims.filter (fun x => 1 < x.1)).foldr insertDim []

def StreamDesc.aliasBad (d : StreamDesc) : Bool :=
  d.kind != .index && !d.kind.accumulates && !aliasTest 1 d.aliasDims

/-! ### Rings, host regions, flags -/

def StreamDesc.ringBad (d : StreamDesc) : Bool :=
  decide (0 < d.ringUnits)
  && ((List.range 6).any (fun k => decide (d.unitDim < k) && d.dstStr k != 0) || d.waitValue != 0 || d.dstHost || d.remote)

/-- A host range is covered by its region, which is ACTIVE with the permission; the region's own port serves it (spec 06,
R190, R194). -/
def Mod.hostRangeOk (m : Mod) (s : Span) (write : Bool) : Bool :=
  let r := SMap.get Region.free m.regions (hostRegion s.lo)
  r.state == .active && (if write then r.write else r.read) && s.within (hostSpan (hostRegion s.lo))
  && decide (s.hi - hostAddr (hostRegion s.lo) 0 ≤ r.size)

def Mod.streamHostBad (m : Mod) (d : StreamDesc) : Bool :=
  (d.srcHost && !m.hostRangeOk d.srcSpan false) || (d.dstHost && !m.hostRangeOk d.dstSpan true)

def flagBad (f : Nat) : Bool := decide (767 < f) && f != 0xFFFF

def StreamDesc.flagBad (d : StreamDesc) : Bool :=
  Sys2Proof.Machine.flagBad d.doneFlag || Sys2Proof.Machine.flagBad d.creditFlag
  || ((d.dstHost || d.remote) && d.doneFlag != 0xFFFF)

/-! ### Command streams (spec 06, R204, R205) -/

/-- What a command stream must be beside R193. -/
def StreamDesc.notCommand (d : StreamDesc) : Bool :=
  d.kind != .copy || d.streamId != 0 || d.ringUnits != 0 || d.remote || d.indexStream != 0xFFFF || d.doneFlag != 0xFFFF
  || d.creditFlag != 0xFFFF || d.waitValue != 0 || d.srcRec != 0xFFFF || d.dstRec != 0xFFFF

/-- Extents of the plan's records of some classes. -/
def Mod.extentsOf (m : Mod) (ps : List PClass) : List Span :=
  match m.plan.plan with
  | some p => ((p.allocs.filter (fun e => e.2.pclass ∈ ps)).map (fun e => e.2.spans)).flatten
  | none => []

/-- The fail_sub of a command stream's descriptor, 0 if it passes: in the order of R193; a breach of R204's own
conditions is DESC_FORMAT. -/
def Mod.commandSub (m : Mod) (d : StreamDesc) : Nat :=
  if d.formatBad || d.notCommand then 0x0701
  else if d.rangeBad m.hbm none none then 0x0702
  else if d.aliasBad then 0x0703
  else if anyMeet [d.dstSpan] (m.extentsOf [.bank, .snapshot]) then 0x0706
  else if m.streamHostBad d then 0x0707
  else 0

/-- Where the plan state keeps a command stream out (spec 06, R205). -/
def Mod.keptOut (m : Mod) (d : StreamDesc) : Bool :=
  match m.plan.st with
  | .running => anyMeet [d.srcSpan, d.dstSpan] (m.extentsOf [.scratch, .working, .state, .version, .bank, .snapshot])
  | .loaded => anyMeet [d.srcSpan, d.dstSpan] (m.extentsOf [.bank, .snapshot]) || anyMeet [d.srcSpan] (m.extentsOf [.scratch])
  | .halted => anyMeet [d.srcSpan, d.dstSpan] (m.extentsOf [.bank, .snapshot])
      || anyMeet [d.srcSpan] (m.extentsOf (if m.plan.discarded then [.scratch, .working] else [.scratch]))
  | _ => false

end Sys2Proof.Machine
end

