-- ==== Sys2Proof/Machine/StreamOps.lean ====
section
/-! DEFINITION. How a stream moves its positions (spec 06, R178 to R187; spec 05, R166): the value of a source position, the
address of a destination position, the writes of a run of positions; failing host accesses and holds (R197, R198). -/
namespace Sys2Proof.Machine

/-! ### Elements of a record by address (spec 05, R161, R166) -/

/-- Where an address lies in a record: on an element, on the tail of an FP4B row, elsewhere. -/
inductive Place where
  | inside | tail | outside
  deriving DecidableEq, Repr

/-- The place of an address in half bytes. -/
def Alloc.placeOf (a : Alloc) (half : Nat) : Place :=
  let r := [5, 4, 3, 2, 1].foldl (fun (acc : Nat × Bool) d =>
    let s := 2 * a.str d
    if s = 0 then acc else (acc.1 % s, acc.2 && decide (acc.1 / s < a.ext d))) (half - 2 * a.base, true)
  let col := r.1 / (a.fw.fmt.width / 4)
  if half < 2 * a.base ∨ !r.2 then .outside
  else if col < a.cols then .inside
  else if a.fw.fmt = .fp4b ∧ col < a.s0 then .tail
  else .outside

/-- The stored code at an address in half bytes; pad_bits outside the record's logical extents. -/
def Mod.codeAt (m : Mod) (a : Option Alloc) (esize half : Nat) : Nat :=
  let raw := if esize = 1 then (m.rd (half / 2)).toNat / 2 ^ (4 * (half % 2)) % 16 else m.rdNat (half / 2) (esize / 2)
  match a with
  | some a => if a.placeOf half = .inside then raw else a.padBits % 2 ^ (4 * esize)
  | none => raw

/-! ### Reading positions -/

/-- What a stream reads: its descriptor with src_base moved through a version handle, the source record, the pad value,
the position from which it is retired, the index of a row (none out of range), the bytes that the host gives from a
position on. -/
structure Reader where
  d : StreamDesc
  src : Option Alloc
  pad : Nat
  cut : Option Nat
  index : Nat → Option Nat
  data : Bytes
  first : Nat

/-- Positions at and after the resume index of a retirement read as padding (spec 06, R200). -/
def pastCut (cut : Option Nat) (p : Nat) : Bool := match cut with | some c => decide (c ≤ p) | none => false

/-- Source address of position p in half bytes; none where no access is made. -/
def Reader.addr (x : Reader) (p : Nat) : Option Nat :=
  if pastCut x.cut p then none
  else if x.d.kind = .gather then
    (x.index (p / x.d.ext 0)).map (fun k => indexedAt x.d.srcBase x.d.esize (x.d.srcStr 0) (x.d.srcStr 1) k (p % x.d.ext 0))
  else some (x.d.srcAt p)

/-- One element. -/
def Mod.readOne (m : Mod) (x : Reader) (p : Nat) : Nat :=
  match x.addr p with
  | none => x.pad % 2 ^ (4 * x.d.esize)
  | some half =>
    if x.d.srcHost then
      let o := (p - x.first) * x.d.esize
      if x.d.esize = 1 then (x.data.getD (o / 2) 0).toNat / 2 ^ (4 * (o % 2)) % 16 else fieldAt x.data (o / 2) (x.d.esize / 2)
    else m.codeAt x.src x.d.esize half

/-- Positions move one at a time, or two to a byte (spec 06, R179). -/
def StreamDesc.grain (d : StreamDesc) : Nat := if d.esize = 1 then 2 else 1
/-- Bytes of a grain. -/
def StreamDesc.grainBytes (d : StreamDesc) : Nat := max 1 (d.esize / 2)
/-- Bytes of n positions. -/
def StreamDesc.bytesOf (d : StreamDesc) (n : Nat) : Nat := n * d.esize / 2

/-- The first positions of the grains in [lo, hi). -/
def StreamDesc.grains (d : StreamDesc) (lo hi : Nat) : List Nat :=
  (List.range (ceilDiv (hi - lo) d.grain)).map (fun i => lo + d.grain * i)

def Mod.readGrain (m : Mod) (x : Reader) (p : Nat) : Nat :=
  if x.d.esize = 1 then m.readOne x p + 16 * m.readOne x (p + 1) else m.readOne x p

/-! ### Writing positions -/

/-- Destination address of position p in half bytes; none for a dropped row (spec 06, R183). -/
def Reader.dest (x : Reader) (p : Nat) : Option Nat :=
  if x.d.kind.scatters then
    (x.index (p / x.d.ext 0)).map (fun k => indexedAt x.d.dstBase x.d.esize (x.d.dstStr 0) (x.d.dstStr 1) k (p % x.d.ext 0))
  else some (x.d.dstAt p)

/-- The value that a destination record takes: masked outside its logical extents, zero in an FP4B tail (spec 05, R166). -/
def masked (a : Option Alloc) (esize half v : Nat) : Option Nat :=
  match a with
  | none => some v
  | some a =>
    let one (h x : Nat) : Option Nat := match a.placeOf h with | .inside => some x | .tail => some 0 | .outside => none
    if esize = 1 then
      match one half (v % 16), one (half + 1) (v / 16) with
      | none, none => none
      | l, h => some (l.getD 0 + 16 * h.getD 0)
    else one half v

/-- The writes of positions [lo, hi): address, bytes, position. -/
def Mod.plainWrites (m : Mod) (x : Reader) (dst : Option Alloc) (lo hi : Nat) : List (Nat × Bytes × Nat) :=
  (x.d.grains lo hi).filterMap (fun p =>
    (x.dest p).bind (fun half =>
      (masked dst x.d.esize half (m.readGrain x p)).map (fun v => (half / 2, leBytes x.d.grainBytes v, p))))

/-- The combine of R184. -/
def StreamKind.combine (k : StreamKind) (a b : F32) : F32 := if k = .scatterMax then F32.maxOf a b else F32.add a b

/-- The writes of an accumulating stream (spec 06, R184): every landing source element in ascending position, after those that
the stream has combined already. -/
def Mod.sumWrites (m : Mod) (x : Reader) (dst : Option Alloc) (lo hi : Nat) : List (Nat × Bytes × Nat) :=
  let acc := (x.d.grains lo hi).foldl (fun (acc : List (Nat × F32)) p =>
    match x.dest p with
    | none => acc
    | some half =>
      if (masked dst x.d.esize half 0).isNone then acc
      else
        let a := half / 2
        let v : F32 := BitVec.ofNat 32 (m.readGrain x p)
        match acc.find? (fun e => e.1 == a) with
        | some _ => updFirst (fun e => e.1 == a) (fun e => (a, x.d.kind.combine e.2 v)) acc
        | none => acc ++ [(a, x.d.kind.combine (BitVec.ofNat 32 (m.rdStagedNat a 4)) v)]) []
  acc.map (fun e => (e.1, leBytes 4 e.2.toNat, lo))

/-- Join writes that follow one another in memory and in position; `n` gives the positions that bytes stand for. -/
def joinWrites (n : Bytes → Nat) : List (Nat × Bytes × Nat) → List (Nat × Bytes × Nat)
  | [] => []
  | (a, b, p) :: rest =>
    match joinWrites n rest with
    | (a', b', p') :: r =>
      if a + b.length = a' ∧ p + n b = p' then (a, b ++ b', p) :: r else (a, b, p) :: (a', b', p') :: r
    | [] => [(a, b, p)]

def Mod.streamWrites (m : Mod) (x : Reader) (dst : Option Alloc) (lo hi : Nat) : List (Nat × Bytes × Nat) :=
  if x.d.kind = .index then []
  else if x.d.kind.accumulates then joinWrites (fun _ => 0) (m.sumWrites x dst lo hi)
  else joinWrites (fun b => 2 * b.length / x.d.esize) (m.plainWrites x dst lo hi)

/-! ### Host accesses that fail (spec 06, R197) -/

/-- The cause that a host access meets in the region table: 1 REVOKED, 2 OUT_OF_REGION. -/
def Mod.accessCause (m : Mod) (addr len : Nat) (write : Bool) : Option Nat :=
  let r := SMap.get Region.free m.regions (hostRegion addr)
  if r.state ≠ .active ∨ !(if write then r.write else r.read) then some 1
  else if r.size < hostOffset addr + len then some 2
  else none

/-- A codeword of HBM or of a pool that a range touches is poisoned. -/
def Mod.poisoned (m : Mod) (addr len : Nat) : Bool :=
  m.hbm.poison.any (fun e => decide (e.1 < addr + len) && decide (addr < e.1 + 64))

/-- The access of a position that fails, as (address, bytes, is a write, cause): the read first. `outside` allows the cause
POISON. An access begins at the first position of a grain. -/
def Mod.failing (m : Mod) (x : Reader) (p : Nat) (cause : HoldCause) (outside : Bool) : Option (Nat × Nat × Bool × Nat) :=
  let n := x.d.grainBytes
  let rd : Option (Nat × Nat × Bool × Nat) := (x.addr p).bind (fun half =>
    let a := half / 2
    if x.d.srcHost then
      match m.accessCause a n false, cause with
      | some c, _ => some (a, n, false, c)
      | none, .hostError => some (a, n, false, 3)
      | none, _ => none
    else if outside ∧ m.poisoned a n ∧ cause = .poison then some (a, n, false, 4)
    else none)
  match rd with
  | some r => if p % x.d.grain = 0 then some r else none
  | none =>
    if x.d.dstHost ∧ outside ∧ p % x.d.grain = 0 then
      (x.dest p).bind (fun half => (m.accessCause (half / 2) n true).map (fun c => (half / 2, n, true, c)))
    else none

/-! ### Emitting host writes -/

/-- Write to the host through the region table. -/
def Mod.hostStore (m : Mod) (addr : Nat) (bs : Bytes) : Mod := m.writeRegion (hostRegion addr) (hostOffset addr) bs

/-- A settled write of a command stream. -/
def Mod.settledWrite (m : Mod) (addr : Nat) (bs : Bytes) : Mod := if isHost addr then m.hostStore addr bs else m.wr addr bs

/-- Split drained writes at a position: those below it, those at and above it. -/
def splitStaged (d : StreamDesc) (p : Nat) (w : Staged) : List Staged × List Staged :=
  let n := d.bytesOf (p - w.pos)
  if p ≤ w.pos then ([], [w])
  else if w.data.length ≤ n then ([w], [])
  else ([{ w with data := w.data.take n }], [{ w with addr := w.addr + n, data := w.data.drop n, pos := p }])

/-! ### Plan streams -/

/-- The record of a plan stream in the open round. -/
def Mod.roundStream (m : Mod) (i : Nat) : Option StreamDesc :=
  match m.plan.plan, m.hdr with
  | some p, some r => if r.firstStream ≤ i ∧ i < r.firstStream + r.streamCount then p.streams[i]? else none
  | _, _ => none

def Mod.strRun (m : Mod) (i : Nat) : Option StrRun := (m.run.streams.find? (fun e => e.1 == i)).map (·.2)

def Mod.setStr (m : Mod) (i : Nat) (f : StrRun → StrRun) : Mod :=
  match m.strRun i with
  | some r => { m with run := { m.run with streams := SMap.ins i (f r) m.run.streams } }
  | none => m

/-- Pad value of a stream's source: pad_bits, zero without a record. -/
def Mod.padOf (m : Mod) (rec : Nat) : Nat := ((m.operand rec).map (·.padBits)).getD 0

/-- The reader of stream i without an index. -/
def Mod.readerOf (m : Mod) (d : StreamDesc) (cut : Option Nat) (first : Nat) (data : Bytes) : Reader :=
  { d := { d with srcBase := m.readAddr d.srcRec d.srcBase }, src := m.operand d.srcRec, pad := m.padOf d.srcRec,
    cut := cut, index := fun _ => none, data := data, first := first }

/-- The index that INDEX stream i gives as its k-th (spec 06, R182, R200). -/
def Mod.indexValue (m : Mod) (i k : Nat) : Nat :=
  match m.roundStream i, m.strRun i with
  | some d, some r =>
    if pastCut r.cut k then m.padOf d.srcRec
    else if d.srcHost then r.idx.getD k 0
    else m.readOne (m.readerOf d r.cut 0 []) k
  | _, _ => 0

/-- The index stream of a data stream. -/
def Mod.indexStreamOf (m : Mod) (d : StreamDesc) : Nat := ((m.hdr.map (·.firstStream)).getD 0) + d.indexStream

/-- The index of row q, none at or above index_limit (spec 06, R183). -/
def Mod.rowIndex (m : Mod) (d : StreamDesc) (q : Nat) : Option Nat :=
  let k := m.indexValue (m.indexStreamOf d) q
  if k < d.indexLimit then some k else none

/-- The reader of a plan stream. -/
def Mod.planReader (m : Mod) (d : StreamDesc) (cut : Option Nat) (first : Nat) (data : Bytes) : Reader :=
  let x := m.readerOf d cut first data
  if d.kind.indexed then { x with index := m.rowIndex d } else x

/-- The indices of rows below q are there: the index stream has begun, and what it reads from the host has come. -/
def Mod.indicesReady (m : Mod) (d : StreamDesc) (q : Nat) : Bool :=
  if d.kind.indexed then
    let i := m.indexStreamOf d
    match m.roundStream i, m.strRun i with
    | some x, some r =>
      if x.srcHost then decide (q ≤ r.idx.length) || pastCut r.cut r.idx.length else decide (0 < r.begun)
    | _, _ => false
  else true

/-- Rows of [lo, hi) whose index is out of range, each counted at its first position. -/
def Mod.badRows (m : Mod) (d : StreamDesc) (lo hi : Nat) : List Nat :=
  if d.kind.indexed then
    ((List.range (ceilDiv hi (d.ext 0))).filter (fun q => decide (lo ≤ q * d.ext 0))).filter (fun q => (m.rowIndex d q).isNone)
  else []

/-- Add to the round's condition of a record, if it has one already (spec 04, R138: one record for each condition). -/
def Mod.addCond (m : Mod) (c : Cond) : Mod :=
  let same (x : Noted) : Bool := x.cond.detail == c.detail && x.cond.index == c.index
  let more (x : Noted) : Noted := { x with cond := { x.cond with elems := x.cond.elems + c.elems } }
  if m.run.conds.any same then { m with run := { m.run with conds := updFirst same more m.run.conds } }
  else m.condition c

/-- Count and note rows out of range (spec 06, R183). -/
def Mod.noteBadRows (m : Mod) (i : Nat) (d : StreamDesc) (rows : List Nat) : Mod :=
  match rows with
  | [] => m
  | q :: _ => (m.tally Cnt.streamIndexRange rows.length).addCond ⟨Detail.indexRange, i, 0, rows.length, q, q * d.ext 0⟩

/-- Deliver one write of a plan stream: to a peer, into the settle buffer for the host, or by the round's path. -/
def Mod.deliver (m : Mod) (i h : Nat) (d : StreamDesc) (w : Nat × Bytes × Nat) : Mod :=
  if d.remote then
    ((chunks 3824 w.2.1).zipIdx).foldl (fun m c =>
      m.sendPacket d.dstPosition (.data d.dstPosition true (w.1 + 3824 * c.2) c.1) c.1.length) m
  else if isHost w.1 then m.stage ⟨w.1, w.2.1, h, i, w.2.2⟩
  else m.roundWrite w.1 w.2.1

/-- Move positions [lo, hi) of plan stream i; `data` holds the bytes that the host gives for them. -/
def Mod.movePlan (m : Mod) (i : Nat) (d : StreamDesc) (r : StrRun) (lo hi : Nat) (data : Bytes) : Mod :=
  let x := m.planReader d r.cut lo data
  let ws := m.streamWrites x (if d.remote then none else m.operand d.dstRec) lo hi
  let m := m.noteBadRows i d (m.badRows d lo hi)
  let m := if d.kind = .index ∧ d.srcHost then
      m.setStr i (fun r => { r with idx := r.idx ++ (d.grains lo hi).map (m.readGrain x) }) else m
  ws.foldl (fun m w => m.deliver i (r.handle.getD 0) d w) m

/-- Positions that the host still gives of [lo, hi): those before a retirement. -/
def hostPositions (cut : Option Nat) (lo hi : Nat) : Nat := match cut with | some c => min hi c - lo | none => hi - lo

/-- The bytes fit what the host is to give. -/
def StreamDesc.dataFits (d : StreamDesc) (cut : Option Nat) (lo hi : Nat) (data : Bytes) : Bool :=
  data.length == (if d.srcHost then d.bytesOf (hostPositions cut lo hi) else 0)

/-- Host accesses of [lo, hi) all succeed. -/
def Mod.readsOk (m : Mod) (x : Reader) (lo hi : Nat) : Bool :=
  !x.d.srcHost || (x.d.grains lo hi).all (fun p =>
    match x.addr p with
    | some half => (m.accessCause (half / 2) x.d.grainBytes false).isNone
    | none => true)

/-! ### Holds (spec 06, R198) -/

/-- A context enters HELD: count, record, ATTN_FAULT. -/
def Mod.enterHeld (m : Mod) (h : Nat) (c : Ctx) (p : Nat) (f : Nat × Nat × Bool × Nat) : Mod :=
  let m := (m.setCtx h (some { c with
    st := .held, cause := f.2.2.2, resume := p, region := if isHost f.1 then hostRegion f.1 else 0xFFFF,
    reading := !f.2.2.1 })).count Cnt.streamHeld 1
  m.report { cls := Rec.stream, attn := Attn.fault, detail := Detail.streamHeld,
             payload := streamPayload h c.stream f.2.2.2 p }

end Sys2Proof.Machine
end

