-- ==== Sys2Proof/Machine/Streams.lean ====
section
/-! DEFINITION. Streams (spec 06): the events of plan streams, the flue and drains (R186 to R192, R198, R208 to R210), and
the stream commands (R199, R200, R202, R204 to R206). -/
namespace Sys2Proof.Machine

/-! ### Plan streams (spec 06, R186, R187) -/

/-- The gate of unit u (spec 06, R186). -/
def Mod.unitGate (m : Mod) (d : StreamDesc) (u : Nat) : Bool :=
  if d.ringUnits = 0 then m.flagMet d.creditFlag d.waitValue
  else decide (u < d.ringUnits)
    || (d.creditFlag != 0xFFFF && reached (m.flag d.creditFlag) ((u + 2 ^ 32 + 1 - d.ringUnits) % 2 ^ 32))

/-- Flue messages outstanding on a core (spec 06, R210). -/
def Mod.flueOut (m : Mod) (core : Nat) : Nat :=
  (m.run.streams.filter (fun e => e.2.st == .active && decide (e.2.seen < e.2.begun)
    && (match m.roundStream e.1 with | some d => d.isFlue && d.homeCore == core | none => false))).length

/-- A drain of an earlier round into the region that a stream reads still runs (spec 06, R191). -/
def Mod.drainInto (m : Mod) (region : Nat) : Bool :=
  m.usedCtxs.any (fun e => e.2.use == .drain && e.2.writes.any (fun w => hostRegion w.addr == region))

/-- The round runs and the data plane moves. -/
def Mod.moving (m : Mod) : Bool := m.run.phase == .run && m.ctl.state == .running && m.dataPlane

/-- STREAM_UNIT_START (spec 06, R186, R191, R210): the next unit begins. -/
def Mod.unitStart (m : Mod) (i : Nat) : Mod :=
  match m.roundStream i, m.strRun i with
  | some d, some r =>
    let canRun := (r.st == .armed || r.st == .active) && (d.isFlue || r.handle.isSome) && decide (r.begun < d.units)
      && m.unitGate d r.begun && (!d.isFlue || decide (m.flueOut d.homeCore < 64))
    if !m.moving || !canRun then m
    else if d.srcHost ∧ m.drainInto (hostRegion d.srcBase) then
      if 16 + i ∈ m.run.waitsSeen then m
      else ({ m with run := { m.run with waitsSeen := m.run.waitsSeen ++ [16 + i] } }).tally Cnt.streamDrainWait 1
    else m.setStr i (fun r => { r with st := .active, begun := r.begun + 1 })
  | _, _ => m

def execStreamUnitStart (stream : Nat) (s : State) : Out := .next (s.event (fun m => m.unitStart stream))

/-- A stream has finished: its context is free unless host writes wait for their drain (spec 06, R174). -/
def Mod.streamEnds (m : Mod) (i : Nat) (d : StreamDesc) (r : StrRun) : Mod :=
  let m := if d.remote then m.sendSignals 1 i else m
  if d.dstHost then m.setStr i (fun r => { r with st := .done })
  else
    let m := match r.handle with
      | some h => m.setCtx h none
      | none => m
    m.setStr i (fun r => { r with st := .done, handle := none })

/-- The unit that is under way becomes visible (spec 06, R187). -/
def Mod.unitVisible (m : Mod) (i : Nat) (d : StreamDesc) (r : StrRun) (data : Bytes) : Mod :=
  let lo := max r.pos (r.seen * d.unitSize)
  let hi := (r.seen + 1) * d.unitSize
  let m := m.movePlan i d r lo hi data
  let m := m.setStr i (fun r => { r with seen := r.seen + 1, pos := hi })
  let last := decide (r.seen + 1 = d.units)
  let m := if 0 < d.ringUnits ∨ last then m.incFlag d.doneFlag 1 else m
  if last then m.streamEnds i d r else m

/-- Whether the next unit's accesses can complete: no failed access waits for its hold, indices and host reads are there. -/
def Mod.unitReady (m : Mod) (d : StreamDesc) (r : StrRun) (data : Bytes) : Bool :=
  let lo := max r.pos (r.seen * d.unitSize)
  let hi := (r.seen + 1) * d.unitSize
  r.st == .active && decide (r.seen < r.begun)
  && (match r.handle.bind m.ctx with | some c => c.cause == 0 | none => true)
  && m.indicesReady d (ceilDiv hi (d.ext 0)) && d.dataFits r.cut lo hi data && m.readsOk (m.planReader d r.cut lo data) lo hi

/-- STREAM_UNIT_VISIBLE (spec 06, R187); `data` holds what host reads give. -/
def execStreamUnitVisible (stream : Nat) (data : Bytes) (s : State) : Out :=
  .next (s.event (fun m =>
    match m.roundStream stream, m.strRun stream with
    | some d, some r =>
      if m.moving && !d.isFlue && m.unitReady d r data then m.unitVisible stream d r data else m
    | _, _ => m))

/-- FLUE_MESSAGE_COMPLETE (spec 06, R208 to R210). -/
def execFlueMessageComplete (stream : Nat) (s : State) : Out :=
  .next (s.event (fun m =>
    match m.roundStream stream, m.strRun stream with
    | some d, some r => if m.moving && d.isFlue && m.unitReady d r [] then m.unitVisible stream d r [] else m
    | _, _ => m))

/-! ### Holds (spec 06, R197, R198) -/

/-- A plan stream's host read fails at a position of the unit under way: positions below it are delivered. -/
def Mod.holdPlan (m : Mod) (h : Nat) (c : Ctx) (cause : HoldCause) (p : Nat) (data : Bytes) : Mod :=
  match m.roundStream c.stream, m.strRun c.stream with
  | some d, some r =>
    let lo := max r.pos (r.seen * d.unitSize)
    let x := m.planReader d r.cut lo data
    let inUnit := decide (lo ≤ p) && decide (p < (r.seen + 1) * d.unitSize)
    if r.st = .active ∧ r.seen < r.begun ∧ inUnit ∧ d.dataFits r.cut lo p data ∧ m.readsOk x lo p
        ∧ m.indicesReady d (ceilDiv (p + 1) (d.ext 0)) then
      match m.failing x p cause false with
      | some f =>
        let m := m.movePlan c.stream d r lo p data
        (m.setStr c.stream (fun r => { r with st := .held, pos := p })).enterHeld h c p f
      | none => m
    else m
  | _, _ => m

/-- Write drained data to the host, lowest position first (spec 06, R191). -/
def Mod.drainWrites (m : Mod) (ws : List Staged) : Mod := ws.foldl (fun m w => m.hostStore w.addr w.data) m

/-- A drain's write fails at a position, or its read of the settle buffer meets poison there: what lies below it is in host
memory. -/
def Mod.holdDrain (m : Mod) (h : Nat) (c : Ctx) (cause : HoldCause) (p : Nat) : Mod :=
  let parts := c.writes.map (splitStaged c.desc p)
  let below := (parts.map (·.1)).flatten
  match (parts.map (·.2)).flatten with
  | w :: rest =>
    if p % c.desc.grain = 0 ∧ below.all (fun w => (m.accessCause w.addr w.data.length true).isNone) then
      let n := min c.desc.grainBytes w.data.length
      match m.accessCause w.addr n true, cause with
      | some k, _ => (m.drainWrites below).enterHeld h { c with writes := w :: rest } p (w.addr, n, true, k)
      | none, .poison => (m.drainWrites below).enterHeld h { c with writes := w :: rest } p (m.hbm.settleBuffer.lo, n, false, 4)
      | none, _ => m
    else m
  | [] => m

/-- A settled write of a context: a PARTNER export sends image bytes to the partner's snapshot area (spec 14, R456). -/
def Mod.contextWrite (m : Mod) (c : Ctx) (addr : Nat) (bs : Bytes) : Mod :=
  if c.use = .snapshot ∧ !c.desc.dstHost then m.sendAll (dataPackets partnerWord 0xFF addr bs) else m.settledWrite addr bs

/-- Move positions [lo, hi) of a command stream or export: settled data (spec 06, R205). -/
def Mod.moveSettled (m : Mod) (c : Ctx) (cut : Option Nat) (lo hi : Nat) (data : Bytes) : Mod :=
  (m.streamWrites (m.readerOf c.desc cut lo data) none lo hi).foldl (fun m w => m.contextWrite c w.1 w.2.1) m

/-- The host accesses of [lo, hi) of a command stream succeed, and it reads no poison. -/
def Mod.settledOk (m : Mod) (c : Ctx) (lo hi : Nat) : Bool :=
  let d := c.desc
  (d.grains lo hi).all (fun p =>
    (if d.srcHost then (m.accessCause (d.srcAt p / 2) d.grainBytes false).isNone else !m.poisoned (d.srcAt p / 2) d.grainBytes)
    && (!d.dstHost || (m.accessCause (d.dstAt p / 2) d.grainBytes true).isNone))

/-- A command stream's or export's access fails at a position. -/
def Mod.holdSettled (m : Mod) (h : Nat) (c : Ctx) (cause : HoldCause) (p : Nat) (data : Bytes) : Mod :=
  let x := m.readerOf c.desc none c.resume data
  if c.resume ≤ p ∧ p < c.desc.positions ∧ c.desc.dataFits none c.resume p data ∧ m.settledOk c c.resume p then
    match m.failing x p cause true with
    | some f => (m.moveSettled c none c.resume p data).enterHeld h c p f
    | none => m
  else m

/-- STREAM_HOLD (spec 06, R197, R198): `position` is the resume index, `data` what host reads gave below it. -/
def Mod.streamHold (m : Mod) (h : Nat) (cause : HoldCause) (p : Nat) (data : Bytes) : Mod :=
  match m.ctx h with
  | some c =>
    if c.st ≠ .active ∨ !m.dataPlane then m
    else match c.use with
      | .plan => if m.moving then m.holdPlan h c cause p data else m
      | .drain => m.holdDrain h c cause p
      | _ => m.holdSettled h c cause p data
  | none => m

def execStreamHold (handle : Nat) (cause : HoldCause) (position : Nat) (data : Bytes) (s : State) : Out :=
  .next (s.event (fun m => m.streamHold handle cause position data))

/-! ### Drains (spec 06, R191, R192) -/

/-- drained_serial advances to a later serial (spec 06, R191). -/
def Region.drain (r : Region) (serial : Word) : Region := if precedes r.drained serial then { r with drained := serial } else r

/-- A drain is over: its context is free, its stream's pending generation takes effect, and a waiting open may have its
space. -/
def Mod.drainEnds (m : Mod) (h : Nat) (c : Ctx) : Mod :=
  let m := m.setCtx h none
  let m := match m.roundStream c.stream, m.strRun c.stream with
    | some d, some r => if r.st = StrSt.held0 then m.armStream c.stream d else m
    | _, _ => m
  m.tryOpen

/-- DRAIN_COMPLETE (spec 06, R191). -/
def Mod.drainDone (m : Mod) (h : Nat) : Mod :=
  match m.ctx h with
  | some c =>
    if c.use = .drain ∧ c.st = .active ∧ c.cause = 0 ∧ m.dataPlane
        ∧ c.writes.all (fun w => (m.accessCause w.addr w.data.length true).isNone) then
      let m := m.drainWrites c.writes
      let m := c.writes.foldl (fun m w =>
        { m with regions := SMap.upd Region.free m.regions (hostRegion w.addr) (fun r => r.drain c.serial) }) m
      m.drainEnds h c
    else m
  | none => m

def execDrainComplete (handle : Nat) (s : State) : Out := .next (s.event (fun m => m.drainDone handle))

/-! ### STREAM_CREATE, STREAM_ARM (spec 06, R204 to R206) -/

/-- The effect of STREAM_CREATE on the descriptor that the buffer holds. -/
def Mod.streamCreate (m : Mod) (port : Nat) (bs : Bytes) : Ans :=
  let d := parseStream bs
  let sub := if streamWordsBad bs then 0x0701 else m.commandSub d
  if sub ≠ 0 then ⟨Cls.rejected, Detail.validationFail, leBytes 4 sub, m⟩
  else match m.cmdCtxs d.homeCore with
    | h :: _ => Ans.ok (m.setCtx h (some (Ctx.fresh .command .idle 0xFFFFFFFF port d))) (leBytes 4 h)
    | [] => Ans.rejected m Detail.noResource

/-- STREAM_CREATE (spec 06, R204). -/
def execStreamCreate (h : Cmd) (desc : HostRead) (s : State) : Out :=
  .next (runCmd h
    { opcode := Op.streamCreate, ownerOnly := false,
      params := fun m => if m.bufferOk h 128 false then none else some Detail.badParam,
      run := fun m =>
        if m.ctl.refLost then Ans.rejected m Detail.badState
        else match desc with
          | .error => ⟨Cls.faulted, Detail.hostError, [], m⟩
          | .data bs => m.streamCreate h.port (fitBytes 128 bs) } s)

/-- A handle in range; whether it names a stream is a matter of state. -/
def handleParams (h : Cmd) (handle : Word) : Mod → Option Nat := plainParams h (decide (4095 < handle.toNat))

/-- Another port created the command stream or export. -/
def Mod.otherPorts (m : Mod) (port h : Nat) : Bool :=
  match m.ctx h with
  | some c => (c.use == .command || c.use == .snapshot) && c.port != port
  | none => false

/-- A generation of a command stream starts. -/
def Ctx.generation (c : Ctx) (src dst : Nat) (t : Ticket) : Ctx :=
  { c with desc := { c.desc with srcBase := src, dstBase := dst }, st := .active, cause := 0, resume := 0, ticket := some t,
           pend := none }

/-- The effect of STREAM_ARM on a command stream. -/
def Mod.streamArm (m : Mod) (h : Nat) (c : Ctx) (src dst : Nat) (t : Ticket) : Ans :=
  let d := { c.desc with srcBase := if src = 0 then c.desc.srcBase else src,
                         dstBase := if dst = 0 then c.desc.dstBase else dst }
  let sub := m.commandSub d
  if sub ≠ 0 then ⟨Cls.rejected, Detail.validationFail, leBytes 4 sub, m⟩
  else if m.keptOut d then Ans.rejected m Detail.badState
  else if c.st = .idle then Ans.accepted (m.setCtx h (some (c.generation d.srcBase d.dstBase t)))
  else if c.pend.isNone then Ans.accepted (m.setCtx h (some { c with pend := some ⟨d.srcBase, d.dstBase, t⟩ }))
  else Ans.busy m

/-- STREAM_ARM (spec 06, R206). -/
def execStreamArm (h : Cmd) (handle : Word) (src dst : Dword) (s : State) : Out :=
  .next (runCmd h
    { opcode := Op.streamArm, ownerOnly := false, forbidden := fun m => m.otherPorts h.port handle.toNat,
      params := handleParams h handle,
      run := fun m =>
        match m.ctx handle.toNat with
        | some c =>
          if c.use ≠ .command ∨ m.ctl.refLost then Ans.rejected m Detail.badState
          else m.streamArm handle.toNat c src.toNat dst.toNat ⟨h.port, h.tag⟩
        | none => Ans.rejected m Detail.badState } s)

/-- A generation is over: its completion, then the pending one starts, or the stream is IDLE (spec 06, R206). -/
def Mod.generationEnds (m : Mod) (h : Nat) (c : Ctx) (cls detail : Nat) : Mod :=
  let m := m.completeOpt c.ticket Op.streamArm cls detail []
  m.setCtx h (some (match c.pend with
    | some g => c.generation g.src g.dst g.ticket
    | none => { c with st := .idle, cause := 0, resume := 0, ticket := none }))

/-- COMMAND_STREAM_COMPLETE (spec 06, R206); `data` holds what host reads give from the resume index on. -/
def Mod.commandDone (m : Mod) (h : Nat) (data : Bytes) : Mod :=
  match m.ctx h with
  | some c =>
    let n := c.desc.positions
    if c.use = .command ∧ c.st = .active ∧ c.cause = 0 ∧ m.dataPlane ∧ c.desc.dataFits none c.resume n data
        ∧ m.settledOk c c.resume n then
      (m.moveSettled c none c.resume n data).generationEnds h c Cls.ok Detail.none
    else m
  | none => m

def execCommandStreamComplete (handle : Nat) (data : Bytes) (s : State) : Out :=
  .next (s.event (fun m => m.commandDone handle data))

/-! ### STREAM_RESUME, STREAM_RETIRE (spec 06, R199, R200, R202) -/

/-- Whether the access at the resume index may go on: address, bytes, a write. -/
def Mod.resumable (m : Mod) (c : Ctx) : Bool :=
  let n := c.desc.grainBytes
  match c.use with
  | .drain =>
    match c.writes with
    | w :: _ => (m.accessCause w.addr (min n w.data.length) true).isNone
    | [] => true
  | .plan =>
    match m.strRun c.stream with
    | some r =>
      match (m.planReader c.desc r.cut c.resume []).addr c.resume with
      | some half => (m.accessCause (half / 2) n false).isNone
      | none => true
    | none => false
  | _ =>
    if c.cause = 4 then true
    else if c.reading then (m.accessCause (c.desc.srcAt c.resume / 2) n false).isNone
    else (m.accessCause (c.desc.dstAt c.resume / 2) n true).isNone

/-- The stream leaves HELD; a codeword that is still poisoned holds it again (spec 06, R203). -/
def Mod.streamResume (m : Mod) (h : Nat) (c : Ctx) : Mod :=
  let m := m.setCtx h (some { c with st := .active, cause := 0 })
  let m := if c.use = .plan then m.setStr c.stream (fun r => { r with st := .active }) else m
  if c.cause = 4 ∧ c.use ≠ .drain then
    let a := c.desc.srcAt c.resume / 2
    if m.poisoned a c.desc.grainBytes then
      m.enterHeld h { c with cause := 0 } c.resume (a, c.desc.grainBytes, false, 4)
    else m
  else m

/-- Only the owner acts on plan streams and drains (spec 15, R486). -/
def Mod.notForPort (m : Mod) (port h : Nat) : Bool :=
  match m.ctx h with
  | some c => if c.use = .command ∨ c.use = .snapshot then c.port != port else m.ctl.owner != some port
  | none => false

/-- STREAM_RESUME (spec 06, R199, R202). -/
def execStreamResume (h : Cmd) (handle : Word) (s : State) : Out :=
  .next (runCmd h
    { opcode := Op.streamResume, ownerOnly := false, forbidden := fun m => m.notForPort h.port handle.toNat,
      params := handleParams h handle,
      run := fun m =>
        match m.ctx handle.toNat with
        | some c =>
          if c.st ≠ .held ∨ m.ctl.refLost ∨ !m.resumable c then Ans.rejected m Detail.badState
          else Ans.ok (m.streamResume handle.toNat c)
        | none => Ans.rejected m Detail.badState } s)

/-- The condition of a retired plan stream (spec 04, R138; spec 06, R200). -/
def Mod.truncated (m : Mod) (i : Nat) (d : StreamDesc) (cut : Nat) : Mod :=
  m.addCond ⟨Detail.streamTruncated, i, 0, d.positions - cut, 0, cut⟩

/-- A held plan stream is retired: it goes on with padding from the resume index, in every attempt of the round (spec 04,
R139). -/
def Mod.retirePlan (m : Mod) (h : Nat) (c : Ctx) : Mod :=
  let m := { m with run := { m.run with retired := m.run.retired ++ [(c.stream, c.resume)] } }
  let m := m.setCtx h (some { c with st := .active, cause := 0 })
  (m.setStr c.stream (fun r => { r with st := .active, cut := some c.resume })).truncated c.stream c.desc c.resume

/-- A held drain is retired: its remaining writes go, with a record (spec 06, R202). -/
def Mod.retireDrain (m : Mod) (h : Nat) (c : Ctx) : Mod :=
  let m := m.report { cls := Rec.stream, attn := Attn.log, detail := Detail.streamTruncated,
                      payload := streamPayload h c.stream c.cause c.resume }
  m.drainEnds h c

/-- A held command stream is retired: a read supplies zeros to the rest, a write leaves it (spec 06, R200, R206). -/
def Mod.retireCommand (m : Mod) (h : Nat) (c : Ctx) : Mod :=
  let m := if c.reading then m.moveSettled c (some c.resume) c.resume c.desc.positions [] else m
  m.generationEnds h c Cls.part Detail.streamTruncated

/-- The effect of STREAM_RETIRE on what a context holds. -/
def Mod.streamRetire (m : Mod) (h : Nat) (c : Ctx) : Mod :=
  match c.use with
  | .plan => m.retirePlan h c
  | .drain => m.retireDrain h c
  | .command => m.retireCommand h c
  | .snapshot =>
    let m := if c.reading then m.moveSettled c (some c.resume) c.resume c.desc.positions [] else m
    match m.step.exports.find? (fun x => x.handle == h) with
    | some x => (m.truncateExport x).tryOpen
    | none => m

/-- STREAM_RETIRE (spec 06, R200, R202, R206; spec 12, R406). -/
def execStreamRetire (h : Cmd) (handle : Word) (s : State) : Out :=
  .next (runCmd h
    { opcode := Op.streamRetire, ownerOnly := false, forbidden := fun m => m.notForPort h.port handle.toNat,
      params := handleParams h handle,
      run := fun m =>
        match m.ctx handle.toNat with
        | some c =>
          if c.st = .held then Ans.ok (m.streamRetire handle.toNat c)
          else if c.use = .command ∧ c.st = .idle then Ans.ok (m.setCtx handle.toNat none)
          else Ans.rejected m Detail.badState
        | none => Ans.rejected m Detail.badState } s)

end Sys2Proof.Machine
end

