-- ==== Sys2Proof/Machine/Exports.lean ====
section
/-! DEFINITION. Snapshot exports (spec 12, R405, R406; spec 14, R456). -/
namespace Sys2Proof.Machine

/-- The record of a set's slot. -/
def Mod.slotRecord (m : Mod) (set slot : Nat) : Option Alloc :=
  m.plan.plan.bind (fun p => (p.vset set).bind (fun v => p.alloc (v.slotRec + slot)))

/-- The image entry of an export (spec 14, R456). -/
def Mod.exportEntry (m : Mod) (set : Nat) : Option ImgEntry :=
  match m.slotRecord set 0, m.slotRecord set (m.curSlot set) with
  | some a0, some a => some ⟨a0.tensorId, 1, m.curSlot set, a0, a, none⟩
  | _, _ => none

/-- The copy of an export in source order: single bytes of the slot's span (spec 12, R405). -/
def exportDesc (core src n dst : Nat) : StreamDesc :=
  { StreamDesc.none with
    homeCore := core, esize := 2, srcBase := src, dstBase := dst, extent := [n, 1, 1, 1, 1, 1],
    srcStride := [1, 0, 0, 0, 0, 0], dstStride := [1, 0, 0, 0, 0, 0] }

/-- What SNAPSHOT_EXPORT's parameters break: the set, the mode, the destination's room. Without a plan the state check
answers. -/
def Mod.exportBad (m : Mod) (h : Cmd) (set mode : Nat) : Bool :=
  if 1 < mode then true
  else if !m.holdsPlan then false
  else match m.exportEntry set with
    | none => true
    | some e =>
      if mode = 0 then !m.bufferOk h e.src.spanBytes true
      else decide (m.bank.partnerX < imgBytes [e]) || !noBuffer h

/-- The export starts: its pin, its context; to the partner, the directory goes first (spec 14, R456). -/
def Mod.startExport (m : Mod) (h : Cmd) (handle set : Nat) (partner : Bool) (e : ImgEntry) : Mod :=
  let dst := if partner then 128 else hostAddr h.bufRegion.toNat h.bufOffset.toNat
  let c := Ctx.fresh .snapshot .active 0xFFFFFFFF h.port (exportDesc (set % 8) e.src.base e.src.spanBytes dst)
  let dir := m.imgDir [e]
  let header :=
    if partner then imgHeader true Config.position m.planId m.step.last.step.toNat m.bank.serial.toNat (imgBytes [e]) 1 dir
    else []
  let x : Export := ⟨handle, set, e.slot, partner, header, ⟨h.port, h.tag⟩⟩
  let m := (m.setCtx handle (some c))
  let m := { m with step := { m.step with exports := m.step.exports ++ [x] } }
  if partner then m.send (.bankData partnerWord 0xFF 64 dir) else m

/-- SNAPSHOT_EXPORT (spec 12, R405; spec 14, R456). -/
def execSnapshotExport (h : Cmd) (set : Half) (mode : Byte) (s : State) : Out :=
  .next (runCmd h
    { opcode := Op.snapshotExport, ownerOnly := false,
      params := fun m => if m.exportBad h set.toNat mode.toNat then some Detail.badParam else none,
      run := fun m =>
        if !m.holdsPlan ∨ m.ctl.refLost ∨ (m.oldestExport set.toNat).isSome then Ans.rejected m Detail.badState
        else match m.exportEntry set.toNat, m.cmdCtxs (set.toNat % 8) with
          | some e, handle :: _ => Ans.accepted (m.startExport h handle set.toNat (mode == 1) e) (leBytes 4 handle)
          | _, _ => Ans.rejected m Detail.noResource } s)

/-- An export is over: its context and its pin go, and an open that waits for a slot may go on (spec 12, R403, R406). -/
def Mod.endExport (m : Mod) (x : Export) : Mod :=
  let m := if x.partner then m.send (.bankData partnerWord 0xFF 0 x.header) else m
  let m := m.setCtx x.handle none
  let m := { m with step := { m.step with exports := m.step.exports.filter (fun y => y.handle != x.handle) } }
  (m.complete x.ticket Op.snapshotExport Cls.ok Detail.none []).tryOpen

/-- SNAPSHOT_EXPORT_COMPLETE (spec 12, R406): the copy is whole; to the partner, the header goes last. -/
def Mod.exportDone (m : Mod) (h : Nat) : Mod :=
  match m.ctx h, m.step.exports.find? (fun x => x.handle == h) with
  | some c, some x =>
    let n := c.desc.positions
    if c.use = .snapshot ∧ c.st = .active ∧ c.cause = 0 ∧ m.dataPlane ∧ m.settledOk c c.resume n
        ∧ (!x.partner ∨ m.bank.partner = 1) then
      (m.moveSettled c none c.resume n []).endExport x
    else m
  | _, _ => m

def execSnapshotExportComplete (handle : Nat) (s : State) : Out := .next (s.event (fun m => m.exportDone handle))

end Sys2Proof.Machine
end

