-- ==== Sys2Proof/Machine/BankCmds.lean ====
section
/-! DEFINITION. Bank commands (spec 14, R442, R443, R450, R455, R458). -/
namespace Sys2Proof.Machine

/-! ### BANK_CONFIGURE (spec 14, R442) -/

/-- A region made by a port. -/
def Mod.onPort (m : Mod) (port region : Nat) : Bool :=
  let r := SMap.get Region.free m.regions region
  decide (region < 4096) && r.state != .free && r.port == port

/-- A pair of BANK_CONFIGURE: a region on each port where it is used, 0xFFFF twice where it is not. -/
def Mod.pairLegal (m : Mod) (used : Bool) (r0 r1 : Nat) : Bool :=
  if used then m.onPort 0 r0 && m.onPort 1 r1 else r0 == 0xFFFF && r1 == 0xFFFF

/-- The effect of BANK_CONFIGURE; a change of the division empties the held slots (spec 14, R439). -/
def Bank.configure (b : Bank) (interval slots snapGib pairs p0a p0b p1a p1b : Nat) : Bank :=
  let b' := if b.slots = slots ∧ b.snapGib = snapGib then b else b.clearHeld
  { b' with
    intervalStaged := some interval, slots := slots, snapGib := snapGib, pairs := pairs,
    p0a := p0a, p0b := p0b, p1a := p1a, p1b := p1b }

/-- BANK_CONFIGURE (spec 14, R442). -/
def execBankConfigure (h : Cmd) (interval : Half) (slots snapGib pairs : Byte) (p0a p0b p1a p1b : Half) (s : State) : Out :=
  .next (runCmd h
    { opcode := Op.bankConfigure, ownerOnly := true,
      params := fun m => plainParams h (slots == 0 || decide (2 < slots.toNat) || decide (64 < snapGib.toNat)
        || decide (2 < pairs.toNat) || decide (m.hbm.bankGib < snapGib.toNat)
        || !m.pairLegal (decide (0 < pairs.toNat)) p0a.toNat p1a.toNat
        || !m.pairLegal (decide (1 < pairs.toNat)) p0b.toNat p1b.toNat) m,
      run := fun m =>
        if m.ctl.state ≠ .ready ∧ m.ctl.state ≠ .halted then Ans.rejected m Detail.badState
        else if m.bankBusy then Ans.busy m
        else Ans.ok { m with bank := m.bank.configure interval.toNat slots.toNat snapGib.toNat pairs.toNat
                                       p0a.toNat p0b.toNat p1a.toNat p1b.toNat } } s)

/-! ### BANK_NOW (spec 14, R443) -/

/-- The plan is HALTED with its resume round at body_start, no step under way, and a step complete. -/
def Mod.atStepBoundary (m : Mod) : Bool :=
  m.plan.st == .halted && !m.step.inStep && m.step.last.outcome != 0
  && (match m.plan.plan with | some p => m.plan.round == p.bodyStart | none => false)

/-- BANK_NOW (spec 14, R443). -/
def execBankNow (h : Cmd) (mask : Byte) (s : State) : Out :=
  .next (runCmd h
    { opcode := Op.bankNow, ownerOnly := true, params := plainParams h (mask == 0 || decide (3 < mask.toNat)),
      run := fun m =>
        if (m.plan.st ≠ .running ∧ !m.atStepBoundary) ∨ m.ctl.refLost then Ans.rejected m Detail.badState
        else if m.bank.upd.isSome ∨ m.bank.now.isSome then Ans.busy m
        else if m.plan.st = .running then Ans.ok { m with bank := { m.bank with now := some mask.toNat } }
        else Ans.ok (m.startUpdate m.step.last.step (bit mask.toNat 0) (bit mask.toNat 1)) } s)

/-! ### BANK_STATUS (spec 14, R458) -/

/-- The transfer that BANK_SERVE or a PULL makes the module serve. -/
def Bank.serving (b : Bank) : Bool := b.pulled.isSome || b.serves.any (fun x => x.active)

/-- A slot fills. -/
def Bank.receiving (b : Bank) : Bool := b.held0.st == 1 || b.held1.st == 1 || b.snap.st == 1

/-- Bytes that the partner send has sent. -/
def OwnUpd.sentBytes (u : OwnUpd) : Nat :=
  match u.send with
  | .sending _ => 64 + u.dir.length + ((u.extents.take u.read.length).map (fun e => e.2.2.1)).sum
  | .sealed _ => u.bytes
  | _ => 0

/-- bytes_done. -/
def Bank.bytesDone (b : Bank) : Nat :=
  match b.relight, b.upd with
  | some r, _ => r.got
  | none, some u => u.sentBytes
  | none, none => 0

/-- A held entry of BANK_STATUS. -/
def Held.bytes (x : Held) : Bytes :=
  leBytes 2 x.owner ++ [BitVec.ofNat 8 x.st, 0] ++ leBytes 4 x.step.toNat ++ leBytes 4 x.serial.toNat ++ zeros 4
    ++ leBytes 8 x.imageBytes ++ leBytes 8 x.planId

/-- A step, 0xFFFF_FFFF for none. -/
def stepOrNone (x : Option Word) : Bytes := leBytes 4 ((x.getD 0xFFFFFFFF#32).toNat)

/-- The block of R458. -/
def Mod.bankStatus (m : Mod) : Bytes :=
  let b := m.bank
  let upd (f : OwnUpd → Bool) : Nat := b2n ((b.upd.map f).getD false)
  let activity := upd (fun u => u.isSending) + 2 * upd (fun u => u.host.isSome) + 4 * b2n b.relight.isSome
    + 8 * b2n b.serving + 16 * b2n b.receiving
  let channels := b2n (m.liveChannel 0x16).isSome + 2 * b2n (m.liveChannel 0x17).isSome
  [BitVec.ofNat 8 activity, BitVec.ofNat 8 b.partner, BitVec.ofNat 8 channels, BitVec.ofNat 8 b.lastResult]
  ++ leBytes 4 (b.intervalStaged.getD b.interval) ++ stepOrNone b.sentStep ++ stepOrNone b.hostStep0 ++ stepOrNone b.hostStep1
  ++ leBytes 4 b.serial.toNat ++ leBytes 8 b.bytesDone ++ leBytes 8 (if m.holdsPlan then imgBytes m.imgEntries else 0)
  ++ leBytes 8 m.bankQ ++ b.held0.bytes ++ (if b.slots = 2 then b.held1.bytes else zeros 32)
  ++ [BitVec.ofNat 8 b.snap.st] ++ zeros 3 ++ leBytes 4 b.snap.step.toNat ++ leBytes 8 b.snap.imageBytes
  ++ leBytes 8 (m.counter Cnt.bankSealed).value ++ leBytes 8 (m.counter Cnt.bankAborted).value
  ++ leBytes 8 (m.counter Cnt.bankCommitWait).value ++ leBytes 8 (m.counter Cnt.bankRelight).value

/-- BANK_STATUS (spec 14, R458). -/
def execBankStatus (h : Cmd) (s : State) : Out :=
  .next (runCmd h
    { opcode := Op.bankStatus, ownerOnly := false, params := bufParams h 160,
      run := fun m => Ans.ok (m.writeBuffer h m.bankStatus) } s)

/-! ### RELIGHT (spec 14, R450) -/

/-- Any own transfer: an image update, a host copy, a PARTNER export. -/
def Mod.ownTransfer (m : Mod) : Bool := m.bank.upd.isSome || m.step.exports.any (fun x => x.partner)

/-- The parameters of RELIGHT against its table. -/
def Mod.relightBad (m : Mod) (source owner holder r0 r1 : Nat) : Bool :=
  decide (2048 ≤ owner)
  || (if source = 0 then decide (2048 ≤ holder) || r0 != 0xFFFF || r1 != 0xFFFF
      else if source = 1 then holder != 0xFFFF || !m.onPort 0 r0 || !m.onPort 1 r1
      else true)

/-- RELIGHT (spec 14, R450, R451). -/
def execRelight (h : Cmd) (source : Byte) (step : Word) (owner holder r0 r1 : Half) (s : State) : Out :=
  .next (runCmd h
    { opcode := Op.relight, ownerOnly := true,
      params := fun m => plainParams h (m.relightBad source.toNat owner.toNat holder.toNat r0.toNat r1.toNat) m,
      run := fun m =>
        if m.ctl.state ≠ .ready ∨ m.plan.st ≠ .loaded ∨ m.ctl.refLost then Ans.rejected m Detail.badState
        else if m.bank.relight.isSome ∨ m.ownTransfer then Ans.busy m
        else
          let r : Relight :=
            { ticket := ⟨h.port, h.tag⟩, source := source.toNat, step := step, owner := owner.toNat,
              holder := holder.toNat, r0 := r0.toNat, r1 := r1.toNat, image := [], got := 0 }
          let m := { m with bank := { m.bank with relight := some r } }
          Ans.accepted (if source = 0 then m.send (.pull holder.toNat Config.position owner.toNat step.toNat) else m) } s)

/-! ### BANK_SERVE (spec 14, R455) -/

/-- The held slot with a SEALED image of an owner at a step. -/
def Bank.sealedSlot (b : Bank) (owner : Nat) (step : Word) : Option Nat :=
  if b.held0.st = 2 ∧ b.held0.owner = owner ∧ b.held0.step = step then some 0
  else if b.held1.st = 2 ∧ b.held1.owner = owner ∧ b.held1.step = step then some 1
  else none

/-- Where the image that a BANK_SERVE names lies, and its length; a host target takes the snapshot area at step
0xFFFF_FFFF. -/
def Mod.servedImage (m : Mod) (owner : Nat) (step : Word) (target : Nat) : Option (Nat × Nat) :=
  if target = 0xFFFF ∧ step = 0xFFFFFFFF then
    if m.bank.snap.st = 2 ∧ m.bank.snap.owner = owner then some (m.snapBase, m.bank.snap.imageBytes) else none
  else (m.bank.sealedSlot owner step).map (fun k => (m.heldBase k, (m.bank.held k).imageBytes))

/-- The parameters of BANK_SERVE: member words; a buffer that covers the image for a host target, none for another. -/
def Mod.serveBad (m : Mod) (h : Cmd) (owner : Nat) (step : Word) (target : Nat) : Bool :=
  decide (2048 ≤ owner)
  || (if target = 0xFFFF then !m.bufferOk h (((m.servedImage owner step target).map (·.2)).getD 0) true
      else decide (2048 ≤ target) || !noBuffer h)

/-- BANK_SERVE (spec 14, R455). -/
def execBankServe (h : Cmd) (owner : Half) (step : Word) (target : Half) (s : State) : Out :=
  .next (runCmd h
    { opcode := Op.bankServe, ownerOnly := true,
      params := fun m => if m.serveBad h owner.toNat step target.toNat then some Detail.badParam else none,
      run := fun m =>
        let t : Ticket := ⟨h.port, h.tag⟩
        let toHost := decide (target.toNat = 0xFFFF)
        if m.plan.st = .running ∨ m.ctl.refLost then Ans.rejected m Detail.badState
        else if toHost ∧ m.bank.serving then Ans.busy m
        else if (m.servedImage owner.toNat step target.toNat).isNone then
          Ans.accepted (m.complete t Op.bankServe Cls.rejected Detail.bankStale [])
        else
          let x : Serve := ⟨t, owner.toNat, step, target.toNat, h.bufRegion.toNat, h.bufOffset.toNat, toHost⟩
          Ans.accepted { m with bank := { m.bank with serves := m.bank.serves ++ [x] } } } s)

end Sys2Proof.Machine
end

