-- ==== Sys2Proof/Machine/BankEvents.lean ====
section
/-! DEFINITION. Bank events (spec 14, R444 to R456): the partner, the holder's side of an image, the sender's side, host copies,
relights, served images. -/
namespace Sys2Proof.Machine

/-! ### The partner (spec 14, R445, R449) -/

/-- HELLO (spec 14, R445, R449). -/
def execHello (q x : Nat) (s : State) : Out :=
  .next (s.event (fun m =>
    if m.dataPlane then { m with bank := { m.bank with partner := 1, partnerQ := q, partnerX := x } } else m))

/-- HELLO_TICK (spec 14, R445): on each live bank role. -/
def execHelloTick (s : State) : Out :=
  .next (s.event (fun m =>
    if m.dataPlane then
      [0x16, 0x17].foldl (fun m role =>
        if (m.liveChannel role).isSome then m.send (.hello role m.bankQ m.bankX) else m) m
    else m))

/-- A slot that fills is lost. -/
def Held.abort (x : Held) : Held := if x.st = 1 then { x with st := 3 } else x

/-- PARTNER_LOST (spec 14, R449). -/
def Mod.partnerLost (m : Mod) : Mod :=
  let b := m.bank
  let b := { b with partner := 2, held0 := b.held0.abort, held1 := b.held1.abort, snap := b.snap.abort }
  ({ m with bank := b }).endSend 4 false

def execPartnerLost (s : State) : Out :=
  .next (s.event (fun m => if m.railsUp && m.bank.partner != 2 then m.partnerLost.tryOpen else m))

/-! ### The holder (spec 14, R446) -/

/-- The slot that an OPEN takes. -/
def Bank.openSlot (b : Bank) : Nat := if b.slots = 2 ∧ b.latest = some 0 then 1 else 0

/-- What a held entry takes from an image header (spec 14, R441). -/
def heldOf (st : Nat) (hdr : Bytes) : Held :=
  { owner := fieldAt hdr 0x0A 2, st := st, step := BitVec.ofNat 32 (fieldAt hdr 0x18 4),
    serial := BitVec.ofNat 32 (fieldAt hdr 0x1C 4), imageBytes := fieldAt hdr 0x20 8, planId := fieldAt hdr 0x10 8 }

/-- Set a held slot's entry. -/
def Mod.setHeld (m : Mod) (k : Nat) (x : Held) : Mod := { m with bank := m.bank.setHeld k x }

/-- Image bytes for a held slot that fills. -/
def Mod.heldData (m : Mod) (k off : Nat) (bs : Bytes) : Mod :=
  if (m.bank.held k).st = 1 ∧ off + bs.length ≤ m.bankQ then m.wr (m.heldBase k + off) bs else m

/-- OPEN (spec 14, R446). -/
def Mod.bankOpened (m : Mod) (hdr : Bytes) : Mod :=
  let x := heldOf 1 hdr
  if m.bankQ < x.imageBytes then m.send (.ack partnerWord .noSpace 0 x.step.toNat x.imageBytes)
  else
    let k := m.bank.openSlot
    let m := (m.setHeld k x).heldData k 0 hdr
    let m := if m.bank.latest = some k then { m with bank := { m.bank with latest := none } } else m
    m.send (.ack partnerWord .ok k x.step.toNat x.imageBytes)

def execBankOpen (header : Bytes) (s : State) : Out :=
  .next (s.event (fun m => if m.dataPlane then m.bankOpened (fitBytes 64 header) else m))

/-- Lay bytes over an image at an offset. -/
def overlay (image : Bytes) (off : Nat) (bs : Bytes) : Bytes :=
  fitBytes off image ++ bs ++ image.drop (off + bs.length)

/-- Image bytes for the snapshot area (spec 14, R456): the sealed header comes last. -/
def Mod.snapData (m : Mod) (off : Nat) (bs : Bytes) : Mod :=
  if off + bs.length ≤ m.bankX then
    let m := m.wr (m.snapBase + off) bs
    let x := if off = 0 ∧ 64 ≤ bs.length ∧ bs.getD 0x0E 0 = 1 then heldOf 2 bs else { m.bank.snap with st := 1 }
    { m with bank := { m.bank with snap := x } }
  else m

/-! ### The image that a relight restores (spec 14, R452) -/

/-- `n` bytes of an image from an offset on. -/
def imgPart (image : Bytes) (off n : Nat) : Bytes := (image.drop off).take n

/-- Directory entry i of an image. -/
def imgDirEntry (image : Bytes) (i : Nat) : Bytes := imgPart image (64 + 64 * i) 64

/-- The directory entries of an image. -/
def imgDirEntries (image : Bytes) : List Bytes := (List.range (fieldAt image 0x28 4)).map (imgDirEntry image)

/-- hdr_crc and dir_crc of an image with its header at its start. -/
def imgCrcOk (hdr dir : Bytes) : Bool :=
  crc64 (sealHeader hdr |>.take 0x38) == BitVec.ofNat 64 (fieldAt hdr 0x38 8)
  && crc64 dir == BitVec.ofNat 64 (fieldAt hdr 0x30 8)

/-- The directory's length by the header. -/
def dirLen (hdr : Bytes) : Nat := 64 * fieldAt hdr 0x28 4

/-- A relight's record: id, kind, the record that it fills (slot 0 of a set), the set. -/
structure RestoreRec where
  id : Nat
  kind : Nat
  rec0 : Alloc
  set : Option Nat

/-- What the loaded plan needs: every STATE record and every version set. -/
def Mod.restoreRecs (m : Mod) : List RestoreRec :=
  match m.plan.plan with
  | none => []
  | some p =>
    ((p.allocs.filter (fun e => e.2.pclass == .state)).map (fun e => RestoreRec.mk e.2.tensorId 0 e.2 none))
    ++ p.vsets.filterMap (fun e => (p.alloc e.2.slotRec).map (fun a => RestoreRec.mk a.tensorId 1 a (some e.1)))

/-- A directory entry is a record's. -/
def RestoreRec.isFor (r : RestoreRec) (e : Bytes) : Bool := fieldAt e 0 4 == r.id && fieldAt e 4 1 == r.kind

/-- The record is there exactly once, with equal bytes and layout. -/
def RestoreRec.present (r : RestoreRec) (es : List Bytes) : Bool :=
  match es.filter r.isFor with
  | [e] => fieldAt e 0x10 8 == r.rec0.spanBytes && BitVec.ofNat 64 (fieldAt e 0x20 8) == r.rec0.layoutCrc
  | _ => false

/-- The checks on header and directory: the completion on failure (spec 14, R452). -/
def Mod.relightCheck (m : Mod) (r : Relight) (image : Bytes) : Option (Nat × Nat) :=
  let hdr := image.take 64
  let dir := imgPart image 64 (dirLen hdr)
  if !imgCrcOk hdr dir ∨ fieldAt hdr 0x0E 1 ≠ 1 ∨ fieldAt hdr 0x0A 2 ≠ r.owner ∨ fieldAt hdr 0x18 4 ≠ r.step.toNat then
    some (Cls.rejected, Detail.bankStale)
  else if fieldAt hdr 0x0C 2 ≠ population then some (Cls.rejected, Detail.validationFail)
  else if m.plan.plan.isNone ∨ !m.restoreRecs.all (fun x => x.present (imgDirEntries image)) then
    some (Cls.rejected, Detail.validationFail)
  else none

/-- Header and directory have come. -/
def Relight.headIn (r : Relight) : Bool := decide (64 ≤ r.image.length) && decide (64 + dirLen r.image ≤ r.image.length)

/-- Write what has come of each record to its extent, a VERSION entry's to slot 0. -/
def Mod.restoreBytes (m : Mod) (image : Bytes) : Mod :=
  m.restoreRecs.foldl (fun m r =>
    match (imgDirEntries image).find? r.isFor with
    | some e => m.wr r.rec0.base (imgPart image (fieldAt e 8 8) (min r.rec0.spanBytes (image.length - fieldAt e 8 8)))
    | none => m) m

/-- The relight ends (spec 14, R452): PLAN_START is refused until a RELIGHT completes OK. -/
def Mod.relightEnds (m : Mod) (r : Relight) (cls detail : Nat) : Mod :=
  let m := { m with bank := { m.bank with relight := none, relightFailed := decide (cls ≠ Cls.ok) } }
  let m := if cls = Cls.ok then m.count Cnt.bankRelight 1 else m
  m.complete r.ticket Op.relight cls detail []

/-- Image bytes of a PEER relight: written once header and directory have passed their checks. -/
def Mod.relightData (m : Mod) (off : Nat) (bs : Bytes) : Mod :=
  match m.bank.relight with
  | some r =>
    if r.source = 0 then
      let r := { r with image := overlay r.image off bs, got := r.got + bs.length }
      let m := { m with bank := { m.bank with relight := some r } }
      if r.headIn ∧ (m.relightCheck r r.image).isNone then m.restoreBytes r.image else m
    else m
  | none => m

/-- BANK_DATA (spec 14, R445, R446, R451, R456). -/
def execBankData (area offset : Nat) (data : Bytes) (s : State) : Out :=
  .next (s.event (fun m =>
    if !m.dataPlane ∨ 3824 < data.length then m
    else if area = 0xFE then m.relightData offset data
    else if area = 0xFF then m.snapData offset data
    else if area < 2 then m.heldData area offset data
    else m))

/-- Every record of an image in memory matches its data_crc. -/
def Mod.dataCrcOk (m : Mod) (base limit : Nat) (dir : Bytes) : Bool :=
  (chunks 64 dir).all (fun e =>
    decide (fieldAt e 8 8 + fieldAt e 0x10 8 ≤ limit)
    && crc64 (m.rdBytes (base + fieldAt e 8 8) (fieldAt e 0x10 8)) == BitVec.ofNat 64 (fieldAt e 0x18 8))

/-- SEAL (spec 14, R446). -/
def Mod.sealSlot (m : Mod) (k : Nat) (hdr : Bytes) : Mod :=
  let x := m.bank.held k
  if x.st ≠ 1 then m
  else
    let base := m.heldBase k
    let m := m.heldData k 0 hdr
    let dir := m.rdBytes (base + 64) (min (dirLen hdr) m.bankQ)
    if imgCrcOk hdr dir ∧ m.dataCrcOk base m.bankQ dir then
      let m := m.setHeld k (heldOf 2 hdr)
      ({ m with bank := { m.bank with latest := some k } }).send (.ack partnerWord .ok k x.step.toNat x.imageBytes)
    else (m.setHeld k { x with st := 3 }).send (.ack partnerWord .poison k x.step.toNat x.imageBytes)

def execSeal (area : Nat) (header : Bytes) (s : State) : Out :=
  .next (s.event (fun m => if m.dataPlane ∧ area < 2 then m.sealSlot area (fitBytes 64 header) else m))

/-- ABORT (spec 14, R446): of the image that fills the slot. -/
def execBankAbort (area serial : Nat) (s : State) : Out :=
  .next (s.event (fun m =>
    if m.dataPlane ∧ area < 2 ∧ (m.bank.held area).serial.toNat = serial then m.setHeld area (m.bank.held area).abort else m))

/-! ### The sender (spec 14, R444, R446, R448, R449) -/

/-- The answer to an own OPEN or SEAL. -/
def Mod.updateAck (m : Mod) (u : OwnUpd) (status : AckStatus) (area : Nat) : Mod :=
  match u.send, status with
  | .opened, .ok =>
    if area < 2 then (m.setSend (.sending area)).sendAll (dataPackets partnerWord area 64 u.dir) else m
  | .opened, .noSpace => m.endSend 3 false
  | .sealed _, .ok =>
    let m := { m with bank := { m.bank with sentStep := some u.step, lastResult := 1 } }
    ((m.count Cnt.bankSealed 1).setSend .none).closeUpdate
  | .sealed _, .poison => m.endSend 5 false
  | _, _ => m

/-- The answer to an own PULL (spec 14, R451, R452). -/
def Mod.pullAck (m : Mod) (r : Relight) (status : AckStatus) : Mod :=
  match status with
  | .notHeld => m.relightEnds r Cls.rejected Detail.bankStale
  | .busy => m.relightEnds r Cls.busy Detail.none
  | .notGranted => m.relightEnds r Cls.rejected Detail.notOwner
  | .poison => m.relightEnds r Cls.faulted Detail.bankPoison
  | _ => m

/-- ACK (spec 14, R446, R449, R451). -/
def execAck (status : AckStatus) (area step imageBytes : Nat) (s : State) : Out :=
  .next (s.event (fun m =>
    if !m.dataPlane then m
    else match m.bank.relight, m.bank.upd with
      | some r, _ => if r.source = 0 ∧ r.step.toNat = step then m.pullAck r status else m
      | none, some u =>
        if u.step.toNat = step ∧ u.bytes = imageBytes then (m.updateAck u status area).tryOpen else m
      | none, none => m))

/-- The bytes of extent `entry` go to every destination that is left; its bank pin goes; after the last extent, SEAL. -/
def Mod.extentRead (m : Mod) (u : OwnUpd) (entry : Nat) (e : Nat × Nat × Nat × Option Pin) : Mod :=
  let bs := m.rdBytes e.2.1 e.2.2.1
  let u := { u with read := u.read ++ [entry] }
  let m := { m with bank := { m.bank with
    upd := some u, pins := match e.2.2.2 with | some p => m.bank.pins.erase p | none => m.bank.pins } }
  let m := match u.send with | .sending a => m.sendAll (dataPackets partnerWord a e.1 bs) | _ => m
  let m := match u.host with | some k => m.writePair k u.bytes e.1 bs | none => m
  match u.send with
  | .sending a =>
    if u.read.length = u.extents.length then (m.setSend (.sealed a)).send (.seal a (sealHeader u.header)) else m
  | _ => m

/-- BANK_EXTENT_READ (spec 14, R444): extents are read in image order, once the partner has answered OPEN. -/
def execBankExtentRead (entry : Nat) (s : State) : Out :=
  .next (s.event (fun m =>
    match m.bank.upd with
    | some u =>
      match u.extents[entry]? with
      | some e =>
        if m.dataPlane ∧ u.send ≠ .opened ∧ entry = u.read.length ∧ !m.poisoned e.2.1 e.2.2.1 then
          (m.extentRead u entry e).tryOpen
        else m
      | none => m
    | none => m))

/-- HOST_COPY_COMPLETE (spec 14, R448): the header goes last; a pair that no longer takes the image ends the copy. -/
def Mod.hostCopyDone (m : Mod) (u : OwnUpd) (k : Nat) : Mod :=
  if u.read.length ≠ u.extents.length then m
  else if m.pairOk k u.bytes then
    let m := m.writePair k u.bytes 0 (sealHeader u.header)
    let b := { m.bank with lastResult := 1 }
    let b := if k = 0 then { b with hostStep0 := some u.step } else { b with hostStep1 := some u.step }
    (({ m with bank := b }).setHostCopy none).closeUpdate
  else (({ m with bank := { m.bank with lastResult := 8 } }).setHostCopy none).closeUpdate

def execHostCopyComplete (s : State) : Out :=
  .next (s.event (fun m =>
    match m.bank.upd with
    | some u =>
      match u.host with
      | some k => if m.dataPlane then (m.hostCopyDone u k).tryOpen else m
      | none => m
    | none => m))

/-! ### Relight (spec 14, R451, R452) -/

/-- Each set's slot 0 becomes current (spec 12, R399). -/
def Mod.restoreVersions (m : Mod) : Mod :=
  m.restoreRecs.foldl (fun m r =>
    match r.set with
    | some k => { m with step := { m.step with
        versions := SMap.upd Version.zero m.step.versions k (fun v => { v with slot := 0 }) } }
    | none => m) m

/-- Every record of the image matches its data_crc. -/
def Mod.restoredOk (m : Mod) (image : Bytes) : Bool :=
  m.restoreRecs.all (fun r =>
    match (imgDirEntries image).find? r.isFor with
    | some e => crc64 (imgPart image (fieldAt e 8 8) r.rec0.spanBytes) == BitVec.ofNat 64 (fieldAt e 0x18 8)
    | none => false)

/-- The whole image has come and its header and directory pass: records, slots, then the data's check. -/
def Mod.restore (m : Mod) (r : Relight) (image : Bytes) : Mod :=
  let m := m.restoreBytes image
  if m.restoredOk image then m.restoreVersions.relightEnds r Cls.ok Detail.none
  else m.relightEnds r Cls.faulted Detail.bankCrc

/-- The two regions of a host relight hold the image (spec 14, R448). -/
def Mod.hostImageOk (m : Mod) (r : Relight) (bytes : Nat) : Bool :=
  m.regionCovers 0 r.r0 0 (splitAt bytes) false && m.regionCovers 1 r.r1 0 (bytes - splitAt bytes) false

/-- RELIGHT_COMPLETE (spec 14, R452). `data` is the host image, joined by the split of R448, for a HOST relight. -/
def Mod.relightDone (m : Mod) (r : Relight) (data : Bytes) : Mod :=
  let r := if r.source = 1 then { r with image := data, got := data.length } else r
  let bytes := fieldAt r.image 0x20 8
  if r.source = 1 ∧ (!m.hostImageOk r 64 ∨ (64 ≤ data.length ∧ !m.hostImageOk r bytes)) then m.relightEnds r Cls.faulted Detail.hostError
  else if !r.headIn then m
  else match m.relightCheck r r.image with
    | some e => m.relightEnds r e.1 e.2
    | none => if bytes ≤ r.got ∧ bytes ≤ r.image.length then m.restore r r.image else m

def execRelightComplete (data : Bytes) (s : State) : Out :=
  .next (s.event (fun m =>
    match m.bank.relight with
    | some r => if m.dataPlane then m.relightDone r data else m
    | none => m))

/-! ### Serving (spec 14, R451, R455) -/

/-- Replace the first entry of BANK_SERVE of a kind. -/
def Mod.dropServe (m : Mod) (x : Serve) : Mod := { m with bank := { m.bank with serves := m.bank.serves.erase x } }

/-- The grant that a PULL uses. -/
def Bank.grantFor (b : Bank) (source owner : Nat) (step : Word) : Option Serve :=
  b.serves.find? (fun x => !x.active && x.target == source && x.owner == owner && x.step == step)

/-- The bytes of a held image below its first poisoned codeword. -/
def Mod.cleanBytes (m : Mod) (base n : Nat) : Nat :=
  m.hbm.poison.foldl (fun k e => if base ≤ e.1 ∧ e.1 < base + k then e.1 - base else k) n

/-- Stream a held slot to a relighting module in image order. -/
def Mod.streamImage (m : Mod) (dst k : Nat) : Mod :=
  let base := m.heldBase k
  m.sendAll (dataPackets dst 0xFE 0 (m.rdBytes base (m.cleanBytes base (m.bank.held k).imageBytes)))

/-- PULL (spec 14, R449, R451, R455). -/
def Mod.pulled (m : Mod) (source owner : Nat) (step : Word) : Mod :=
  let refuse (m : Mod) (status : AckStatus) : Mod := m.send (.ack source status 0 step.toNat 0)
  let m := if source = partnerWord then m.endSend 7 true else m
  match m.bank.sealedSlot owner step with
  | none => refuse m .notHeld
  | some k =>
    if m.bank.serving then refuse m .busy
    else if source = owner then ({ m with bank := { m.bank with pulled := some (source, k) } }).streamImage source k
    else match m.bank.grantFor source owner step with
      | some x =>
        let serves := updFirst (fun y => decide (y = x)) (fun y => { y with active := true }) m.bank.serves
        ({ m with bank := { m.bank with serves := serves } }).streamImage source k
      | none => refuse m .notGranted

def execPull (source owner step : Nat) (s : State) : Out :=
  .next (s.event (fun m => if m.dataPlane then (m.pulled source owner (BitVec.ofNat 32 step)).tryOpen else m))

/-- Where the image that is being served lies, and its length. -/
def Mod.serveSpan (m : Mod) (x : Serve) : Nat × Nat := (m.servedImage x.owner x.step x.target).getD (0, 0)

/-- A served transfer ends (spec 14, R455): to a host region, the header goes last. -/
def Mod.serveDone (m : Mod) (x : Serve) : Mod :=
  let at_ := m.serveSpan x
  if m.poisoned at_.1 at_.2 then m
  else if x.target = 0xFFFF then
    if m.regionCovers x.ticket.port x.region x.offset at_.2 true ∨ x.ticket.port = 2 then
      let m := m.writeAt x.ticket.port x.region (x.offset + 64) (m.rdBytes (at_.1 + 64) (at_.2 - 64))
      let m := m.writeAt x.ticket.port x.region x.offset (m.rdBytes at_.1 64)
      (m.dropServe x).complete x.ticket Op.bankServe Cls.ok Detail.none []
    else (m.dropServe x).complete x.ticket Op.bankServe Cls.faulted Detail.hostError []
  else (m.dropServe x).complete x.ticket Op.bankServe Cls.ok Detail.none []

/-- BANK_SERVE_COMPLETE (spec 14, R455); a PULL that needed no grant owes no completion. -/
def execBankServeComplete (s : State) : Out :=
  .next (s.event (fun m =>
    if !m.dataPlane then m
    else match m.bank.pulled, m.bank.serves.find? (fun x => x.active) with
      | some p, _ =>
        if m.poisoned (m.heldBase p.2) (m.bank.held p.2).imageBytes then m
        else { m with bank := { m.bank with pulled := none } }
      | none, some x => m.serveDone x
      | none, none => m))

/-- BANK_GRANT_EXPIRY (spec 14, R455). The spec gives the completion of a lapsed grant no class and no detail: both are free
values. -/
def execBankGrantExpiry (s : State) : Out :=
  .next (s.event (fun m =>
    match m.bank.serves.find? (fun x => !x.active) with
    | some x =>
      let c := m.draw
      let d := c.2.draw
      (d.2.dropServe x).complete x.ticket Op.bankServe c.1 d.1 []
    | none => m))

/-- RELIGHT_STALL_TIMEOUT (spec 14, R452; spec 01, R47): 100 ms without progress. -/
def execRelightStallTimeout (s : State) : Out :=
  .next (s.event (fun m =>
    match m.bank.relight, m.bank.pulled, m.bank.serves.find? (fun x => x.active) with
    | some r, _, _ => m.relightEnds r Cls.faulted Detail.bankLost
    | none, some _, _ => { m with bank := { m.bank with pulled := none } }
    | none, none, some x => (m.dropServe x).complete x.ticket Op.bankServe Cls.faulted Detail.bankLost []
    | none, none, none => m))

end Sys2Proof.Machine
end

