-- ==== Sys2Proof/Machine/Keccak.lean ====
section
/-! DEFINITION. SHAKE256 (spec 03, R93; spec 17: "SHAKE256 digest (FIPS 202)"). -/
namespace Sys2Proof

namespace Keccak

/-- Lane (x, y) of a state of 25 lanes. -/
def lane (a : List (BitVec 64)) (x y : Nat) : BitVec 64 := a.getD (x % 5 + 5 * (y % 5)) 0

/-- A state of 25 lanes, given lane by lane. -/
def build (f : Nat → Nat → BitVec 64) : List (BitVec 64) :=
  (List.range 25).map (fun i => f (i % 5) (i / 5))

/-- Rotation amounts of the ρ step, lane x + 5y. -/
def rho : List Nat :=
  [0, 1, 62, 28, 27, 36, 44, 6, 55, 20, 3, 10, 43, 25, 39, 41, 45, 15, 21, 8, 18, 2, 61, 56, 14]

/-- Round constants of the ι step. -/
def rc : List (BitVec 64) :=
  [0x0000000000000001#64, 0x0000000000008082#64, 0x800000000000808A#64, 0x8000000080008000#64,
   0x000000000000808B#64, 0x0000000080000001#64, 0x8000000080008081#64, 0x8000000000008009#64,
   0x000000000000008A#64, 0x0000000000000088#64, 0x0000000080008009#64, 0x000000008000000A#64,
   0x000000008000808B#64, 0x800000000000008B#64, 0x8000000000008089#64, 0x8000000000008003#64,
   0x8000000000008002#64, 0x8000000000000080#64, 0x000000000000800A#64, 0x800000008000000A#64,
   0x8000000080008081#64, 0x8000000000008080#64, 0x0000000080000001#64, 0x8000000080008008#64]

/-- One round of Keccak-f[1600]. -/
def round (a : List (BitVec 64)) (k : BitVec 64) : List (BitVec 64) :=
  let c := (List.range 5).map (fun x => lane a x 0 ^^^ lane a x 1 ^^^ lane a x 2 ^^^ lane a x 3 ^^^ lane a x 4)
  let d := (List.range 5).map (fun x => c.getD ((x + 4) % 5) 0 ^^^ (c.getD ((x + 1) % 5) 0).rotateLeft 1)
  let a1 := build (fun x y => lane a x y ^^^ d.getD x 0)
  let b := build (fun x y =>
    let sx := (x + 3 * y) % 5
    (lane a1 sx x).rotateLeft (rho.getD (sx + 5 * x) 0))
  let a2 := build (fun x y => lane b x y ^^^ (~~~(lane b (x + 1) y) &&& lane b (x + 2) y))
  match a2 with
  | l0 :: r => (l0 ^^^ k) :: r
  | [] => []

/-- Keccak-f[1600]. -/
def perm (a : List (BitVec 64)) : List (BitVec 64) := rc.foldl round a

/-- XOR a block of 136 bytes into the state. -/
def absorb (a : List (BitVec 64)) (blk : Bytes) : List (BitVec 64) :=
  perm (build (fun x y => lane a x y ^^^ BitVec.ofNat 64 (fieldAt blk (8 * (x + 5 * y)) 8)))

/-- Message with SHAKE256's suffix and padding to a multiple of 136 bytes. -/
def pad (m : Bytes) : Bytes :=
  let n := 136 - m.length % 136
  if n = 1 then m ++ [0x9F#8] else m ++ [0x1F#8] ++ zeros (n - 2) ++ [0x80#8]

/-- The bytes of the rate part of a state. -/
def rate (a : List (BitVec 64)) : Bytes := (a.take 17).flatMap (fun l => leBytes 8 l.toNat)

end Keccak

/-- SHAKE256 with an output of n ≤ 136 bytes (FIPS 202). -/
def shake256 (n : Nat) (m : Bytes) : Bytes :=
  (Keccak.rate ((chunks 136 (Keccak.pad m)).foldl Keccak.absorb (List.replicate 25 0))).take n

/-- The 64-byte SHAKE256 digest of spec 17. -/
def digest64 (m : Bytes) : Bytes := shake256 64 m

end Sys2Proof
end

