-- ==== Sys2Proof/Machine/Items.lean ====
section
/-! DEFINITION. Woodpile entries whatever their engine (spec 03, R102 to R105): free resources, claims (R103), bound
entries (spec 09, R300), the end of an attempt, and what follows a mismatch (spec 07, R235, R236; spec 08, R271). -/
namespace Sys2Proof.Machine

/-! ### Resources -/

/-- Units that an entry keeps: those that it runs on, and the failing units until the outcome (spec 07, R235). -/
def Ent.holds (e : Ent) : List Nat :=
  match e.st with
  | .running => e.units
  | .awaiting => e.units
  | .rerun => e.units ++ e.reUnits
  | .recheck => e.units
  | _ => []

/-- Units kept by entries of the open round or under test in a test window (spec 13, R419). -/
def Mod.busyUnits (m : Mod) : List Nat :=
  (m.run.ents.map (fun e => e.2.holds)).flatten
    ++ (m.tests.running.filter (fun t => t.target.kind == .tile || t.target.kind == .sparse)).map (·.target.address)

/-- Grid positions of the gangs of an edge, in the order of R103. -/
def gangs (edge : Nat) : List (List Nat) :=
  if edge = 4 then [List.range 16]
  else if edge = 2 then [0, 2, 8, 10].map (fun o => [o, o + 1, o + 4, o + 5])
  else (List.range 16).map (fun i => [i])

/-- Every resource of an entry's kind on a core, in the order of R103, as unit words; a core's update unit is its core
word. -/
def Mod.resources (m : Mod) (w : WpEntry) (core : Nat) : List (List Nat) :=
  match w.engine with
  | .update => [[coreWord core]]
  | .sparse => ((m.clustersOf core).map (fun k => [[engineWord core k 0], [engineWord core k 1]])).flatten
  | _ => ((m.clustersOf core).map (fun k =>
      (gangs w.gang).map (fun g => g.map (fun i => tileWord core k ((m.gridOf core k).getD i 0))))).flatten

/-- Nothing keeps these units from work. -/
def Mod.unitsFree (m : Mod) (busy : List Nat) (us : List Nat) : Bool :=
  us.all (fun u => !(u ∈ busy) && !(m.unit u).noClaim
    && (unitKind u == 3 || !(m.unit (clusterWord (unitCore u) (unitCluster u))).noClaim))

/-- The first free resource of a core for an entry. -/
def Mod.freeResource (m : Mod) (busy : List Nat) (w : WpEntry) (core : Nat) : Option (List Nat) :=
  if m.withdrawn core then none else (m.resources w core).find? (m.unitsFree busy)

/-! ### Bound entries (spec 09, R299, R300) -/

/-- The binding of an entry of the round, if any: route index and entry. -/
def Plan.bindingOf (p : Plan) (r : RoundHdr) (item : Nat) : Option (Nat × BindEntry) :=
  p.routes.findSome? (fun x => match x with
    | .binding route es =>
      if (p.routesOf r).any (fun e => e.1 == route) then
        (es.find? (fun b => decide (b.firstItem ≤ item) && decide (item < b.firstItem + b.itemCount))).map (fun b => (route, b))
      else none
    | _ => none)

/-- The count that a binding names. -/
def Mod.boundCount (m : Mod) (route expert : Nat) : Nat :=
  let x := SMap.get RouteRun.idle m.run.routes route
  if expert = 0xFF then x.n else x.counts.getD expert 0

/-- m_eff or k_eff of a bound entry; none for an unbound one. The item's m0, k0, m and k lie at their offsets of R220. -/
def Mod.trim (m : Mod) (item : Nat) (w : WpEntry) : Option Nat :=
  match m.plan.plan, m.hdr with
  | some p, some r =>
    (p.bindingOf r item).map (fun b =>
      let it := p.itemBytes w
      let c := m.boundCount b.1 b.2.expert
      if b.2.dimK then min (c - fieldAt it 0x18 4) (fieldAt it 0x28 4) else min (c - fieldAt it 0x10 4) (fieldAt it 0x20 4))
  | _, _ => none

/-! ### Claims (spec 03, R103) -/

/-- The round runs and its work may start and end. -/
def Mod.running (m : Mod) : Bool := m.run.phase == .run && m.run.mark.isNone && m.ctl.state == .running && !m.ctl.refLost

/-- The round's entries with their index. -/
def Mod.entries (m : Mod) : List (Nat × WpEntry) :=
  match m.plan.plan, m.hdr with
  | some p, some r => (p.entriesOf r).zipIdx.map (fun e => (e.2, e.1))
  | _, _ => []

/-- A resource may run a re-execution (spec 07, R235; spec 08, R271): it shares no unit with the failing one. -/
def otherUnits (failing us : List Nat) : Bool := us.all (fun u => !(u ∈ failing))

/-- The first qualifying resource of a re-execution, cores in ascending number. -/
def Mod.reResource (m : Mod) (busy : List Nat) (w : WpEntry) (failing : List Nat) : Option (Nat × List Nat) :=
  (List.range 8).findSome? (fun c =>
    if m.withdrawn c then none
    else ((m.resources w c).find? (fun us => otherUnits failing us && m.unitsFree busy us)).map (fun us => (c, us)))

/-- The lowest pending re-execution whose first qualifying resource lies on this core. -/
def Mod.reClaim (m : Mod) (busy : List Nat) (core : Nat) : Option (Nat × WpEntry × List Nat) :=
  m.entries.findSome? (fun e =>
    let x := m.ent e.1
    if x.st = .awaiting then
      match m.reResource busy e.2 x.units with
      | some (c, us) => if c = core then some (e.1, e.2, us) else none
      | none => none
    else none)

/-- The entry that a sequencer takes: of the 64 lowest eligible entries that its free resources can serve, the lowest with
its affinity bit, else the lowest. -/
def Mod.freshClaim (m : Mod) (busy : List Nat) (core : Nat) : Option (Nat × WpEntry × List Nat) :=
  let can := (m.entries.filterMap (fun e =>
    if (m.ent e.1).st = .free ∧ m.flagMet e.2.waitFlag e.2.waitValue then
      (m.freeResource busy e.2 core).map (fun us => (e.1, e.2, us))
    else none)).take 64
  match can.find? (fun x => bit x.2.1.affinity core) with
  | some x => some x
  | none => can.head?

/-- The re-execution counter of an engine (spec 07, R242; spec 08, R277). -/
def Engine.reexec : Engine → Nat
  | .sparse => Cnt.sparseReexec
  | _ => Cnt.denseReexec

/-- The mismatch counter of an engine. -/
def Engine.mismatch : Engine → Nat
  | .sparse => Cnt.sparseMismatch
  | _ => Cnt.denseMismatch

/-- A claim by a core; re-executions come first. -/
def Mod.claim (m : Mod) (core : Nat) : Mod :=
  if m.running && decide (core < 8) && !m.withdrawn core then
    let busy := m.busyUnits
    match m.reClaim busy core with
    | some (i, w, us) =>
      (m.setEnt i { m.ent i with st := .rerun, reCore := core, reUnits := us, reDigest := none }).tallyEvent w.engine.reexec 1
    | none =>
      match m.freshClaim busy core with
      | some (i, w, us) =>
        m.setEnt i { m.ent i with st := .running, core := core, units := us, eff := m.trim i w, digest := none }
      | none => m
  else m

/-- WOODPILE_CLAIM (spec 03, R103). -/
def execWoodpileClaim (core : Nat) (s : State) : Out := .next (s.event (fun m => m.claim core))

/-! ### The end of an attempt -/

/-- The entry runs: its first attempt or its re-execution. -/
def Ent.active (e : Ent) : Bool := e.st == .running || e.st == .rerun

/-- Increment an entry's done_flag, once in the round attempt (spec 03, R104). -/
def Mod.signalDone (m : Mod) (i : Nat) (w : WpEntry) : Mod :=
  let e := m.ent i
  if e.signalled || w.doneFlag == 0xFFFF then m
  else (m.setEnt i { e with signalled := true }).incFlag w.doneFlag 1

/-- The attempt of an entry ends with a digest of its output; its verdicts are open. -/
def Mod.toChecks (m : Mod) (i : Nat) (digest : Dword) : Mod :=
  let e := m.ent i
  if e.st = .rerun then m.setEnt i { e with st := .recheck, reDigest := some digest }
  else m.setEnt i { e with st := .checking, digest := some digest }

/-- An entry completes with nothing left to check. -/
def Mod.toDone (m : Mod) (i : Nat) : Mod := m.setEnt i { m.ent i with st := .done }

/-- Bytes with damaged ones replaced: (offset, byte). -/
def damaged (d : List (Nat × Byte)) (bs : Bytes) : Bytes := d.foldl (fun bs x => bs.set x.1 x.2) bs

/-- Writes whose bytes, taken together in order, are damaged. -/
def damageWrites (d : List (Nat × Byte)) : Nat → List (Nat × Bytes) → List (Nat × Bytes)
  | _, [] => []
  | o, (a, bs) :: ws =>
    (a, damaged ((d.filter (fun x => decide (o ≤ x.1) && decide (x.1 < o + bs.length))).map (fun x => (x.1 - o, x.2))) bs)
      :: damageWrites d (o + bs.length) ws

/-- The bytes of writes, in order. -/
def writtenBytes (ws : List (Nat × Bytes)) : Bytes := (ws.map (·.2)).flatten

/-! ### Mismatches and outcomes (spec 07, R235, R236; spec 08, R271) -/

/-- Checks of a CHECKSUM record (spec 13, R410): COLUMN, ROW, TWO_COPY. -/
def Failure.check (f : Failure) : Nat := if f.copies then 2 else if f.place.row then 1 else 0

/-- The units that failures charge: the tiles of the gang columns that hold failing columns, or, without a failing column
check, every unit. -/
def charged (edge : Nat) (us : List Nat) (fs : List Failure) : List Nat :=
  let cols := (fs.filter (fun f => f.check == 0)).map (fun f => f.place.pos % (32 * edge) / 32)
  if cols.isEmpty then us
  else (us.zipIdx.filter (fun u => u.2 % edge ∈ cols)).map (·.1)

/-- Engine codes of a CHECKSUM record. -/
def Engine.code : Engine → Nat
  | .dense => 0 | .nm => 1 | .sparse => 2 | .update => 3

/-- The code of a gang (spec 03, R102): 0 one tile, 1 2 × 2, 2 4 × 4. -/
def gangCode (edge : Nat) : Nat := if edge = 4 then 2 else if edge = 2 then 1 else 0

/-- The CHECKSUM record of an outcome: 0 STOOD, 1 DOUSED_CHECK, 2 DOUSED_FENCE. Its fabric time is that of the first failed
comparison (spec 13, R409). -/
def checksumReport (item round : Nat) (w : WpEntry) (e : Ent) (outcome : Nat) : Report :=
  let f := e.failed.headD ⟨true, ⟨false, 0, 0, 0, 0, 0⟩⟩
  { cls := Rec.checksum, attn := Attn.integrity, detail := Detail.checkMismatch, scope := Scope.inBound, since := some e.failedAt,
    payload := leBytes 4 item ++ leBytes 2 round ++ leBytes 2 (e.units.headD 0xFFFF) ++ leBytes 2 (e.reUnits.headD 0xFFFF)
      ++ [BitVec.ofNat 8 (gangCode w.gang), BitVec.ofNat 8 f.check, BitVec.ofNat 8 outcome, BitVec.ofNat 8 w.engine.code]
      ++ leBytes 4 f.place.kBlock ++ leBytes 4 f.place.pos }

/-- Charge strikes for a record. -/
def Mod.strikes (m : Mod) (us : List Nat) (serial : Word) : Mod := us.foldl (fun m u => m.strike u serial) m

/-- The re-execution failed: the round douses with cause CHECK_FAIL; both gangs are charged. -/
def Mod.outcomeFail (m : Mod) (i : Nat) (w : WpEntry) (again : Failure) : Mod :=
  let e := m.ent i
  let (m, s) := m.reportFaultS (checksumReport i m.plan.round w e 1)
  let m := (m.strikes (charged w.gang e.units e.failed) s).strikes (charged w.gang e.reUnits [again]) s
  (m.toDone i).markDouse Douse.checkFail

/-- The re-execution passed: its output stands unless a first attempt that signalled gave other bytes. -/
def Mod.outcomePass (m : Mod) (i : Nat) (w : WpEntry) : Mod :=
  let e := m.ent i
  let differ := w.doneFlag != 0xFFFF && e.signalled && e.digest.isSome && e.digest != e.reDigest
  let (m, s) := m.reportFaultS (checksumReport i m.plan.round w e (if differ then 2 else 0))
  let m := (m.strikes (charged w.gang e.units e.failed) s).toDone i
  if differ then m.markDouse Douse.fence else m

/-- A comparison of an entry fails: the first attempt stops or is held for its re-execution; a failing re-execution
decides the outcome. -/
def Mod.mismatch (m : Mod) (i : Nat) (w : WpEntry) (f : Failure) : Mod :=
  let e := m.ent i
  let hit (m : Mod) : Mod := m.tallyEvent w.engine.mismatch 1
  match e.st with
  | .running => hit (m.setEnt i { e with st := .awaiting, digest := none, failed := [f], failedAt := m.fabricTime })
  | .checking => hit (m.setEnt i { e with st := .awaiting, failed := [f], failedAt := m.fabricTime })
  | .awaiting => hit (m.setEnt i { e with failed := e.failed ++ [f] })
  | .rerun => hit (m.outcomeFail i w f)
  | .recheck => hit (m.outcomeFail i w f)
  | _ => m

/-- Every verdict of an entry has passed. -/
def Mod.verdictsPass (m : Mod) (i : Nat) (w : WpEntry) : Mod :=
  match (m.ent i).st with
  | .checking => m.toDone i
  | .recheck => m.outcomePass i w
  | _ => m

end Sys2Proof.Machine
end

