-- ==== Sys2Proof/Machine/Dense.lean ====
section
/-! DEFINITION. Values of dense products (spec 02, R64 to R75; spec 07, R218 to R232): work items, operands, k-blocks, the
2:4 form, results. -/
namespace Sys2Proof.Machine

/-! ### The work item (spec 07, R220, R221) -/

/-- Operations of op_word. -/
inductive DenseOp where
  | mm | at | bt | acc | nm
  deriving DecidableEq, Repr

/-- A dense work item. For MM_ACC and MM_NM the orientation says whether A or B is stored transposed (R222). -/
structure DenseItem where
  op : DenseOp
  aT : Bool
  bT : Bool
  nmOut : Bool
  reject : Bool
  ld7 : Bool
  aBcast : Bool
  bBcast : Bool
  tiling : Nat
  aRec : Nat
  bRec : Nat
  cRec : Nat
  aMeta : Nat
  cMeta : Nat
  kb : Nat
  m0 : Nat
  n0 : Nat
  k0 : Nat
  outer : Nat
  m : Nat
  n : Nat
  k : Nat
  outFmt : Nat
  deriving DecidableEq, Repr

/-- The operation of a code. -/
def DenseOp.ofCode : Nat → Option DenseOp
  | 0 => some .mm | 1 => some .at | 2 => some .bt | 3 => some .acc | 4 => some .nm | _ => none

/-- The 64 bytes of a dense item; none for an illegal op or orient, a set nm_reject without nm_out, a non-zero reserved
field (spec 07, R221, R227 ITEM_FORMAT). -/
def DenseItem.parse (bs : Bytes) : Option DenseItem :=
  let w := fieldAt bs 0 2
  let orient := bits w 11 10
  match DenseOp.ofCode (bits w 15 12) with
  | none => none
  | some op =>
    let fits := match op with
      | .acc => decide (orient ≤ 2) | .nm => orient == 0 || orient == 2 | _ => orient == 0
    if !fits || (bit w 8 && !bit w 9) || bits w 4 0 ≠ 0 || fieldAt bs 0x30 16 ≠ 0 then none
    else some
      { op := op, aT := op == .at || (op == .acc && orient == 1), bT := op == .bt || (op != .at && orient == 2),
        nmOut := bit w 9, reject := bit w 8, ld7 := bit w 7, aBcast := bit w 6, bBcast := bit w 5,
        tiling := fieldAt bs 0x02 2, aRec := fieldAt bs 0x04 2, bRec := fieldAt bs 0x06 2, cRec := fieldAt bs 0x08 2,
        aMeta := fieldAt bs 0x0A 2, cMeta := fieldAt bs 0x0C 2, kb := fieldAt bs 0x0E 2, m0 := fieldAt bs 0x10 4,
        n0 := fieldAt bs 0x14 4, k0 := fieldAt bs 0x18 4, outer := fieldAt bs 0x1C 4, m := fieldAt bs 0x20 4,
        n := fieldAt bs 0x24 4, k := fieldAt bs 0x28 4, outFmt := fieldAt bs 0x2C 4 }

/-- n rounded up to a multiple of 32. -/
def up32 (n : Nat) : Nat := ceilDiv n 32 * 32

/-- The item as it runs: sizes rounded under ld7_pad (spec 07, R238), trimmed where it is bound (spec 09, R300). -/
def DenseItem.sized (d : DenseItem) (dimK : Bool) (eff : Option Nat) : DenseItem :=
  let d := if d.ld7 then { d with m := up32 d.m, n := up32 d.n, k := up32 d.k } else d
  match eff with
  | some c => if dimK then { d with k := c } else { d with m := c }
  | none => d

/-! ### Elements (spec 07, R223; spec 05, R166) -/

/-- Flattened row of (row, outer slice); beyond every row where the row lies outside extent 1. -/
def Alloc.rowAt (a : Alloc) (outer row : Nat) : Nat := if row < a.ext 1 then row + a.ext 1 * outer else a.rows

/-- The exact value of a stored element in an outer slice, pad_bits outside the extents. -/
def Mod.numRC (m : Mod) (a : Alloc) (outer row col : Nat) : Num := m.value a (a.rowAt outer row) col

/-- The element code in an outer slice. -/
def Mod.codeRC (m : Mod) (a : Alloc) (outer row col : Nat) : Nat := m.code a (a.rowAt outer row) col

/-- The scale byte of its block. -/
def Mod.scaleRC (m : Mod) (a : Alloc) (outer row col : Nat) : Nat := m.scaleByte a (a.rowAt outer row) col

/-! ### Product paths (spec 02, R64) -/

/-- How a pairing sums its products. -/
inductive ProdPath where
  | tree | fixed | fp4 | three
  deriving DecidableEq, Repr

/-- The path of an operand pairing; none for one that R64 does not list. -/
def pathFor (a b : Fmt) : Option ProdPath :=
  match a, b with
  | .bf16, .bf16 => some .tree | .bf16, .fp16 => some .tree | .fp16, .bf16 => some .tree | .fp16, .fp16 => some .tree
  | .fp8e4, .fp8e4 => some .fixed | .fp8e4, .fp8e5 => some .fixed | .fp8e5, .fp8e4 => some .fixed
  | .fp8e5, .fp8e5 => some .fixed
  | .int8, .int8 => some .fixed | .int8, .uint8 => some .fixed | .uint8, .int8 => some .fixed
  | .uint8, .uint8 => some .fixed
  | .fp4b, .fp4b => some .fp4
  | .fp32, .fp32 => some .three
  | _, _ => none

/-- An item with its operand records as the round reads them. -/
structure Prod where
  d : DenseItem
  a : Alloc
  b : Alloc
  md : Option Alloc
  path : ProdPath
  deriving DecidableEq, Repr

/-- The logical k extent. -/
def Prod.kExt (x : Prod) : Nat := if x.d.op = .nm then 2 * x.a.cols else if x.d.aT then x.a.ext 1 else x.a.cols

/-- Outer slices of the operands. -/
def Prod.aOuter (x : Prod) : Nat := if x.d.aBcast then 0 else x.d.outer
def Prod.bOuter (x : Prod) : Nat := if x.d.bBcast then 0 else x.d.outer

/-- Stored (row, column) of A at item row i and logical k position. -/
def Prod.aPlace (x : Prod) (i kk : Nat) : Nat × Nat := if x.d.aT then (kk, x.d.m0 + i) else (x.d.m0 + i, kk)
/-- Stored (row, column) of B at a logical k position and item column j. -/
def Prod.bPlace (x : Prod) (kk j : Nat) : Nat × Nat := if x.d.bT then (x.d.n0 + j, kk) else (kk, x.d.n0 + j)

/-- The two indices of 2:4 group q in a row (spec 07, R228). -/
def Mod.nmIndices (m : Mod) (x : Prod) (i q : Nat) : Nat × Nat :=
  match x.md with
  | some a =>
    let byte := m.codeRC a x.aOuter (x.d.m0 + i) (q / 2)
    (bits byte (4 * (q % 2) + 1) (4 * (q % 2)), bits byte (4 * (q % 2) + 3) (4 * (q % 2) + 2))
  | none => (0, 1)

/-- A's value at item row i and logical position kk; none where the 2:4 form leaves it out (spec 02, R66). -/
def Mod.aNum (m : Mod) (x : Prod) (i kk : Nat) : Option Num :=
  if x.d.op = .nm then
    let ix := m.nmIndices x i (kk / 4)
    if kk % 4 = ix.1 then some (m.numRC x.a x.aOuter (x.d.m0 + i) (kk / 4 * 2))
    else if kk % 4 = ix.2 then some (m.numRC x.a x.aOuter (x.d.m0 + i) (kk / 4 * 2 + 1))
    else none
  else some (m.numRC x.a x.aOuter (x.aPlace i kk).1 (x.aPlace i kk).2)

def Mod.bNum (m : Mod) (x : Prod) (kk j : Nat) : Num := m.numRC x.b x.bOuter (x.bPlace kk j).1 (x.bPlace kk j).2

/-- Both operands of item position t; none for an exact +0 product (spec 02, R66). -/
def Mod.pairAt (m : Mod) (x : Prod) (i j t : Nat) : Option (Num × Num) :=
  if x.d.k0 + t < x.kExt then (m.aNum x i (x.d.k0 + t)).map (fun a => (a, m.bNum x (x.d.k0 + t) j)) else none

/-! ### k-blocks (spec 02, R65) -/

/-- Number of k-blocks, and the item positions of one. -/
def Prod.blocks (x : Prod) : Nat := ceilDiv x.d.k x.d.kb
def Prod.positions (x : Prod) (b : Nat) : List Nat :=
  (List.range (min x.d.kb (x.d.k - b * x.d.kb))).map (fun t => b * x.d.kb + t)

/-- A BF16 or FP16 product, rounded to FP32 (spec 02, R72). -/
def treeTerm (p : Option (Num × Num)) : F32 :=
  match p with
  | some (a, b) => F32.ofNum (F32.mulNum a b)
  | none => F32.zero

/-- The split of R74: the high half, and the rounded rest. -/
def splitHi (v : F32) : F32 := if F32.isFinite v then v &&& 0xFFFF0000#32 else v
def splitLo (v : F32) : F32 :=
  if F32.isFinite v then widen .bf16 (Fmt.encode .bf16 .rne false (F32.num (F32.sub v (splitHi v)))).1 else F32.zero

/-- The operands of a pass of R75: 0 for P1, 1 for P2, 2 for P3. -/
def passPair (pass : Nat) (a b : F32) : F32 × F32 :=
  if pass = 0 then (splitHi a, splitLo b) else if pass = 1 then (splitLo a, splitHi b) else (splitHi a, splitHi b)

/-- A product of a pass: +0 for a non-finite high part against a zero low part in P1 and P2 (spec 02, R75). -/
def passTerm (pass : Nat) (p : Option (Num × Num)) : F32 :=
  match p with
  | some (a, b) =>
    let u := passPair pass (F32.ofNum a) (F32.ofNum b)
    let special := (pass == 0 && !F32.isFinite u.1 && F32.isZero u.2) || (pass == 1 && !F32.isFinite u.2 && F32.isZero u.1)
    if special then F32.zero else F32.mul u.1 u.2
  | none => F32.zero

/-- An exact sum in units of 2^-32, with the flags of R69. -/
structure Exact where
  sum : Int
  nan : Bool
  pos : Bool
  neg : Bool
  deriving DecidableEq, Repr

def Exact.zero : Exact := ⟨0, false, false, false⟩

def Exact.add (x : Exact) (p : Num) : Exact :=
  match p with
  | .nan => { x with nan := true }
  | .inf n => if n then { x with neg := true } else { x with pos := true }
  | .fin n v e =>
    let u : Int := ((v * 2 ^ (e + 32).toNat : Nat) : Int)
    { x with sum := x.sum + (if n then -u else u) }

def Exact.flagged (x : Exact) : Bool := x.nan || x.pos || x.neg

/-- The exact value times a scale 2^s. -/
def Exact.num (x : Exact) (s : Int) : Num := .fin (decide (x.sum < 0)) x.sum.natAbs (s - 32)

/-- Accumulate products exactly (spec 02, R68, R69). -/
def exactSum (ps : List (Option (Num × Num))) : Exact :=
  ps.foldl (fun acc p => match p with | some (a, b) => acc.add (F32.mulNum a b) | none => acc) Exact.zero

/-- The partial of R69 and R70 with the scale product s_ab. -/
def Exact.partial8 (x : Exact) (sab : F32) : F32 :=
  if x.nan || (x.pos && x.neg) then F32.nan
  else if x.pos then F32.ofNum (.inf false)
  else if x.neg then F32.ofNum (.inf true)
  else if x.sum = 0 then F32.zero
  else F32.ofNum (F32.mulNum (x.num 0) (F32.num sab))

/-- The block value of R71 for the scale bytes of the two blocks. -/
def fp4Block (x : Exact) (sA sB : Nat) : F32 :=
  if sA = 0xFF ∨ sB = 0xFF then F32.nan
  else if x.sum = 0 then F32.zero
  else F32.ofNum (x.num (((sA + sB : Nat) : Int) - 254))

/-- The exact block sum of positions ts for an FP4B pair: codes without their scales. -/
def Mod.fp4Pairs (m : Mod) (x : Prod) (i j : Nat) (ts : List Nat) : List (Option (Num × Num)) :=
  ts.map (fun t =>
    let kk := x.d.k0 + t
    if kk < x.kExt then
      some (Fmt.decode .fp4b (m.codeRC x.a x.aOuter (x.aPlace i kk).1 (x.aPlace i kk).2),
        Fmt.decode .fp4b (m.codeRC x.b x.bOuter (x.bPlace kk j).1 (x.bPlace kk j).2))
    else none)

/-- The FP32 partial of pass `pass` of k-block b. -/
def Mod.passBlock (m : Mod) (x : Prod) (pass i j b : Nat) : F32 :=
  F32.chunkSum ((x.positions b).map (fun t => passTerm pass (m.pairAt x i j t)))

/-- The FP32 partial of k-block b for output (i, j) (spec 02, R70, R71, R73, R75). -/
def Mod.kBlock (m : Mod) (x : Prod) (i j b : Nat) : F32 :=
  match x.path with
  | .tree => F32.chunkSum ((x.positions b).map (fun t => treeTerm (m.pairAt x i j t)))
  | .fixed =>
    (exactSum ((x.positions b).map (m.pairAt x i j))).partial8 (F32.mul x.a.scale x.b.scale)
  | .fp4 =>
    F32.chain ((chunks 32 (x.positions b)).map (fun ts =>
      let kk := x.d.k0 + ts.headD 0
      fp4Block (exactSum (m.fp4Pairs x i j ts)) (m.scaleRC x.a x.aOuter (x.aPlace i kk).1 (x.aPlace i kk).2)
        (m.scaleRC x.b x.bOuter (x.bPlace kk j).1 (x.bPlace kk j).2)))
  | .three => F32.add (m.passBlock x 2 i j b) (F32.add (m.passBlock x 0 i j b) (m.passBlock x 1 i j b))

/-- The FP32 result of output (i, j): the partials in ascending order, after c_old under MM_ACC (spec 02, R65). -/
def Mod.product (m : Mod) (x : Prod) (cOld : Option F32) (i j : Nat) : F32 :=
  let bs := (List.range x.blocks).map (m.kBlock x i j)
  match cOld with
  | some c => bs.foldl F32.add c
  | none => F32.chain bs

/-! ### Order of work (spec 07, R218) -/

/-- Rows of a row group. -/
def Plan.rowGroup (p : Plan) (tiling : Nat) : Nat :=
  if tiling = 0xFFFF then 128
  else match (p.tiling tiling).bind (fun t => t.levels[3]?) with
    | some l => min 128 l.tileM
    | none => 128

/-- An item with what its order of work depends on. -/
structure Job where
  x : Prod
  group : Nat
  edge : Nat
  deriving DecidableEq, Repr

def Job.rowGroups (j : Job) : List (List Nat) := chunks j.group (List.range j.x.d.m)
def Job.nBlocks (j : Job) : List (List Nat) := chunks (32 * j.edge) (List.range j.x.d.n)

/-- (row group, n-block) in order. -/
def Job.cells (j : Job) : List (List Nat × List Nat) :=
  (j.rowGroups.map (fun r => j.nBlocks.map (fun c => (r, c)))).flatten

/-! ### The 2:4 output form (spec 07, R228, R231) -/

/-- A converted value's magnitude for comparison: NaN above every number. -/
def nmMagnitude (w : FmtWord) (code : Nat) : Nat :=
  match w.fmt with
  | .int8 => (intValue w code).natAbs
  | .uint8 => (intValue w code).natAbs
  | f => match f.decode code with
    | .nan => 2 ^ f.width
    | _ => code % 2 ^ (f.width - 1)

/-- Position of the largest of a list of magnitudes among those that `free` allows, ties to the lower. -/
def topPos (ms : List Nat) (free : Nat → Bool) : Nat :=
  ((List.range ms.length).filter free).foldl (fun best i =>
    if !free best ∨ ms.getD best 0 < ms.getD i 0 then i else best) (if free 0 then 0 else 1)

/-- The two kept positions of a group of four, ascending. -/
def nmKept (ms : List Nat) : Nat × Nat :=
  let p := topPos ms (fun _ => true)
  let q := topPos ms (fun i => i != p)
  (min p q, max p q)

/-- A group of four with three or four non-zero values. -/
def nmOverfull (ms : List Nat) : Bool := decide (3 ≤ (ms.filter (fun v => v != 0)).length)

/-! ### Where results go -/

/-- The destination of an item: a part slot (address, cols), C, or C in 2:4 form with its metadata. -/
inductive Dest where
  | slot (base cols : Nat)
  | plain (c : Alloc)
  | pruned (c md : Alloc)
  deriving DecidableEq, Repr

/-- The tensor id of a destination; 0 for a part slot. -/
def Dest.tensorId : Dest → Nat
  | .slot _ _ => 0
  | .plain c => c.tensorId
  | .pruned c _ => c.tensorId

/-- FP32 values in the bytes of a part slot. -/
def f32Bytes (xs : List F32) : Bytes := (xs.map (fun v => leBytes 4 v.toNat)).flatten

/-- Element (row, col) of C in the numbering of R219. -/
def outIndex (c : Alloc) (d : DenseItem) (i j : Nat) : Nat := (d.outer * c.ext 1 + d.m0 + i) * c.cols + d.n0 + j

/-- Converted values of a row from column j on. -/
def convertRow (c : Alloc) (w : FmtWord) (key : SrKey) (idx : Nat) (xs : List F32) : List Converted :=
  xs.zipIdx.map (fun e => convert w (key.by w (idx + e.2)) c.invScale e.1)

/-- The groups of four of a row that lie inside the logical N of a 2:4 output (spec 07, R231). -/
def nmGroups (c : Alloc) (w : FmtWord) (key : SrKey) (d : DenseItem) (i j : Nat) (xs : List F32) : List (List Converted) :=
  if d.m0 + i < c.ext 1 then chunks 4 ((convertRow c w key (outIndex c d i j) xs).take (2 * c.cols - (d.n0 + j))) else []

def groupMags (w : FmtWord) (g : List Converted) : List Nat := g.map (fun v => nmMagnitude w v.code)

/-- A row segment in 2:4 form: its values, then its metadata bytes. -/
def storePruned (c md : Alloc) (w : FmtWord) (key : SrKey) (d : DenseItem) (i j : Nat) (xs : List F32) : Stored :=
  let q := c.rowAt d.outer (d.m0 + i)
  let gs := (nmGroups c w key d i j xs).map (fun g => (g, nmKept (groupMags w g)))
  let g0 := (d.n0 + j) / 4
  let kept := (gs.map (fun g => [g.1[g.2.1]?, g.1[g.2.2]?].filterMap id)).flatten
  let vals := kept.zipIdx.map (fun e => (c.addr q (2 * g0 + e.2), leBytes (w.fmt.width / 8) e.1.code))
  let nibs := gs.map (fun g => g.2.1 + 4 * g.2.2)
  let meta8 := (packNibbles nibs).zipIdx.map (fun e => (md.addr q (g0 / 2 + e.2), [e.1]))
  ⟨vals ++ meta8, (kept.filter (·.nonfinite)).length, (kept.filter (·.saturated)).length⟩

/-- Store a row segment of an item from column j on (spec 07, R219, R225, R231). -/
def Dest.storeSeg (dst : Dest) (w : FmtWord) (key : SrKey) (d : DenseItem) (i j : Nat) (xs : List F32) : Stored :=
  match dst with
  | .slot base cols =>
    ⟨[(base + (i * cols + j) * 4, f32Bytes xs)], (xs.filter (fun v => !F32.isFinite v)).length, 0⟩
  | .plain c =>
    if d.m0 + i < c.ext 1 then storeRow c w key (c.rowAt d.outer (d.m0 + i)) (d.n0 + j) (outIndex c d i j) xs
    else Stored.none
  | .pruned c md => storePruned c md w key d i j xs

/-- What an attempt writes, in the order of R218, for the values that `v` gives. -/
def Job.drain (jb : Job) (dst : Dest) (w : FmtWord) (key : SrKey) (v : Nat → Nat → F32) : Stored :=
  Stored.all ((jb.cells.map (fun c => c.1.map (fun i => dst.storeSeg w key jb.x.d i (c.2.headD 0) (c.2.map (v i))))).flatten)

/-! ### Faults of the 2:4 form (spec 07, R230, R231) -/

/-- The first faulty metadata group of a row group: k-pass, row, group. -/
def Mod.metaFault (m : Mod) (jb : Job) (rows : List Nat) : Option (Nat × Nat) :=
  let d := jb.x.d
  if d.op ≠ .nm then none
  else
    let ks := (List.range (ceilDiv d.k 4)).filter (fun g => decide (d.k0 + 4 * g < jb.x.kExt))
    (chunks (16 * jb.edge) ks).findSome? (fun pass => rows.findSome? (fun i => pass.findSome? (fun g =>
      let ix := m.nmIndices jb.x i (d.k0 / 4 + g)
      if ix.2 ≤ ix.1 then some (i, d.k0 / 4 + g) else none)))

/-- The first overfull group of a row group's n-blocks: row, group. -/
def Job.firstOverfull (jb : Job) (dst : Dest) (w : FmtWord) (key : SrKey) (v : Nat → Nat → F32) (rows : List Nat) :
    Option (Nat × Nat) :=
  match dst with
  | .pruned c _ =>
    let d := jb.x.d
    jb.nBlocks.findSome? (fun js => rows.findSome? (fun i =>
      ((nmGroups c w key d i (js.headD 0) (js.map (v i))).zipIdx.find? (fun g => nmOverfull (groupMags w g.1))).map
        (fun g => (i, (d.n0 + js.headD 0) / 4 + g.2))))
  | _ => none

/-- The fault that ends an item, with its row and group: the first faulty metadata group, or under REJECT the first
overfull group. -/
def Mod.nmFault (m : Mod) (jb : Job) (dst : Dest) (w : FmtWord) (key : SrKey) (v : Nat → Nat → F32) : Option (Nat × Nat) :=
  jb.rowGroups.findSome? (fun rows =>
    match m.metaFault jb rows with
    | some f => some f
    | none => if jb.x.d.reject then jb.firstOverfull dst w key v rows else none)

/-- Overfull groups that PRUNE drops values of. -/
def Job.prunedGroups (jb : Job) (dst : Dest) (w : FmtWord) (key : SrKey) (v : Nat → Nat → F32) : Nat :=
  match dst with
  | .pruned c _ =>
    (jb.cells.map (fun x => (x.1.map (fun i =>
      ((nmGroups c w key jb.x.d i (x.2.headD 0) (x.2.map (v i))).filter (fun g => nmOverfull (groupMags w g))).length)).sum)).sum
  | _ => 0

end Sys2Proof.Machine
end

