-- ==== Sys2Proof/Machine/DenseChecks.lean ====
section
/-! DEFINITION. The checks of a dense item (spec 02, R83 to R87; spec 07, R233 to R236): the bound of R85, comparisons that
are not made, verdicts; the end of a dense item (spec 07, R219, R230). -/
namespace Sys2Proof.Machine

/-! ### Rounding toward +∞ -/

/-- Exact comparison of two non-negative finite values: a < b. -/
def finLt (m1 : Nat) (e1 : Int) (m2 : Nat) (e2 : Int) : Bool :=
  match F32.addFin false m1 e1 true m2 e2 with
  | .fin n m _ => n && m != 0
  | _ => false

/-- A non-negative exact value rounded up to FP32 (spec 02, R85). -/
def roundUp : Num → F32
  | .fin _ m e =>
    let mag := Fmt.roundMag .fp32 .rne m e
    let mag := match Fmt.decode .fp32 mag with
      | .fin _ m2 e2 => if finLt m2 e2 m e then mag + 1 else mag
      | _ => mag
    BitVec.ofNat 32 (min mag 0x7F800000)
  | v => F32.ofNum v

/-- Magnitude of a value. -/
def absNum : Num → Num
  | .nan => .nan
  | .inf _ => .inf false
  | .fin _ m e => .fin false m e

/-- Exact sum of values. -/
def sumNum (l : List Num) : Num := l.foldl F32.addNum (.fin false 0 0)

/-- tau of R85 for G, the k-block length and the other two sizes. -/
def tauOf (g : F32) (kb own other : Nat) : F32 :=
  roundUp (F32.addNum (F32.mulNum (.fin false (2 * kb + own + 16) (-24)) (F32.num g)) (.fin false (kb + own + other) (-149)))

/-- |drain - check| > tau; no comparison with a NaN or an infinity. -/
def beyond (drain check tau : F32) : Bool :=
  if F32.isFinite drain && F32.isFinite check then
    match F32.addNum (F32.num drain) (F32.num (F32.neg check)), F32.num tau with
    | .fin _ m1 e1, .fin _ m2 e2 => finLt m2 e2 m1 e1
    | _, _ => false
  else false

/-! ### Operands of the checks (spec 02, R85) -/

/-- Passes that are checked apart. -/
def Prod.passes (x : Prod) : List Nat := if x.path = .three then [0, 1, 2] else [0]

/-- A's and B's element in a pass, as FP32; +0 for a product that R66 leaves out. -/
def Mod.opA (m : Mod) (x : Prod) (pass i t : Nat) : F32 :=
  if x.d.k0 + t < x.kExt then
    match m.aNum x i (x.d.k0 + t) with
    | some v => if x.path = .three then (passPair pass (F32.ofNum v) F32.zero).1 else F32.ofNum v
    | none => F32.zero
  else F32.zero

def Mod.opB (m : Mod) (x : Prod) (pass t j : Nat) : F32 :=
  if x.d.k0 + t < x.kExt then
    let v := F32.ofNum (m.bNum x (x.d.k0 + t) j)
    if x.path = .three then (passPair pass F32.zero v).2 else v
  else F32.zero

/-- The FP32 partial that a pass's check sums. -/
def Mod.passPartial (m : Mod) (x : Prod) (pass i j b : Nat) : F32 :=
  if x.path = .three then m.passBlock x pass i j b else m.kBlock x i j b

/-- G of R85 for a column or row of a comparison unit: exact, rounded up. -/
def Mod.checkG (m : Mod) (x : Prod) (row : Bool) (pass b : Nat) (rows cols : List Nat) (pos : Nat) : F32 :=
  roundUp (sumNum ((x.positions b).map (fun t =>
    let mag (v : F32) := absNum (F32.num v)
    if row then F32.mulNum (mag (m.opA x pass pos t)) (sumNum (cols.map (fun j => mag (m.opB x pass t j))))
    else F32.mulNum (sumNum (rows.map (fun i => mag (m.opA x pass i t)))) (mag (m.opB x pass t pos)))))

/-- The rows and columns of the unit of comparison at a place (spec 07, R233). -/
def Job.unitAt (jb : Job) (c : CheckPlace) : List Nat × List Nat :=
  ((jb.rowGroups[c.rowGroup]?).getD [], (jb.nBlocks[c.nBlock]?).getD [])

/-- The tolerance at a place. -/
def Mod.tauAt (m : Mod) (jb : Job) (c : CheckPlace) : F32 :=
  let u := jb.unitAt c
  let g := m.checkG jb.x c.row c.pass c.kBlock u.1 u.2 c.pos
  if c.row then tauOf g jb.x.d.kb u.2.length u.1.length else tauOf g jb.x.d.kb u.1.length u.2.length

/-! ### Comparisons that are not made (spec 02, R83, R85, R87) -/

/-- An output of a k-block holds a NaN or infinity flag. -/
def Mod.flaggedAt (m : Mod) (x : Prod) (i j b : Nat) : Bool :=
  (exactSum ((x.positions b).map (m.pairAt x i j))).flagged

/-- Drain and check side of a bounded comparison in FP32, by ascending index. -/
def Mod.bothSides (m : Mod) (x : Prod) (row : Bool) (pass b : Nat) (rows cols : List Nat) (pos : Nat) : F32 × F32 :=
  if row then
    (F32.chain (cols.map (fun j => m.passPartial x pass pos j b)),
     F32.chain ((x.positions b).map (fun t =>
       F32.mul (m.opA x pass pos t) (F32.chain (cols.map (fun j => m.opB x pass t j))))))
  else
    (F32.chain (rows.map (fun i => m.passPartial x pass i pos b)),
     F32.chain ((x.positions b).map (fun t =>
       F32.mul (F32.chain (rows.map (fun i => m.opA x pass i t))) (m.opB x pass t pos))))

/-- The row or column at a place is not compared. -/
def Mod.skipped (m : Mod) (x : Prod) (row : Bool) (pass b : Nat) (rows cols : List Nat) (pos : Nat) : Bool :=
  match x.path with
  | .fixed => if row then cols.any (fun j => m.flaggedAt x pos j b) else rows.any (fun i => m.flaggedAt x i pos b)
  | .fp4 => false
  | _ =>
    let s := m.bothSides x row pass b rows cols pos
    !(F32.isFinite s.1 && F32.isFinite s.2)

/-- Rows (true) and columns (false) of an item that are not compared, in order. -/
def Mod.uncompared (m : Mod) (jb : Job) : List (Bool × Nat) :=
  (jb.cells.map (fun c => ((List.range jb.x.blocks).map (fun b => (jb.x.passes.map (fun pass =>
    (c.1.filter (fun i => m.skipped jb.x true pass b c.1 c.2 i)).map (fun i => (true, i))
    ++ (c.2.filter (fun j => m.skipped jb.x false pass b c.1 c.2 j)).map (fun j => (false, j)))).flatten)).flatten)).flatten

/-! ### A dense entry of the round -/

/-- The destination of an entry's item (spec 07, R219, R225, R231). -/
def Mod.destOf (m : Mod) (w : WpEntry) (d : DenseItem) : Option Dest :=
  match m.plan.plan, m.hdr with
  | some p, some r =>
    if w.combineGroup = 0xFFFF then
      match p.alloc d.cRec with
      | some c => if d.nmOut then (p.alloc d.cMeta).map (fun md => Dest.pruned c md) else some (.plain c)
      | none => none
    else ((p.groupsOf r)[w.combineGroup]?).map (fun g => Dest.slot (g.partBase + w.kPart * g.partStride) g.cols)
  | _, _ => none

/-- Whether a bound entry's binding trims k. -/
def Mod.trimsK (m : Mod) (i : Nat) : Bool :=
  match m.plan.plan, m.hdr with
  | some p, some r => match p.bindingOf r i with | some b => b.2.dimK | none => false
  | _, _ => false

/-- The job of entry i. -/
def Mod.jobOf (m : Mod) (i : Nat) (w : WpEntry) : Option Job :=
  match m.plan.plan with
  | none => none
  | some p =>
    match DenseItem.parse (p.itemBytes w) with
    | none => none
    | some d =>
      let d := d.sized (m.trimsK i) (m.ent i).eff
      match m.operand d.aRec, m.operand d.bRec with
      | some a, some b =>
        (pathFor a.fw.fmt b.fw.fmt).map (fun path => ⟨⟨d, a, b, m.operand d.aMeta, path⟩, p.rowGroup d.tiling, w.gang⟩)
      | _, _ => none

/-- c_old under MM_ACC (spec 07, R224): memory holds the settled value, because the write is deferred. -/
def Mod.cOld (m : Mod) (dst : Dest) (d : DenseItem) (i j : Nat) : Option F32 :=
  match d.op, dst with
  | .acc, .plain c => some (F32.ofNum (m.numRC c d.outer (d.m0 + i) (d.n0 + j)))
  | _, _ => none

/-- The value of output (i, j). -/
def Mod.outValue (m : Mod) (jb : Job) (dst : Dest) (i j : Nat) : F32 := m.product jb.x (m.cOld dst jb.x.d i j) i j

/-- Write an attempt's output and count it (spec 02, R81); the writes are those of the drain, damaged. -/
def Mod.writeOut (m : Mod) (s : Stored) (damage : List (Nat × Byte)) : Mod × Dword :=
  let ws := damageWrites damage 0 s.writes
  ((m.roundWrites (mergeRuns ws)).tallyR81 s.nonfinite s.saturated, crc64 (writtenBytes ws))

/-- The attempt of a dense entry ends (spec 07, R219, R230, R232): the output, the done_flag; an item that a group of the
2:4 form stops writes the invalid fill and ends without checks. -/
def Mod.denseEnds (m : Mod) (i : Nat) (w : WpEntry) (jb : Job) (dst : Dest) (damage : List (Nat × Byte)) : Mod :=
  let d := jb.x.d
  let fw := (FmtWord.parse d.outFmt).getD FmtWord.plain
  let key := m.srKey dst.tensorId
  let v := m.outValue jb dst
  match m.nmFault jb dst fw key v with
  | some (row, group) =>
    let (m, _) := m.writeOut (jb.drain dst fw key (fun _ _ => F32.nan)) damage
    let m := (m.tally Cnt.nmMetaFault 1).condition
      ⟨Detail.nmMetaFault, i, ((m.ent i).units.headD 0xFFFF), d.m * d.n, d.m0 + row, group⟩
    (m.signalDone i w).toDone i
  | none =>
    let m := m.tally Cnt.nmPruned (jb.prunedGroups dst fw key v)
    let (m, digest) := m.writeOut (jb.drain dst fw key v) damage
    let m := m.signalDone i w
    if d.m = 0 then m.toDone i else m.toChecks i digest

/-- DENSE_ITEM_COMPLETE (spec 07, R219). -/
def Mod.denseComplete (m : Mod) (i : Nat) (damage : List (Nat × Byte)) : Mod :=
  match m.wpEntry i with
  | none => m
  | some w =>
    if m.running && (m.ent i).active && (w.engine == .dense || w.engine == .nm) then
      match m.jobOf i w with
      | none => m
      | some jb => match m.destOf w jb.x.d with
        | none => m
        | some dst => m.denseEnds i w jb dst damage
    else m

def execDenseItemComplete (item : Nat) (damage : List (Nat × Byte)) (s : State) : Out :=
  .next (s.event (fun m => m.denseComplete item damage))

/-! ### Verdicts (spec 07, R235) -/

/-- A comparison that fails: unequal exact sums, sums further apart than tau, unequal copies; a row or column that is
not compared fails nothing. -/
def Mod.fails (m : Mod) (jb : Job) (c : CheckPlace) : Seen → Bool
  | .pass => false
  | .exact d k => d != k && !m.skipped jb.x c.row c.pass c.kBlock (jb.unitAt c).1 (jb.unitAt c).2 c.pos
  | .bounded d k => beyond d k (m.tauAt jb c)
  | .copies a b => a != b

/-- The condition of an item with rows or columns left uncompared (spec 02, R87). -/
def Mod.uncomparedCond (m : Mod) (i : Nat) (jb : Job) : Mod :=
  match m.uncompared jb with
  | [] => m
  | l =>
    let at0 (row : Bool) := ((l.find? (fun x => x.1 == row)).map (·.2)).getD 0
    m.condition ⟨Detail.uncompared, i, ((m.ent i).units.headD 0xFFFF), l.length, at0 true, at0 false⟩

/-- CHECKSUM_VERDICT (spec 07, R235): `pass` says that every comparison of the attempt has passed. -/
def Mod.denseVerdict (m : Mod) (i : Nat) (c : CheckPlace) (seen : Seen) : Mod :=
  match m.wpEntry i with
  | none => m
  | some w =>
    if m.running && (w.engine == .dense || w.engine == .nm) then
      match m.jobOf i w with
      | none => m
      | some jb =>
        if seen = .pass then
          if (m.ent i).st = .checking ∨ (m.ent i).st = .recheck then (m.uncomparedCond i jb).verdictsPass i w else m
        else if m.fails jb c seen then
          m.mismatch i w ⟨(match seen with | .copies _ _ => true | _ => false), c⟩
        else m
    else m

def execChecksumVerdict (item : Nat) (place : CheckPlace) (seen : Seen) (s : State) : Out :=
  .next (s.event (fun m => m.denseVerdict item place seen))

/-! ### The combine of a group (spec 03, R108, R109) -/

/-- A group's partials of element (r, c) in k_part order. -/
def Mod.parts (m : Mod) (g : Combine) (r c : Nat) : List F32 :=
  (List.range g.parts).map (fun k => BitVec.ofNat 32 (m.rdNat (g.partBase + k * g.partStride + (r * g.cols + c) * 4) 4))

/-- What a combine writes (spec 03, R109). -/
def Mod.combined (m : Mod) (g : Combine) (a : Alloc) : Stored :=
  let w := (FmtWord.parse g.outFmt).getD FmtWord.plain
  let q0 := g.firstIndex / g.logicalRowLen
  let c0 := g.firstIndex % g.logicalRowLen
  let row (r : Nat) := (List.range g.cols).map (fun c =>
    let t := F32.tree 6 (m.parts g r c)
    if g.acc then F32.add (m.f32At a (q0 + r) (c0 + c)) t else t)
  Stored.all ((List.range g.rows).map (fun r =>
    storeRow a w (m.srKey g.tensorId) (q0 + r) c0 (g.firstIndex + r * g.logicalRowLen) (row r)))

/-- Every member of a group has its verdicts, and all of them passed (spec 07, R234). -/
def Mod.groupReady (m : Mod) (g : Nat) : Bool :=
  m.entries.all (fun e => e.2.combineGroup != g || (m.ent e.1).st == .done)

/-- COMBINE_RUN (spec 03, R109): the two copies agree and the block is written; a first disagreement is a checksum mismatch
after which the combine runs again, a second one fails the attempt (assumption log 17). -/
def Mod.runCombine (m : Mod) (g : Nat) (seen : Seen) : Mod :=
  match m.plan.plan, m.hdr with
  | some p, some r =>
    match (p.groupsOf r)[g]? with
    | none => m
    | some c =>
      match p.allocById c.tensorId with
      | none => m
      | some (_, a) =>
        if !m.running || g ∈ m.run.groups || !m.groupReady g then m
        else
          let again := decide (g ∈ m.run.combineFailed)
          let m := if again then m.tallyEvent Cnt.denseReexec 1 else m
          let differ := match seen with | .copies x y => x != y | .exact x y => x != y | _ => false
          if differ then
            let m := m.tallyEvent Cnt.denseMismatch 1
            if again then m.markDouse Douse.checkFail
            else { m with run := { m.run with combineFailed := g :: m.run.combineFailed } }
          else
            let m := m.store (m.combined c a)
            { m with run := { m.run with groups := g :: m.run.groups } }
  | _, _ => m

def execCombineRun (group : Nat) (seen : Seen) (s : State) : Out := .next (s.event (fun m => m.runCombine group seen))

end Sys2Proof.Machine
end

