-- ==== Sys2Proof/Machine/Sparse.lean ====
section
/-! DEFINITION. Sparse items (spec 08, R245 to R270): the RLZ format, the four operations, the hash accumulator, heavy and
deferred rows, segments and their row combine, with the writes and counts that an item makes. -/
namespace Sys2Proof.Machine

/-! ### The work items (spec 08, R259 to R262) -/

inductive SpOp where
  | spmm | spgemm | sddmm | spdot
  deriving DecidableEq, Repr

structure SpItem where
  op : SpOp
  aFmt : Fmt
  bFmt : Fmt
  maskFmt : Fmt
  aRec : Nat
  bRec : Nat
  cRec : Nat
  maskRec : Nat
  segRec : Nat
  partRec : Nat
  rows : Nat
  m0 : Nat
  m : Nat
  n0 : Nat
  n : Nat
  k : Nat
  outFmt : Nat
  budget : Nat
  segBase : Nat
  segCap : Nat
  heavy : Nat
  spillCap : Nat
  bRowCap : Nat
  cRowSlot : Nat
  deriving DecidableEq, Repr

/-- A record of WORK_ITEMS under a SPARSE entry: an item, or a SEGMENT item (poster_ref, slot). -/
inductive SpRec where
  | item (x : SpItem)
  | segment (poster slot : Nat)
  deriving DecidableEq, Repr

def SpOp.ofCode : Nat → Option SpOp
  | 0 => some .spmm | 1 => some .spgemm | 2 => some .sddmm | 3 => some .spdot | _ => none

/-- Value formats of sparse operands (spec 08, R251, R261). -/
def spFmt (n : Nat) : Option Fmt := if n ≤ 4 then Fmt.ofCode n else none

/-- Driving elements that make a row heavy (spec 08, R264). -/
def SpItem.t (x : SpItem) : Nat := if x.heavy = 0 then 4096 else x.heavy

/-- The 64 bytes of a sparse item; none for what R275 calls SP_FORMAT by the item alone. -/
def SpRec.parse (bs : Bytes) : Option SpRec :=
  let w := fieldAt bs 0 2
  let v := fieldAt bs 2 2
  if bits w 11 0 ≠ 0 then none
  else if bits w 15 12 = 4 then
    if fieldAt bs 2 6 = 0 ∧ fieldAt bs 0x14 44 = 0 then some (.segment (fieldAt bs 8 8) (fieldAt bs 0x10 4)) else none
  else
    match SpOp.ofCode (bits w 15 12), spFmt (bits v 15 12), spFmt (bits v 11 8), spFmt (bits v 7 4) with
    | some op, some af, some bf, some mf =>
      if bits v 3 0 ≠ 0 ∨ fieldAt bs 0x3E 2 ≠ 0 then none
      else some (.item
        { op := op, aFmt := af, bFmt := bf, maskFmt := mf, aRec := fieldAt bs 4 2, bRec := fieldAt bs 6 2,
          cRec := fieldAt bs 8 2, maskRec := fieldAt bs 0x0A 2, segRec := fieldAt bs 0x0C 2, partRec := fieldAt bs 0x0E 2,
          rows := fieldAt bs 0x10 4, m0 := fieldAt bs 0x14 4, m := fieldAt bs 0x18 4, n0 := fieldAt bs 0x1C 4,
          n := fieldAt bs 0x20 4, k := fieldAt bs 0x24 4, outFmt := fieldAt bs 0x28 4, budget := fieldAt bs 0x2C 4,
          segBase := fieldAt bs 0x30 4, segCap := fieldAt bs 0x34 2, heavy := fieldAt bs 0x36 2,
          spillCap := fieldAt bs 0x38 2, bRowCap := fieldAt bs 0x3A 2, cRowSlot := fieldAt bs 0x3C 2 })
    | _, _, _, _ => none

/-! ### RLZ (spec 08, R245 to R248) -/

/-- Bytes of a row directory. -/
def rlzDirBytes (rows : Nat) : Nat := ceilDiv (rows * 8) 64 * 64

/-- A stored element: its position in the row, its value code, the byte offset of the value from the row's start. -/
structure RlzElem where
  pos : Nat
  code : Nat
  at_ : Nat
  deriving DecidableEq, Repr

/-- A run field and what follows it (spec 08, R247). -/
def runField : Bytes → Option (Nat × Bytes)
  | [] => none
  | b :: bs => if b = 0xFF#8 then (runField bs).map (fun r => (255 + r.1, r.2)) else some (b.toNat, bs)

/-- The stored elements of a block whose values have e bytes: `next` is the lowest position left in the block. -/
def rlzElems (e total base : Nat) : Nat → Nat → Bytes → Option (List RlzElem × Bytes)
  | 0, _, bs => some ([], bs)
  | n + 1, next, bs =>
    match runField bs with
    | none => none
    | some (run, rest) =>
      if 255 < next + run ∨ rest.length < e then none
      else (rlzElems e total base n (next + run + 1) (rest.drop e)).map (fun r =>
        (⟨base + next + run, leNat (rest.take e), total - rest.length⟩ :: r.1, r.2))

/-- The blocks of a row from position `base` on, and the bytes after them. -/
def rlzBlocks (e total : Nat) : Nat → Nat → Bytes → Option (List RlzElem × Bytes)
  | 0, _, bs => some ([], bs)
  | n + 1, base, bs =>
    if bs.length < 2 ∨ 256 < leNat (bs.take 2) then none
    else match rlzElems e total base (leNat (bs.take 2)) 0 (bs.drop 2) with
      | none => none
      | some (es, rest) => (rlzBlocks e total n (base + 256) rest).map (fun r => (es ++ r.1, r.2))

/-- A row as the expander reads it: malformed (R248), its directory entry, every stored element, its bytes. -/
structure RlzRow where
  bad : Bool
  nnz : Nat
  off : Nat
  elems : List RlzElem
  bytes : Bytes
  deriving DecidableEq, Repr

/-- Row r of an RLZ tensor. -/
def Mod.rlzRow (m : Mod) (a : Alloc) (rows cols : Nat) (f : Fmt) (r : Nat) : RlzRow :=
  let w := m.rdNat (a.base + 8 * r) 8
  let nnz := w / 2 ^ 32
  let off := w % 2 ^ 32 * 64
  let total := a.cols - off
  let bs := m.rdBytes (a.base + off) total
  if off < rlzDirBytes rows then ⟨true, nnz, off, [], []⟩
  else match rlzBlocks (f.width / 8) total (ceilDiv cols 256) 0 bs with
    | none => ⟨true, nnz, off, [], []⟩
    | some (es, rest) =>
      if es.length = nnz then ⟨false, nnz, off, es, bs.take (total - rest.length)⟩ else ⟨true, nnz, off, [], []⟩

/-- The run field of a distance. -/
def runBytes (d : Nat) : Bytes := List.replicate (d / 255) 0xFF#8 ++ [BitVec.ofNat 8 (d % 255)]

/-- The elements of a block after position `next`. -/
def encodeElems (e : Nat) : Nat → List (Nat × Nat) → Bytes
  | _, [] => []
  | next, (p, c) :: l => runBytes (p % 256 - next) ++ leBytes e c ++ encodeElems e (p % 256 + 1) l

/-- A row of (position, code) pairs, ascending, as RLZ blocks (spec 08, R247). -/
def rlzEncode (cols e : Nat) (l : List (Nat × Nat)) : Bytes :=
  ((List.range (ceilDiv cols 256)).map (fun b =>
    let es := l.filter (fun x => x.1 / 256 == b)
    leBytes 2 es.length ++ encodeElems e 0 es)).flatten

/-- A directory entry. -/
def rlzEntry (nnz off : Nat) : Bytes := leBytes 8 (nnz * 2 ^ 32 + off / 64)

/-- Zero bytes up to the next 64-byte boundary. -/
def fill64 (bs : Bytes) : Bytes := bs ++ zeros (ceilDiv bs.length 64 * 64 - bs.length)

/-! ### What an item does -/

/-- Writes in order and counts (spec 08, R277; spec 02, R81); the first row with a dropped element and its position, none
where it cannot be read. -/
structure SpOut where
  st : Stored
  spills : Nat
  segments : Nat
  range : Nat
  rowsDropped : Nat
  malformed : Nat
  first : Option (Nat × Option Nat)

def SpOut.none : SpOut := ⟨Stored.none, 0, 0, 0, 0, 0, Option.none⟩

def SpOut.join (a b : SpOut) : SpOut :=
  ⟨a.st.join b.st, a.spills + b.spills, a.segments + b.segments, a.range + b.range, a.rowsDropped + b.rowsDropped,
    a.malformed + b.malformed, a.first.orElse (fun _ => b.first)⟩

def SpOut.all (l : List SpOut) : SpOut := l.foldl SpOut.join SpOut.none

def SpOut.write (ws : List (Nat × Bytes)) : SpOut := { SpOut.none with st := ⟨ws, 0, 0⟩ }

/-- Dropped elements of a row: how many, and the first one's position. -/
def SpOut.drop (row n : Nat) (first : Option Nat) : SpOut :=
  if n = 0 then SpOut.none else { SpOut.none with range := n, first := some (row, first) }

/-- A malformed row read for item row `row` (spec 08, R248). -/
def SpOut.malformedRow (row nnz : Nat) : SpOut :=
  { SpOut.none with malformed := 1, range := nnz, first := some (row, Option.none) }

/-- An item with its records: A, B, mask, C (none for a combine-group member), and where its engine spills. -/
structure SpJob where
  x : SpItem
  a : Alloc
  b : Alloc
  mask : Option Alloc
  c : Option Alloc
  seg : Option Alloc
  part : Option Alloc
  /-- Address of part slot 0 of the member's own part, and its columns. -/
  slot : Option (Nat × Nat)
  spill : Nat
  key : SrKey
  deriving DecidableEq, Repr

def SpJob.w (j : SpJob) : FmtWord := (FmtWord.parse j.x.outFmt).getD FmtWord.plain
/-- s_ab (spec 08, R251). -/
def SpJob.sab (j : SpJob) : F32 := F32.mul j.a.scale j.b.scale

/-- Extent of the driving operand's columns: k for A, N for a mask. -/
def SpJob.drivenCols (j : SpJob) : Nat := match j.x.op with | .spmm => j.x.k | .spgemm => j.x.k | _ => j.x.n

/-- The driving row r (spec 08, R250). -/
def Mod.driving (m : Mod) (j : SpJob) (r : Nat) : RlzRow :=
  match j.x.op with
  | .spmm => m.rlzRow j.a j.x.rows j.x.k j.x.aFmt r
  | .spgemm => m.rlzRow j.a j.x.rows j.x.k j.x.aFmt r
  | _ => match j.mask with
    | some k => m.rlzRow k j.x.rows j.x.n j.x.maskFmt r
    | none => ⟨true, 0, 0, [], []⟩

/-- Stored elements inside the extent; those outside are dropped (spec 08, R249). -/
def inside (cols : Nat) (es : List RlzElem) : List RlzElem := es.filter (fun e => decide (e.pos < cols))

def outside (row cols : Nat) (es : List RlzElem) : SpOut :=
  let out := es.filter (fun e => decide (cols ≤ e.pos))
  SpOut.drop row out.length (out.head?.map (·.pos))

/-! ### Values (spec 08, R252 to R258) -/

/-- Scale and convert a final value (spec 08, R251). -/
def SpJob.convert (j : SpJob) (idx : Nat) (v : F32) : Converted := Sys2Proof.convert j.w (j.key.by j.w idx) F32.one (F32.mul v j.sab)

/-- An FP32 row of SPMM from the driving elements (spec 08, R252). -/
def Mod.spmmRow (m : Mod) (j : SpJob) (es : List RlzElem) : List F32 :=
  (List.range j.x.n).map (fun c =>
    es.foldl (fun acc e => F32.fma (widen j.x.aFmt e.code) (F32.ofNum (m.value j.b e.pos (j.x.n0 + c))) acc) F32.zero)

/-- Where a dense output row goes: C, or the member's part slot (spec 08, R263). -/
def SpJob.storeDense (j : SpJob) (r : Nat) (vs : List F32) : Stored :=
  let vs := vs.map (fun v => F32.mul v j.sab)
  match j.slot, j.c with
  | some (base, cols), _ =>
    ⟨[(base + (r - j.x.m0) * cols * 4, f32Bytes vs)], (vs.filter (fun v => !F32.isFinite v)).length, 0⟩
  | none, some c => storeRow c j.w j.key r j.x.n0 (r * c.cols + j.x.n0) vs
  | none, none => Stored.none

/-- One output of SDDMM (spec 08, R253). -/
def Mod.sddmmAt (m : Mod) (j : SpJob) (i col : Nat) : F32 :=
  let lane (l : Nat) := ((List.range j.x.k).filter (fun t => t % 32 == l)).foldl (fun acc t =>
    F32.fma (F32.ofNum (m.value j.a i t)) (F32.ofNum (m.value j.b col t)) acc) F32.zero
  F32.tree32 ((List.range 32).map lane)

/-- One output of SPDOT over two rows of stored elements (spec 08, R254). -/
def spdotAt (af bf : Fmt) (as bs : List RlzElem) : F32 :=
  as.foldl (fun acc e => match bs.find? (fun b => b.pos == e.pos) with
    | some b => F32.fma (widen af e.code) (widen bf b.code) acc
    | none => acc) F32.zero

/-- The hash accumulator: occupied ways of each bucket, and the spilled entries in append order (spec 08, R255, R256). -/
structure HashAcc where
  buckets : SMap (List (Nat × F32))
  spilled : List (Nat × F32)
  deriving DecidableEq, Repr

def HashAcc.empty : HashAcc := ⟨[], []⟩

/-- The bucket of a column. -/
def bucketOf (col : Nat) : Nat := col * 0x9E3779B1 % 2 ^ 32 / 2 ^ 20

/-- Insert one product (spec 08, R255). -/
def HashAcc.insert (h : HashAcc) (col : Nat) (a b : F32) : HashAcc :=
  let ways := SMap.get [] h.buckets (bucketOf col)
  let put (l : List (Nat × F32)) := SMap.put [] h.buckets (bucketOf col) l
  if ways.any (fun w => w.1 == col) then
    { h with buckets := put (ways.map (fun w => if w.1 = col then (col, F32.fma a b w.2) else w)) }
  else if ways.length < 8 then { h with buckets := put (ways ++ [(col, F32.fma a b F32.zero)]) }
  else { buckets := put [(col, F32.fma a b F32.zero)], spilled := h.spilled ++ ways }

/-- Insert a column into an ascending list without repeats. -/
def insertCol (c : Nat) : List Nat → List Nat
  | [] => [c]
  | x :: l => if c < x then c :: x :: l else if c = x then x :: l else x :: insertCol c l

/-- Pieces merged by ascending index, each chained in order (spec 08, R258, R267). -/
def mergePieces (pieces : List (Nat × F32)) : List (Nat × F32) :=
  let cols := pieces.foldl (fun l p => insertCol p.1 l) []
  cols.map (fun c => (c, F32.chain ((pieces.filter (fun p => p.1 == c)).map (·.2))))

/-- The row's entries at its end. -/
def HashAcc.final (h : HashAcc) : List (Nat × F32) :=
  mergePieces (h.spilled ++ (h.buckets.map (·.2)).flatten)

/-- Spill records as bytes, 64 each (spec 08, R256). -/
def HashAcc.spillBytes (h : HashAcc) : Bytes := (h.spilled.map (fun p => leBytes 4 p.1 ++ leBytes 4 p.2.toNat)).flatten

/-- The products of driving elements of A's row r (spec 08, R255): the accumulator, and the B elements dropped. -/
def Mod.spgemmAcc (m : Mod) (j : SpJob) (r : Nat) (es : List RlzElem) : HashAcc × SpOut :=
  es.foldl (fun s e =>
    let brow := m.rlzRow j.b j.x.k j.x.n j.x.bFmt e.pos
    let used := brow.elems.take j.x.bRowCap
    let excess := brow.elems.drop j.x.bRowCap
    let lost := if brow.bad then SpOut.malformedRow r brow.nnz
      else (outside r j.x.n used).join (SpOut.drop r excess.length (excess.head?.map (·.pos)))
    ((inside j.x.n used).foldl (fun h b => h.insert b.pos (widen j.x.aFmt e.code) (widen j.x.bFmt b.code)) s.1,
      s.2.join lost)) (HashAcc.empty, SpOut.none)

/-- The spill records that an accumulation wrote. -/
def SpJob.spillOut (j : SpJob) (h : HashAcc) : SpOut :=
  if h.spilled.isEmpty then SpOut.none
  else { SpOut.write [(j.spill, h.spillBytes)] with spills := h.spilled.length / 8 }

/-- The longest prefix of entries whose encoded row has at most `limit` bytes (spec 08, R258). -/
def fitPrefix (cols e limit : Nat) (l : List (Nat × Nat)) : Nat :=
  (List.range (l.length + 1)).foldl (fun best p => if (rlzEncode cols e (l.take p)).length ≤ limit then p else best) 0

/-- Write row r of an SPGEMM output from its merged entries (spec 08, R258). -/
def SpJob.storeRlz (j : SpJob) (r : Nat) (entries : List (Nat × F32)) : SpOut :=
  match j.c with
  | none => SpOut.none
  | some c =>
    let x := j.x
    let e := j.w.fmt.width / 8
    let conv : List (Nat × Converted) := entries.map (fun p => (p.1, j.convert (r * x.n + p.1) p.2))
    let codes := conv.map (fun p => (p.1, p.2.code))
    let keep := fitPrefix x.n e (x.cRowSlot * 64) codes
    let off := rlzDirBytes x.rows + r * x.cRowSlot * 64
    let kept : List Converted := (conv.take keep).map (·.2)
    let ws := [(c.base + 8 * r, rlzEntry keep off), (c.base + off, fill64 (rlzEncode x.n e (codes.take keep)))]
    let st : Stored := ⟨ws, (kept.filter (·.nonfinite)).length, (kept.filter (·.saturated)).length⟩
    let next : Option Nat := (codes.drop keep).head?.map (·.1)
    ({ SpOut.none with st := st }).join (SpOut.drop r (codes.length - keep) next)

/-- Values of SDDMM or SPDOT at mask elements of row r, written at their places in C (spec 08, R258). -/
def Mod.maskValues (m : Mod) (j : SpJob) (row : RlzRow) (r : Nat) (es : List RlzElem) : SpOut :=
  match j.c with
  | none => SpOut.none
  | some c =>
    let x := j.x
    let arow := if x.op = .spdot then m.rlzRow j.a x.rows x.k x.aFmt r else ⟨false, 0, 0, [], []⟩
    let lostA := if arow.bad then SpOut.malformedRow r arow.nnz else outside r x.k arow.elems
    let one (e : RlzElem) : SpOut :=
      let brow := if x.op = .spdot then m.rlzRow j.b x.n x.k x.bFmt e.pos else ⟨false, 0, 0, [], []⟩
      let v := if x.op = .spdot then spdotAt x.aFmt x.bFmt (inside x.k arow.elems) (inside x.k brow.elems)
        else m.sddmmAt j r e.pos
      let q := j.convert (r * x.n + e.pos) v
      let lostB := if brow.bad then SpOut.malformedRow r brow.nnz else outside r x.k brow.elems
      ({ SpOut.none with
          st := ⟨[(c.base + row.off + e.at_, leBytes (j.w.fmt.width / 8) q.code)], b2n q.nonfinite, b2n q.saturated⟩ }).join lostB
    (outside r x.n es).join (lostA.join (SpOut.all ((inside x.n es).map one)))

/-- The bytes of a mask row that are not values: (offset, bytes) pieces (spec 08, R258). -/
def structureOf (e : Nat) (row : RlzRow) : List (Nat × Bytes) :=
  let ends := row.elems.map (fun x => x.at_ + e)
  let starts := row.elems.map (·.at_)
  ((0 :: ends).zip (starts ++ [row.bytes.length])).map (fun p => (p.1, (row.bytes.drop p.1).take (p.2 - p.1)))

/-- Zero bytes after the n bytes of a row at `off` of C, up to the next 64-byte boundary (spec 08, R247). -/
def rowFill (c : Alloc) (off n : Nat) : List (Nat × Bytes) :=
  let k := min (ceilDiv n 64 * 64) (c.cols - off) - n
  if k = 0 then [] else [(c.base + off + n, zeros k)]

/-- C's directory entry and structure for a mask row that keeps it. -/
def SpJob.copyStructure (j : SpJob) (row : RlzRow) (r : Nat) : SpOut :=
  match j.c with
  | none => SpOut.none
  | some c => SpOut.write ((c.base + 8 * r, rlzEntry row.nnz row.off)
      :: (structureOf (j.w.fmt.width / 8) row).map (fun p => (c.base + row.off + p.1, p.2))
      ++ rowFill c row.off row.bytes.length)

/-- An empty row of an RLZ output: nnz 0, every block header 0; nothing outside C's row data. -/
def SpJob.emptyRow (j : SpJob) (off r : Nat) : SpOut :=
  match j.c with
  | none => SpOut.none
  | some c =>
    let n := min (ceilDiv (2 * ceilDiv j.x.n 256) 64 * 64) (c.cols - off)
    SpOut.write ((c.base + 8 * r, rlzEntry 0 off) :: (if off < rlzDirBytes j.x.rows then [] else [(c.base + off, zeros n)]))

/-! ### Rows (spec 08, R264 to R269) -/

/-- A row computed in place. -/
def Mod.runRow (m : Mod) (j : SpJob) (row : RlzRow) (r : Nat) : SpOut :=
  let lost := if row.bad then SpOut.malformedRow r row.nnz else SpOut.none
  match j.x.op with
  | .spmm =>
    lost.join ((outside r j.x.k row.elems).join
      { SpOut.none with st := j.storeDense r (m.spmmRow j (inside j.x.k row.elems)) })
  | .spgemm =>
    let acc := m.spgemmAcc j r (inside j.x.k row.elems)
    lost.join ((outside r j.x.k row.elems).join (acc.2.join ((j.spillOut acc.1).join (j.storeRlz r acc.1.final))))
  | _ =>
    if row.bad then lost.join (j.emptyRow row.off r)
    else (j.copyStructure row r).join (m.maskValues j row r row.elems)

/-- A segment table entry (spec 08, R265). -/
def segEntry (row segNo segCount first count firstSlot : Nat) : Bytes :=
  leBytes 4 row ++ leBytes 2 segNo ++ leBytes 2 segCount ++ leBytes 4 first ++ leBytes 4 count ++ leBytes 4 0
    ++ leBytes 4 firstSlot ++ zeros 8

def emptySeg : Bytes := leBytes 4 0xFFFFFFFF ++ zeros 28

/-- Address of a segment slot. -/
def SpJob.segAddr (j : SpJob) (slot : Nat) : Nat := (j.seg.map (·.base)).getD 0 + 32 * slot

/-- Post row r as s segments from slot `at_` of the slice on. -/
def SpJob.postRow (j : SpJob) (row : RlzRow) (r s at_ : Nat) : SpOut :=
  let t := j.x.t
  let first := j.x.segBase + at_
  let entry (q : Nat) : Nat × Bytes :=
    (j.segAddr (first + q), segEntry r q s (q * t) (min t (row.nnz - q * t)) first)
  ({ SpOut.write ((List.range s).map entry) with segments := s }).join
    (match j.x.op with | .sddmm => j.copyStructure row r | .spdot => j.copyStructure row r | _ => SpOut.none)

/-- Drop row r (spec 08, R269). -/
def SpJob.dropRow (j : SpJob) (row : RlzRow) (r : Nat) : SpOut :=
  let lost := { SpOut.drop r row.nnz (row.elems.head?.map (·.pos)) with rowsDropped := 1 }
  match j.x.op with
  | .spmm => lost.join { SpOut.none with st := j.storeDense r (List.replicate j.x.n F32.zero) }
  | .spgemm => lost.join (j.storeRlz r [])
  | _ => lost.join (j.emptyRow row.off r)

/-- Where the decision of R264 stands: driving elements run, slots used, what was done. -/
structure SpRun where
  used : Nat
  slot : Nat
  out : SpOut

/-- The decision on one row (spec 08, R264). -/
def Mod.decideRow (m : Mod) (j : SpJob) (s : SpRun) (r : Nat) : SpRun :=
  let row := m.driving j r
  let n := if row.bad then 0 else row.nnz
  if n ≤ j.x.t ∧ s.used + n ≤ j.x.budget then ⟨s.used + n, s.slot, s.out.join (m.runRow j row r)⟩
  else
    let q := max 1 (ceilDiv n j.x.t)
    if s.slot + q ≤ j.x.segCap then ⟨s.used, s.slot + q, s.out.join (j.postRow row r q s.slot)⟩
    else ⟨s.used, s.slot, s.out.join (j.dropRow row r)⟩

/-- A whole item: its rows, then the empty slots of its slice. -/
def Mod.runItem (m : Mod) (j : SpJob) : SpOut :=
  let s := ((List.range j.x.m).map (fun i => j.x.m0 + i)).foldl (m.decideRow j) ⟨0, 0, SpOut.none⟩
  s.out.join (SpOut.write (((List.range j.x.segCap).drop s.slot).map (fun i => (j.segAddr (j.x.segBase + i), emptySeg))))

/-! ### Segments (spec 08, R266, R267) -/

/-- A segment table entry as read. -/
structure Seg where
  row : Nat
  segNo : Nat
  segCount : Nat
  first : Nat
  count : Nat
  doneCount : Nat
  firstSlot : Nat
  deriving DecidableEq, Repr

def Mod.readSeg (m : Mod) (j : SpJob) (slot : Nat) : Seg :=
  let f (o n : Nat) := m.rdNat (j.segAddr slot + o) n
  ⟨f 0 4, f 4 2, f 6 2, f 8 4, f 12 4, f 16 4, f 20 4⟩

/-- Bytes of a part slot. -/
def SpJob.partSize (j : SpJob) : Nat :=
  ceilDiv (if j.x.op = .spgemm then (j.x.t + 1) * j.x.bRowCap * 8 else j.x.n * 4) 64 * 64

def SpJob.partAddr (j : SpJob) (p : Nat) : Nat := (j.part.map (·.base)).getD 0 + p * j.partSize

/-- Entries that a part slot of SPGEMM holds. -/
def SpJob.partRoom (j : SpJob) : Nat := j.partSize / 8

/-- The work of a segment. The value beside index 0xFFFF_FFFF is a free value (assumption log 3). -/
def Mod.runSegment (m : Mod) (j : SpJob) (s : Seg) : SpOut :=
  let row := m.driving j s.row
  let es := (row.elems.drop s.first).take s.count
  match j.x.op with
  | .spmm =>
    let vs := m.spmmRow j (inside j.x.k es)
    (outside s.row j.x.k es).join (SpOut.write [(j.partAddr (s.firstSlot + s.segNo), f32Bytes vs)])
  | .spgemm =>
    let acc := m.spgemmAcc j s.row (inside j.x.k es)
    let entries := (acc.1.final.map (fun p => leBytes 4 p.1 ++ leBytes 4 p.2.toNat)).take j.partRoom
    let close := if entries.length < j.partRoom then [leBytes 4 0xFFFFFFFF ++ fitBytes 4 (Config.freeBytes m.free 4)] else []
    (outside s.row j.x.k es).join (acc.2.join ((j.spillOut acc.1).join
      (SpOut.write [(j.partAddr (s.firstSlot + s.segNo), (entries ++ close).flatten)])))
  | _ => m.maskValues j row s.row es

/-- The entries of an SPGEMM part, up to the one with index 0xFFFF_FFFF. -/
def Mod.partEntries (m : Mod) (j : SpJob) (p : Nat) : List (Nat × F32) :=
  ((List.range j.partRoom).map (fun i =>
    (m.rdNat (j.partAddr p + 8 * i) 4, BitVec.ofNat 32 (m.rdNat (j.partAddr p + 8 * i + 4) 4)))).takeWhile
      (fun e => e.1 != 0xFFFFFFFF)

/-- The row combine (spec 08, R267). -/
def Mod.rowCombine (m : Mod) (j : SpJob) (s : Seg) : SpOut :=
  let ps := (List.range s.segCount).map (fun q => s.firstSlot + q)
  match j.x.op with
  | .spmm =>
    { SpOut.none with st := j.storeDense s.row ((List.range j.x.n).map (fun c =>
        F32.chain (ps.map (fun p => BitVec.ofNat 32 (m.rdNat (j.partAddr p + 4 * c) 4))))) }
  | .spgemm => j.storeRlz s.row (mergePieces ((ps.map (m.partEntries j)).flatten))
  | _ => SpOut.none

end Sys2Proof.Machine
end

