-- ==== Sys2Proof/Machine/SparseItems.lean ====
section
/-! DEFINITION. Sparse entries of a round (spec 08, R263 to R271): the end of an item or segment, verdicts, the increment of
done_count and the row combine. -/
namespace Sys2Proof.Machine

/-- Bytes of a spill area: 64 times the largest spill_cap of the plan's SPARSE items (spec 08, R257). -/
def Plan.spillArea (p : Plan) : Nat :=
  64 * ((p.woodpile.map (fun w =>
    if w.engine = .sparse then match SpRec.parse (p.itemBytes w) with | some (.item x) => x.spillCap | _ => 0 else 0)).foldl max 0)

/-- The spill area of an engine (spec 08, R257). -/
def Plan.spillBase (p : Plan) (engine : Nat) : Nat :=
  poolBase (unitCore engine) + poolSize - (2 * unitCluster engine + unitIndex engine + 1) * p.spillArea

/-- The engine on which an entry runs. -/
def Ent.engine (e : Ent) : Nat := (e.runsOn).headD 0

/-- The job of an item under an entry; an SPMM member of a combine group writes its part slot (spec 08, R263). -/
def Mod.spJob (m : Mod) (w : WpEntry) (x : SpItem) (engine : Nat) : Option SpJob :=
  match m.plan.plan, m.hdr with
  | some p, some r =>
    match m.operand x.aRec, m.operand x.bRec with
    | some a, some b =>
      let slot := if w.combineGroup = 0xFFFF then none
        else ((p.groupsOf r)[w.combineGroup]?).map (fun g => (g.partBase + w.kPart * g.partStride, g.cols))
      some { x := x, a := a, b := b, mask := m.operand x.maskRec, c := p.alloc x.cRec, seg := p.alloc x.segRec,
             part := p.alloc x.partRec, slot := slot, spill := p.spillBase engine,
             key := m.srKey (((p.alloc x.cRec).map (·.tensorId)).getD 0) }
    | _, _ => none
  | _, _ => none

/-- The poster of a segment: its entry in the round, and its item (spec 08, R262, R275). -/
def Mod.poster (m : Mod) (ref : Nat) : Option (WpEntry × SpItem) :=
  match m.plan.plan with
  | none => none
  | some p =>
    (m.entries.find? (fun e => e.2.engine == .sparse && e.2.itemRef == ref)).bind (fun e =>
      match SpRec.parse (p.itemBytes e.2) with
      | some (.item x) => some (e.2, x)
      | _ => none)

/-- What a SPARSE entry runs: an item, or a segment with the entry of its slot. -/
inductive SpWork where
  | item (j : SpJob)
  | segment (j : SpJob) (slot : Nat) (s : Seg)
  deriving DecidableEq, Repr

def Mod.spWork (m : Mod) (w : WpEntry) (engine : Nat) : Option SpWork :=
  match m.plan.plan with
  | none => none
  | some p =>
    match SpRec.parse (p.itemBytes w) with
    | some (.item x) => (m.spJob w x engine).map .item
    | some (.segment ref slot) =>
      (m.poster ref).bind (fun q => (m.spJob q.1 q.2 engine).map (fun j => .segment j slot (m.readSeg j slot)))
    | none => none

/-- Count what an item did, and its condition INDEX_RANGE (spec 08, R249, R277). The position of the first element of a
malformed row is a free value (assumption log 3). -/
def Mod.spCount (m : Mod) (i : Nat) (o : SpOut) : Mod :=
  let m := ((((m.tally Cnt.sparseSpill o.spills).tally Cnt.sparseSegments o.segments).tally Cnt.sparseIndexRange o.range).tally
    Cnt.sparseRowDropped o.rowsDropped).tally Cnt.sparseMalformed o.malformed
  let (u, m) := m.draw
  match o.first with
  | some (row, pos) =>
    m.condition ⟨Detail.indexRange, i, (m.ent i).engine, o.range, row, pos.getD (u % 2 ^ 32)⟩
  | none =>
    if o.malformed = 0 then m else m.condition ⟨Detail.indexRange, i, (m.ent i).engine, o.range, 0, 0⟩

/-- Write and count an item's output; its digest (spec 08, R271). -/
def Mod.spWrite (m : Mod) (i : Nat) (o : SpOut) (damage : List (Nat × Byte)) : Mod × Dword :=
  let (m, d) := m.writeOut o.st damage
  (m.spCount i o, d)

/-- SPARSE_ITEM_COMPLETE (spec 08, R264, R266): an item ends and signals; a segment's part is written and awaits its
verdict; an empty slot completes at once. -/
def Mod.sparseComplete (m : Mod) (i : Nat) (damage : List (Nat × Byte)) : Mod :=
  match m.wpEntry i with
  | none => m
  | some w =>
    if m.running && (m.ent i).active && w.engine == .sparse then
      match m.spWork w (m.ent i).engine with
      | none => m
      | some (.item j) =>
        let (m, d) := m.spWrite i (m.runItem j) damage
        (m.signalDone i w).toChecks i d
      | some (.segment j _ s) =>
        if s.row = 0xFFFFFFFF then (m.signalDone i w).toDone i
        else
          let (m, d) := m.spWrite i (m.runSegment j s) damage
          m.toChecks i d
    else m

def execSparseItemComplete (item : Nat) (damage : List (Nat × Byte)) (s : State) : Out :=
  .next (s.event (fun m => m.sparseComplete item damage))

/-- A check of a sparse engine fails (spec 08, R271): copies, or residues, disagree. -/
def seenDiffers : Seen → Bool
  | .pass => false
  | .exact d c => d != c
  | .bounded d c => d != c
  | .copies a b => a != b

/-- The verdicts of a sparse entry have passed; a segment's increment of done_count is to come. -/
def Mod.sparsePass (m : Mod) (i : Nat) (w : WpEntry) : Mod :=
  let open_ := (m.ent i).st == .checking || (m.ent i).st == .recheck
  let work := m.spWork w 0
  let m := m.verdictsPass i w
  match work with
  | some (.segment _ _ _) => if open_ then m.setEnt i { m.ent i with st := .passed } else m
  | _ => m

/-- SPARSE_VERDICT (spec 08, R271): answered as a dense item's, the failing engine in place of the failing gang. -/
def Mod.sparseVerdict (m : Mod) (i : Nat) (seen : Seen) : Mod :=
  match m.wpEntry i with
  | none => m
  | some w =>
    if m.running && w.engine == .sparse then
      if seen = .pass then m.sparsePass i w
      else if seenDiffers seen then m.mismatch i w ⟨true, ⟨false, 0, 0, 0, 0, 0⟩⟩
      else m
    else m

def execSparseVerdict (item : Nat) (seen : Seen) (s : State) : Out := .next (s.event (fun m => m.sparseVerdict item seen))

/-- SEGMENT_ITEM_COMPLETE (spec 08, R267): a segment whose checks have passed increments done_count; the one that brings it
to seg_count runs the row combine; then the entry signals. -/
def Mod.segmentComplete (m : Mod) (i : Nat) (damage : List (Nat × Byte)) : Mod :=
  match m.wpEntry i with
  | none => m
  | some w =>
    if m.running && (m.ent i).st == .passed then
      let e := m.ent i
      match m.spWork w ((if e.reUnits.isEmpty then e.units else e.reUnits).headD 0) with
      | some (.segment j _ s) =>
        let at_ := j.segAddr s.firstSlot + 0x10
        let n := m.rdNat at_ 4 + 1
        let m := m.roundWrite at_ (leBytes 4 n)
        let m := if n = s.segCount then (m.spWrite i (m.rowCombine j s) damage).1 else m
        (m.signalDone i w).toDone i
      | _ => m
    else m

def execSegmentItemComplete (item : Nat) (damage : List (Nat × Byte)) (s : State) : Out :=
  .next (s.event (fun m => m.segmentComplete item damage))

end Sys2Proof.Machine
end

