-- ==== Sys2Proof/Machine/Update.lean ====
section
/-! DEFINITION. The update unit (spec 12, R387 to R395) and the digest of a binding round (spec 13, R429). -/
namespace Sys2Proof.Machine

/-! ### Scalars of an entry (spec 12, R389, R390) -/

/-- The group record with an id. -/
def Plan.groupRec (p : Plan) (id : Nat) : Option GroupRec :=
  p.updates.findSome? (fun r => match r with
    | .group g => if g.groupId = id then some g else none
    | _ => none)

/-- The scalars that every UPDATE entry forms. -/
structure Scalars where
  lr : F32
  a : F32
  clip : F32
  beta1 : F32
  beta2 : F32
  eps : F32
  t : Nat
  p1 : F32
  p2 : F32
  deriving DecidableEq, Repr

/-- norm of the round's finite_collective (spec 12, R390; spec 11, R369); NaN, which clips nothing, where there is none. -/
def Mod.roundNorm (m : Mod) : F32 :=
  match m.set.bind (fun s => m.normResult s.finiteCollective) with
  | some bs => BitVec.ofNat 32 (fieldAt bs 8 4)
  | none => F32.nan

def Mod.scalars (m : Mod) (u : UpdDesc) (g : GroupRec) (ctr : Alloc) : Scalars :=
  let vals := SMap.get GroupVals.zero m.step.groups u.group
  let lr := F32.mul m.step.reg.baseLr vals.lrMult
  let blk := m.rdBytes ctr.base 16
  { lr := lr, a := F32.mul lr vals.weightDecay, clip := clipOf m.step.reg.clipNorm m.roundNorm, beta1 := g.beta1,
    beta2 := g.beta2, eps := g.eps, t := min 0xFFFFFFFF (fieldAt blk 0 4 + 1),
    p1 := F32.mul (BitVec.ofNat 32 (fieldAt blk 8 4)) g.beta1, p2 := F32.mul (BitVec.ofNat 32 (fieldAt blk 12 4)) g.beta2 }

/-- The counter block as it goes back. -/
def Scalars.block (s : Scalars) : Bytes := leBytes 4 s.t ++ zeros 4 ++ leBytes 4 s.p1.toNat ++ leBytes 4 s.p2.toNat

/-- The decayed weight. -/
def Scalars.decay (s : Scalars) (w : F32) : F32 := F32.fma (F32.neg s.a) w w
/-- A step along d. -/
def Scalars.move (s : Scalars) (d w : F32) : F32 := F32.fma (F32.neg s.lr) d (s.decay w)
/-- 1 - x. -/
def oneLess (x : F32) : F32 := F32.sub F32.one x

/-! ### The rules on one element: the new weight and states (spec 12, R391 to R393) -/

def sgdm (s : Scalars) (nesterov : Bool) (w g mom : F32) : F32 × F32 :=
  let mom' := F32.fma s.beta1 mom g
  let d := if nesterov then F32.fma s.beta1 mom' g else mom'
  (s.move d w, mom')

def adamw (s : Scalars) (w g mom v : F32) : F32 × F32 × F32 :=
  let mom' := F32.fma s.beta1 mom (F32.mul (oneLess s.beta1) g)
  let v' := F32.fma s.beta2 v (F32.mul (oneLess s.beta2) (F32.mul g g))
  let den := F32.add (F32.sqrt (F32.div v' (oneLess s.p2))) s.eps
  (s.move (F32.div (F32.div mom' (oneLess s.p1)) den) w, mom', v')

/-- sign(x) of R393. -/
def signOf (x : F32) : F32 :=
  if F32.isNan x then F32.nan else if F32.isZero x then x else if x.msb then F32.neg F32.one else F32.one

def signm (s : Scalars) (w g mom : F32) : F32 × F32 :=
  let c := F32.fma s.beta1 mom (F32.mul (oneLess s.beta1) g)
  (s.move (signOf c) w, F32.fma s.beta2 mom (F32.mul (oneLess s.beta2) g))

/-! ### FACTORED (spec 12, R394) -/

/-- New weights, row statistics and column statistics of a shard of whole rows. -/
def factored (s : Scalars) (n : Nat) (ws gs rs cs : List F32) : List F32 × List F32 × List F32 :=
  let g (i j : Nat) := gs.getD (i * n + j) F32.zero
  let rows := gs.length / n
  let q (i j : Nat) := F32.fma (g i j) (g i j) s.eps
  let count (k : Nat) : F32 := F32.ofInt (k : Int)
  let r' := (List.range rows).map (fun i => F32.fma s.beta2 (rs.getD i F32.zero)
    (F32.mul (oneLess s.beta2) (F32.div (F32.chunkSum ((List.range n).map (q i))) (count n))))
  let c' := (List.range n).map (fun j => F32.fma s.beta2 (cs.getD j F32.zero)
    (F32.mul (oneLess s.beta2) (F32.div (F32.chain ((List.range rows).map (fun i => q i j))) (count rows))))
  let rbar := F32.div (F32.chain r') (count rows)
  let w' := (List.range gs.length).map (fun e =>
    let v := F32.div (F32.mul (r'.getD (e / n) F32.zero) (c'.getD (e % n) F32.zero)) rbar
    s.move (F32.div (g (e / n) (e % n)) (F32.sqrt v)) (ws.getD e F32.zero))
  (w', r', c')

/-! ### Shards (spec 12, R387, R395) -/

/-- What a rule shard writes: FP32 values from an element of a record on. -/
structure RulePart where
  rec_ : Nat
  first : Nat
  vals : List F32
  deriving DecidableEq, Repr

/-- The parts that the rule writes for elements [lo, lo + len): the weights first. -/
def Mod.ruleParts (m : Mod) (u : UpdDesc) (s : Scalars) (shard lo len : Nat) : List RulePart :=
  let vals (r first n : Nat) : List F32 := match m.operand r with | some a => m.elems a first n | none => []
  let ws := vals u.masterRec lo len
  let gs := (vals u.gradRec lo len).map (fun g => F32.mul s.clip g)
  let s1 := vals u.state1Rec lo len
  let at_ (l : List F32) (i : Nat) := l.getD i F32.zero
  match u.rule with
  | .sgdm =>
    let o := (List.range len).map (fun i => sgdm s u.nesterov (at_ ws i) (at_ gs i) (at_ s1 i))
    [⟨u.masterRec, lo, o.map (·.1)⟩, ⟨u.state1Rec, lo, o.map (·.2)⟩]
  | .adamw =>
    let s2 := vals u.state2Rec lo len
    let o := (List.range len).map (fun i => adamw s (at_ ws i) (at_ gs i) (at_ s1 i) (at_ s2 i))
    [⟨u.masterRec, lo, o.map (·.1)⟩, ⟨u.state1Rec, lo, o.map (·.2.1)⟩, ⟨u.state2Rec, lo, o.map (·.2.2)⟩]
  | .signm =>
    let o := (List.range len).map (fun i => signm s (at_ ws i) (at_ gs i) (at_ s1 i))
    [⟨u.masterRec, lo, o.map (·.1)⟩, ⟨u.state1Rec, lo, o.map (·.2)⟩]
  | .factored =>
    let r0 := lo / u.rowLen
    let c0 := shard * u.rowLen
    let o := factored s u.rowLen ws gs (vals u.state1Rec r0 (len / u.rowLen)) (vals u.state2Rec c0 u.rowLen)
    [⟨u.masterRec, lo, o.1⟩, ⟨u.state1Rec, r0, o.2.1⟩, ⟨u.state2Rec, c0, o.2.2⟩]

/-- Write FP32 values of a record by its path, with the counts of R81. -/
def Mod.writeF32 (m : Mod) (r first : Nat) (vs : List F32) : Mod :=
  match m.plan.plan.bind (fun p => p.alloc r) with
  | some a => (m.roundWrites (storeF32 a first vs)).tallyR81 ((vs.filter (fun v => !F32.isFinite v)).length) 0
  | none => m

/-- A rule shard (spec 12, R395): the new weights and states, the copy for the gather, the counter block of shard 0, the
CRC of the weights (spec 13, R429). -/
def Mod.ruleShard (m : Mod) (u : UpdDesc) (s : Scalars) (ctr : Alloc) (shard : Nat) : Mod :=
  let lo := shard * u.shardElems
  let len := min u.shardElems (u.elems - lo)
  let parts := m.ruleParts u s shard lo len
  let w' := (parts.head?.map (·.vals)).getD []
  let m := parts.foldl (fun m p => m.writeF32 p.rec_ p.first p.vals) m
  let m := if u.versionSet = 0xFFFF then m else m.writeF32 u.gatherRec lo w'
  let m := if shard = 0 then m.roundWrite ctr.base s.block else m
  let m := m.tally Cnt.updateElems len
  { m with run := { m.run with shardCrc := SMap.ins shard (crc64 (f32Bytes w')) m.run.shardCrc } }

/-- Elements [lo, lo + n) of a record, stored row by row. -/
def storeElems (a : Alloc) (w : FmtWord) (key : SrKey) : Nat → Nat → List F32 → Stored
  | 0, _, _ => Stored.none
  | fuel + 1, lo, vs =>
    if vs.isEmpty then Stored.none
    else
      let n := a.cols - lo % a.cols
      (storeRow a w key (lo / a.cols) (lo % a.cols) lo (vs.take n)).join (storeElems a w key fuel (lo + n) (vs.drop n))

/-- A refresh shard (spec 12, R395): elements of the full tensor into the target slot. -/
def Mod.refreshShard (m : Mod) (u : UpdDesc) (shard : Nat) : Mod :=
  match m.plan.plan with
  | none => m
  | some p =>
    match p.vset u.versionSet, m.run.target, m.operand u.fullRec with
    | some v, some t, some full =>
      match p.alloc (v.slotRec + t.slot) with
      | some a =>
        let lo := (shard - u.ruleShards) * u.shardElems
        let len := min u.shardElems (full.elems - lo)
        m.store (storeElems a a.fw (m.srKey v.srTensorId) len lo (m.elems full lo len))
      | none => m
    | _, _, _ => m

/-! ### The digest message (spec 13, R429) -/

/-- The CRCs of all rule shards in order; none while one is missing. -/
def Mod.shardCrcs (m : Mod) (n : Nat) : Option (List Dword) :=
  if m.run.shardCrc.length = n then some (m.run.shardCrc.map (·.2)) else none

/-- The 64 bytes of the message. -/
def Mod.digestMessage (m : Mod) (u : UpdDesc) (crcs : List Dword) : Bytes :=
  let step := leBytes 4 m.step.reg.step.toNat
  let digest := shake256 32 (step ++ leBytes 4 u.elems ++ (crcs.map (fun c => leBytes 8 c.toNat)).flatten)
  leBytes 2 Config.position ++ leBytes 2 m.tests.interval ++ leBytes 4 m.run.serial.toNat ++ step
    ++ leBytes 4 (m.planId % 2 ^ 32) ++ leBytes 4 u.elems ++ leBytes 2 u.ruleShards ++ zeros 10 ++ digest

/-- The last rule shard of a binding round writes the message into the source record of its ALL_GATHER. -/
def Mod.finishDigest (m : Mod) (u : UpdDesc) : Mod :=
  match m.plan.plan, m.hdr with
  | some p, some r =>
    match p.digestOf r, m.shardCrcs u.ruleShards with
    | some (coll, _), some crcs =>
      match (p.colls[coll]?).bind (fun c => p.alloc c.srcRec) with
      | some a => m.roundWrite a.base (m.digestMessage u crcs ++ zeros 3520)
      | none => m
    | _, _ => m
  | _, _ => m

/-- UPDATE_SHARD_COMPLETE (spec 12, R395): k_part is the shard. -/
def Mod.updateComplete (m : Mod) (i : Nat) : Mod :=
  match m.wpEntry i, m.plan.plan, m.hdr with
  | some w, some p, some r =>
    if m.running && (m.ent i).st == .running && w.engine == .update then
      match p.updateOf r with
      | none => m
      | some (_, u) =>
        match p.groupRec u.group, p.alloc u.ctrRec with
        | some g, some ctr =>
          let m :=
            if w.kPart < u.ruleShards then
              let s := m.scalars u g ctr
              (m.ruleShard u s ctr w.kPart).finishDigest u
            else m.refreshShard u w.kPart
          (m.signalDone i w).toDone i
        | _, _ => m
    else m
  | _, _, _ => m

def execUpdateShardComplete (item : Nat) (s : State) : Out := .next (s.event (fun m => m.updateComplete item))

end Sys2Proof.Machine
end

