-- ==== Sys2Proof/Machine/Routes.lean ====
section
/-! DEFINITION. Routes (spec 09, R278 to R298, R306): the choice of experts, count and grant frames, dispatch, return,
combine. -/
namespace Sys2Proof.Machine

/-! ### Parts of a route -/

/-- E (spec 09, R283). -/
def RouteDesc.experts (d : RouteDesc) : Nat := d.h * d.group.length
/-- Rank of a member word in the group. -/
def RouteDesc.rankOf (d : RouteDesc) (w : Nat) : Nat := d.group.findIdx (fun x => x == w)

/-- An expert that stands for no choice: a token at or above n, or a REUSE choice that was not admitted. -/
def noExpert : Nat := 0xFFFF

/-! ### Choosing experts (spec 09, R284 to R288, R298) -/

/-- The token count n, and whether it was clamped (spec 09, R284). -/
def Mod.routeTokens (m : Mod) (d : RouteDesc) : Nat × Bool :=
  if d.countAddr = 0 then (d.tokens, false)
  else
    let v := m.rdNat d.countAddr 4
    (min v d.tokens, decide (d.tokens < v))

/-- route_mix (spec 09, R285). -/
def routeMix (key salt : Dword) : Dword :=
  let z := key ^^^ salt
  let z := (z ^^^ (z >>> 33)) * 0xC2B2AE3D27D4EB4F#64
  let z := (z ^^^ (z >>> 29)) * 0x94D049BB133111EB#64
  z ^^^ (z >>> 32)

/-- The expert of a key (spec 09, R285). -/
def hashExpert (key salt : Dword) (e : Nat) : Nat := (routeMix key salt).toNat / 2 ^ 32 * e / 2 ^ 32

/-- A score as TOPK compares it: -0 becomes +0. -/
def plainScore (x : F32) : F32 := if F32.isZero x then F32.zero else x

/-- Score a stands before score b, both at their expert index (spec 09, R286). -/
def scoreBefore (a b : F32 × Nat) : Bool :=
  if F32.isNan a.1 then F32.isNan b.1 && decide (a.2 < b.2)
  else if F32.isNan b.1 then true
  else if F32.lt b.1 a.1 then true
  else if F32.lt a.1 b.1 then false
  else decide (a.2 < b.2)

/-- Insert into a list in the order of R286. -/
def insertScore (x : F32 × Nat) : List (F32 × Nat) → List (F32 × Nat)
  | [] => [x]
  | y :: l => if scoreBefore x y then x :: y :: l else y :: insertScore x l

/-- The k experts of a token with their scores (spec 09, R286). -/
def topExperts (k : Nat) (scores : List F32) : List (F32 × Nat) :=
  ((scores.zipIdx.map (fun s => (plainScore s.1, s.2))).foldl (fun l s => insertScore s l) []).take k

/-- The weights of a token's choices (spec 09, R287). -/
def weightsOf (mode : WeightMode) (scores : List F32) : List F32 :=
  match mode with
  | .unit => scores.map (fun _ => F32.one)
  | .score => scores.map (fun s => if F32.isNan s then F32.nan else s)
  | .norm => let total := F32.chain scores; scores.map (fun s => F32.div s total)

/-- The choices of token t below n. -/
def Mod.chooseToken (m : Mod) (d : RouteDesc) (t : Nat) : List (Nat × F32) :=
  match d.mode with
  | .hash =>
    match m.operand d.keyRec with
    | some a => [(hashExpert (BitVec.ofNat 64 (m.rdNat (a.base + 8 * t) 8)) (BitVec.ofNat 64 d.salt) d.experts, F32.one)]
    | none => []
  | .topk =>
    match m.operand d.scoreRec with
    | some a =>
      let top := topExperts d.k ((List.range d.experts).map (fun e => F32.ofNum (m.value a t e)))
      (top.map (·.2)).zip (weightsOf d.weightMode (top.map (·.1)))
    | none => []
  | .reuse =>
    match m.operand d.tableRec with
    | some a => (List.range d.k).map (fun c =>
        let at_ := a.base + (t * d.k + c) * 8
        let admitted := m.rdNat (at_ + 1) 1 == 0
        (if admitted then m.rdNat at_ 1 else noExpert, BitVec.ofNat 32 (m.rdNat (at_ + 4) 4)))
    | none => []

/-- Requests to the home of a rank: tokens whose choices include each of its experts (spec 09, R289). A request has 16 bits;
capacity does not exceed them, so a larger one saturates. -/
def requestsTo (d : RouteDesc) (choices : List (List (Nat × F32))) (rank : Nat) : List Nat :=
  (List.range d.h).map (fun x =>
    min 0xFFFF ((choices.filter (fun cs => cs.any (fun c => c.1 == rank * d.h + x))).length))

/-! ### Frames (spec 09, R289, R290) -/

/-- Bytes of a frame. -/
def frameBytes (d : RouteDesc) : Nat := 16 + 4 * d.h

/-- Sum of the requests of the ranks below s for local expert x. -/
def requestsBelow (req : SMap (List Nat)) (x s : Nat) : Nat :=
  ((List.range s).map (fun q => ((SMap.get [] req q).getD x 0))).sum

/-- Grant and base for a source (spec 09, R289). -/
def grantFor (d : RouteDesc) (req : SMap (List Nat)) (s : Nat) : List (Nat × Nat) :=
  (List.range d.h).map (fun x =>
    let base := min d.capacity (requestsBelow req x s)
    (min ((SMap.get [] req s).getD x 0) (d.capacity - base), base))

/-- count_x of each local expert. -/
def homeCounts (d : RouteDesc) (req : SMap (List Nat)) : List Nat :=
  (List.range d.h).map (fun x => min d.capacity (requestsBelow req x d.group.length))

/-! ### Admission (spec 09, R291) -/

/-- The status of a choice: admitted at a position, dropped, or no choice. -/
inductive Choice where
  | admitted (pos : Nat)
  | dropped
  | none
  deriving DecidableEq, Repr

/-- Tokens below t whose choices include expert e. -/
def earlier (choices : List (List (Nat × F32))) (t e : Nat) : Nat :=
  ((choices.take t).filter (fun cs => cs.any (fun c => c.1 == e))).length

/-- What becomes of choice c of token t (spec 09, R291). -/
def RouteRun.choice (x : RouteRun) (d : RouteDesc) (t c : Nat) : Choice :=
  match (x.choices.getD t [])[c]? with
  | none => .none
  | some (e, _) =>
    if e = noExpert then .none
    else
      let g := (SMap.get [] x.grants (e / d.h)).getD (e % d.h) (0, 0)
      let q := earlier x.choices t e
      if q < g.1 then .admitted (g.2 + q) else .dropped

/-- Weight of a choice; +0 where there is none. -/
def RouteRun.weight (x : RouteRun) (t c : Nat) : F32 := (((x.choices.getD t [])[c]?).map (·.2)).getD F32.zero
def RouteRun.expert (x : RouteRun) (t c : Nat) : Nat := (((x.choices.getD t [])[c]?).map (·.1)).getD noExpert

/-- Every (token, choice) in order. -/
def RouteDesc.slots (d : RouteDesc) : List (Nat × Nat) :=
  ((List.range d.tokens).map (fun t => (List.range d.k).map (fun c => (t, c)))).flatten

/-- The route table entry (spec 09, R288). -/
def RouteRun.tableEntry (x : RouteRun) (d : RouteDesc) (t c : Nat) : Bytes :=
  match x.choice d t c with
  | .admitted p => [BitVec.ofNat 8 (x.expert t c), 0] ++ leBytes 2 p ++ leBytes 4 (x.weight t c).toNat
  | .dropped => [BitVec.ofNat 8 (x.expert t c), 1] ++ leBytes 2 0 ++ leBytes 4 (x.weight t c).toNat
  | .none => [0xFF#8, 2] ++ leBytes 2 0 ++ leBytes 4 0

/-- Byte t of the drop mask. -/
def RouteRun.maskByte (x : RouteRun) (d : RouteDesc) (t : Nat) : Byte :=
  BitVec.ofNat 8 (((List.range d.k).map (fun c => if x.choice d t c = .dropped then 2 ^ c else 0)).sum)

/-- Write table and mask, count and note the drops. A REUSE route repeats a table that stands already (spec 09, R298). -/
def Mod.routeTable (m : Mod) (i : Nat) (d : RouteDesc) : Mod :=
  let x := m.route i
  if d.mode = .reuse then m
  else
    let drops := d.slots.filter (fun s => x.choice d s.1 s.2 == Choice.dropped)
    let m := match m.plan.plan.bind (fun p => p.alloc d.tableRec) with
      | some a => m.roundWrite a.base ((d.slots.map (fun (s : Nat × Nat) => x.tableEntry d s.1 s.2)).flatten)
      | none => m
    let m := match m.plan.plan.bind (fun p => p.alloc d.maskRec) with
      | some a => m.roundWrite a.base ((List.range d.tokens).map (x.maskByte d))
      | none => m
    match drops with
    | [] => m
    | s :: _ => (m.tally Cnt.routeDropped drops.length).condition ⟨Detail.tokenDropped, i, 0, drops.length, s.1, s.2⟩

/-- A grant frame is here; once all are, the source admits and dispatch starts. -/
def Mod.takeGrant (m : Mod) (i : Nat) (d : RouteDesc) (home : Nat) (g : List (Nat × Nat)) : Mod :=
  let m := m.setRoute i (fun x => { x with grants := SMap.put [] x.grants home g })
  if (m.route i).st = .counting ∧ (m.route i).grants.length = d.group.length then
    (m.routeTable i d).setRoute i (fun x => { x with st := .dispatching, late := false })
  else m

/-- A count frame is here; once all are, the home admits and sends its grant frames. -/
def Mod.takeCount (m : Mod) (i : Nat) (d : RouteDesc) (source : Nat) (req : List Nat) : Mod :=
  let m := m.setRoute i (fun x => { x with requests := SMap.put [] x.requests source req })
  let x := m.route i
  if x.counts = [] ∧ x.requests.length = d.group.length then
    let counts := homeCounts d x.requests
    let m := m.setRoute i (fun x => { x with counts := counts })
    let m := m.tally Cnt.routeEmptyExpert (counts.filter (fun c => c == 0)).length
    d.group.zipIdx.foldl (fun m e =>
      let g := grantFor d x.requests e.2
      if e.1 = Config.position then m.takeGrant i d (d.rankOf Config.position) g
      else m.sendPacket e.1 (.grant e.1 ⟨Config.position, i, m.run.serial, g⟩) (frameBytes d)) m
  else m

/-- ROUTE_START (spec 09, R280, R284 to R289): the gate passes, the source chooses and sends its count frames. -/
def Mod.routeStart (m : Mod) (i : Nat) : Mod :=
  match m.routeDesc i with
  | none => m
  | some d =>
    if m.running && (m.route i).st == .idle && m.flagMet d.startFlag d.startValue then
      let n := m.routeTokens d
      let choices := (List.range n.1).map (m.chooseToken d)
      let odd := ((choices.flatten).filter (fun c => c.1 != noExpert && !F32.isFinite c.2)).length
      let m := m.setRoute i (fun x => { x with st := .counting, n := n.1, choices := choices })
      let m := (m.tally Cnt.routeTokens n.1).tally Cnt.routeCountClamp (b2n n.2)
      let m := if d.mode = .reuse then m else m.tally Cnt.nonfinite odd
      d.group.zipIdx.foldl (fun m e =>
        let req := requestsTo d choices e.2
        if e.1 = Config.position then m.takeCount i d (d.rankOf Config.position) req
        else m.sendPacket e.1 (.count e.1 ⟨Config.position, i, m.run.serial, req.map (fun r => (r, 0))⟩) (frameBytes d)) m
    else m

def execRouteStart (route : Nat) (s : State) : Out := .next (s.event (fun m => m.routeStart route))

/-- The route that a frame belongs to, if its sender is another member of the group and its serial is the open round's
(spec 09, R290). -/
def Mod.frameRoute (m : Mod) (f : Frame) : Option RouteDesc :=
  if m.run.phase = .run ∧ f.serial = m.run.serial then
    (m.routeDesc f.route).bind (fun d => if f.sender ∈ d.group then some d else none)
  else none

/-- COUNT_FRAME (spec 09, R289). -/
def Mod.countFrame (m : Mod) (f : Frame) : Mod :=
  match m.frameRoute f with
  | some d => (m.takeCount f.route d (d.rankOf f.sender) (f.entries.map (·.1))).seePacket f.sender
  | none => m.dropEmber

def execCountFrame (frame : Frame) (s : State) : Out := .next (s.event (fun m => m.countFrame frame))

/-- GRANT_FRAME (spec 09, R291). -/
def Mod.grantFrame (m : Mod) (f : Frame) : Mod :=
  match m.frameRoute f with
  | some d => (m.takeGrant f.route d (d.rankOf f.sender) f.entries).seePacket f.sender
  | none => m.dropEmber

def execGrantFrame (frame : Frame) (s : State) : Out := .next (s.event (fun m => m.grantFrame frame))

/-! ### Dispatch (spec 09, R292 to R295) -/

/-- Give writes to a member: by the round's path to this module, otherwise as ember packets. The records of another member
are taken to lie where this module's do (assumption log 18). -/
def Mod.giveRows (m : Mod) (dst : Nat) (ws : List (Nat × Bytes)) : Mod :=
  let ws := mergeRuns ws
  if dst = Config.position then m.roundWrites ws
  else ws.foldl (fun m w =>
    (chunks 3824 w.2).zipIdx.foldl (fun m c => m.sendPacket dst (.data dst true (w.1 + 3824 * c.2) c.1) c.1.length) m) m

/-- The writes that copy row t of a record to row p of another, bit for bit. -/
def Mod.copyRow (m : Mod) (a b : Alloc) (t p : Nat) : List (Nat × Bytes) :=
  (b.addr p 0, m.rdBytes (a.addr t 0) a.rowBytes)
    :: (if a.fw.fmt = .fp4b then [(b.scaleAddr p 0, m.rdBytes (a.scaleAddr t 0) (a.s0 / 32))] else [])

/-- The writes of an admitted choice: its vector and its header. -/
def Mod.dispatchRow (m : Mod) (i : Nat) (d : RouteDesc) (t c e p : Nat) (w : F32) : List (Nat × Bytes) :=
  match m.plan.plan with
  | none => []
  | some pl =>
    match m.operand d.inRec, pl.alloc (d.qvecRec + e % d.h), pl.alloc (d.qhdrRec + e % d.h) with
    | some a, some v, some q =>
      let vec :=
        if !d.scaleDispatch && a.fw.fmt == v.fw.fmt then m.copyRow a v t p
        else
          let xs := (List.range v.cols).map (fun j =>
            let x := m.elem a (t * a.cols + j)
            if d.scaleDispatch then F32.mul w x else x)
          (storeRow v v.fw (m.srKey v.tensorId) p 0 (p * v.cols) xs).writes
      let hdr := leBytes 4 t ++ leBytes 2 Config.position ++ [BitVec.ofNat 8 c, 1, BitVec.ofNat 8 e, 0] ++ leBytes 2 i
        ++ leBytes 4 m.run.serial.toNat
      vec ++ [(q.base + 16 * p, hdr)]
    | _, _, _ => []

/-- The writes of a source's rows to a home. -/
def Mod.dispatchRows (m : Mod) (i : Nat) (d : RouteDesc) (home : Nat) : List (Nat × Bytes) :=
  let x := m.route i
  let rows := d.slots.filterMap (fun s =>
    match x.choice d s.1 s.2 with
    | .admitted p => if x.expert s.1 s.2 / d.h = d.rankOf home then some (s, p) else none
    | _ => none)
  (rows.map (fun (r : (Nat × Nat) × Nat) =>
    m.dispatchRow i d r.1.1 r.1.2 (x.expert r.1.1 r.1.2) r.2 (x.weight r.1.1 r.1.2))).flatten

/-- DISPATCH_VISIBLE (spec 09, R294, R295): a source's rows to a home are visible and the home's dispatch_flag is
incremented. -/
def Mod.dispatchVisible (m : Mod) (i home : Nat) : Mod :=
  match m.routeDesc i with
  | none => m
  | some d =>
    let x := m.route i
    if m.running && x.st == .dispatching && decide (home ∈ d.group) && decide (home ∉ x.sent) then
      let m := (m.giveRows home (m.dispatchRows i d home)).sendFlag home d.dispatchFlag
      m.setRoute i (fun x =>
        let sent := x.sent ++ [home]
        { x with sent := sent, st := if sent.length = d.group.length then .returning else x.st })
    else m

def execDispatchVisible (route home : Nat) (s : State) : Out := .next (s.event (fun m => m.dispatchVisible route home))

/-! ### Return and combine (spec 09, R296, R297) -/

/-- RETURN_START (spec 09, R296): out_flag has passed out_value at this home. -/
def Mod.returnStart (m : Mod) (i : Nat) : Mod :=
  match m.routeDesc i with
  | none => m
  | some d =>
    if m.running && (m.route i).counts != [] && !(m.route i).ret && m.flagMet d.outFlag d.outValue then
      m.setRoute i (fun x => { x with ret := true })
    else m

def execReturnStart (route : Nat) (s : State) : Out := .next (s.event (fun m => m.returnStart route))

/-- The rows that this home returns to a source. -/
def Mod.returnRows (m : Mod) (d : RouteDesc) (counts : List Nat) (source : Nat) : List (Nat × Bytes) :=
  match m.plan.plan with
  | none => []
  | some pl =>
    (counts.zipIdx.map (fun cx =>
      match pl.alloc (d.qhdrRec + cx.2), pl.alloc (d.qoutRec + cx.2), pl.alloc d.retRec with
      | some q, some o, some ret =>
        ((List.range cx.1).map (fun p =>
          let at_ := q.base + 16 * p
          if m.rdNat (at_ + 4) 2 = source then m.copyRow o ret p (m.rdNat at_ 4 * d.k + m.rdNat (at_ + 6) 1) else [])).flatten
      | _, _, _ => [])).flatten

/-- RETURN_VISIBLE (spec 09, R296): a home's rows are visible at a source, whose return_flag is incremented. -/
def Mod.returnVisible (m : Mod) (i source : Nat) : Mod :=
  match m.routeDesc i with
  | none => m
  | some d =>
    let x := m.route i
    if m.running && x.ret && decide (source ∈ d.group) && decide (source ∉ x.returned) then
      let m := (m.giveRows source (m.returnRows d x.counts source)).sendFlag source d.returnFlag
      m.setRoute i (fun x => { x with returned := x.returned ++ [source] })
    else m

def execReturnVisible (route source : Nat) (s : State) : Out := .next (s.event (fun m => m.returnVisible route source))

/-- COMBINE_START (spec 09, R297): return_flag has reached the member count. -/
def Mod.combineStart (m : Mod) (i : Nat) : Mod :=
  match m.routeDesc i with
  | none => m
  | some d =>
    if m.running && (m.route i).st == .returning && m.flagMet d.returnFlag d.group.length then
      m.setRoute i (fun x => { x with st := .combining })
    else m

def execCombineStart (route : Nat) (s : State) : Out := .next (s.event (fun m => m.combineStart route))

/-- One element of a token's output (spec 09, R297). -/
def Mod.combineAt (m : Mod) (d : RouteDesc) (x : RouteRun) (ret : Alloc) (t j : Nat) : F32 :=
  (List.range d.k).foldl (fun acc c =>
    match x.choice d t c with
    | .admitted _ =>
      let r := m.elem ret ((t * d.k + c) * ret.cols + j)
      if d.weightedCombine then F32.fma (x.weight t c) r acc else F32.add acc r
    | _ => acc) F32.zero

/-- The writes of a route's output. -/
def Mod.combineRows (m : Mod) (d : RouteDesc) (x : RouteRun) (ret out : Alloc) : List (Nat × Bytes) :=
  let rows := (List.range d.tokens).map (fun t =>
    storeRow out out.fw (m.srKey out.tensorId) t 0 (t * out.cols) ((List.range out.cols).map (m.combineAt d x ret t)))
  mergeRuns (Stored.all rows).writes

/-- ROUTE_COMBINE_COMPLETE (spec 09, R297). -/
def Mod.routeCombine (m : Mod) (i : Nat) : Mod :=
  match m.routeDesc i, m.plan.plan with
  | some d, some p =>
    let x := m.route i
    match p.alloc d.retRec, p.alloc d.outRec with
    | some ret, some out =>
      if m.running && x.st == .combining then
        let m := m.roundWrites (m.combineRows d x ret out)
        (m.incFlag d.combineFlag 1).setRoute i (fun x => { x with st := .done })
      else m
    | _, _ => m
  | _, _ => m

def execRouteCombineComplete (route : Nat) (s : State) : Out := .next (s.event (fun m => m.routeCombine route))

/-! ### Waits past their timeout (spec 09, R306; spec 10, R343) -/

/-- ROUTE_TIMEOUT (spec 09, R306): the record and the suspects; the wait goes on. -/
def Mod.routeTimeout (m : Mod) (i : Nat) : Mod :=
  match m.routeDesc i with
  | none => m
  | some d =>
    let gone := (m.routeMissing d (m.route i)).filter (fun w => w != Config.position)
    if m.running && !(m.route i).late && !gone.isEmpty then
      let m := m.setRoute i (fun x => { x with late := true })
      (m.timeoutRecord Detail.routeTimeout i gone).raiseSuspects gone .noFrame i
    else m

def execRouteTimeout (route : Nat) (s : State) : Out := .next (s.event (fun m => m.routeTimeout route))

/-! ### Mask generators (spec 09, R303 to R305) -/

/-- Mask generator i, if the open round runs it. -/
def Mod.maskDesc (m : Mod) (i : Nat) : Option MaskGen :=
  match m.plan.plan, m.hdr with
  | some p, some r => (p.routesOf r).findSome? (fun e => if e.1 = i then (match e.2 with | .mask g => some g | _ => none) else none)
  | _, _ => none

/-- Segment id of a key position. -/
def Mod.segId (m : Mod) (g : MaskGen) (p : Nat) : Nat := match m.operand g.segRec with | some a => m.rdNat (a.base + 4 * p) 4 | none => 0

/-- Key j is visible to the query at position p (spec 09, R304). -/
def Mod.visible (m : Mod) (g : MaskGen) (p j : Nat) : Bool :=
  match g.pattern with
  | .causal => decide (j ≤ p)
  | .window => decide (p ≤ j + g.windowLeft) && decide (j ≤ p + g.windowRight)
  | .document => m.segId g j == m.segId g p
  | .documentCausal => m.segId g j == m.segId g p && decide (j ≤ p)

/-- The stored positions of output row r. -/
def Mod.maskRow (m : Mod) (g : MaskGen) (r : Nat) : List Nat :=
  (List.range g.colCount).filter (fun c => m.visible g (g.qOffset + g.row0 + r) (g.col0 + c))

/-- The writes of row r, and the positions that did not fit. -/
def Mod.maskWrites (m : Mod) (g : MaskGen) (a : Alloc) (r : Nat) : List (Nat × Bytes) × List Nat :=
  let e := ((spFmt g.vfmt).getD .fp32).width / 8
  let ps := m.maskRow g r
  let codes := ps.map (fun p => (p, 0))
  let keep := fitPrefix g.colCount e (g.rowSlot * 64) codes
  let off := rlzDirBytes g.rowCount + r * g.rowSlot * 64
  ([(a.base + 8 * r, rlzEntry keep off), (a.base + off, fill64 (rlzEncode g.colCount e (codes.take keep)))], ps.drop keep)

/-- The rows of a mask with their writes and the positions that did not fit. -/
def Mod.maskRows (m : Mod) (g : MaskGen) (a : Alloc) : List (Nat × List (Nat × Bytes) × List Nat) :=
  (List.range g.rowCount).map (fun r => (r, m.maskWrites g a r))

/-- What a mask generator writes: the row directory's padding (spec 08, R245), then each row's entry and data. -/
def Mod.maskOutput (m : Mod) (g : MaskGen) (a : Alloc) : List (Nat × Bytes) :=
  let n := 8 * g.rowCount
  (a.base + n, zeros (rlzDirBytes g.rowCount - n)) :: ((m.maskRows g a).map (fun r => r.2.1)).flatten

/-- Count and note the positions that did not fit (spec 09, R305). -/
def Mod.noteLost (m : Mod) (i : Nat) (rows : List (Nat × List (Nat × Bytes) × List Nat)) : Mod :=
  match rows.find? (fun r => !r.2.2.isEmpty) with
  | some r =>
    let lost := (rows.map (fun r => r.2.2.length)).sum
    (m.tally Cnt.maskDropped lost).condition ⟨Detail.indexRange, i, 0, lost, r.1, r.2.2.headD 0⟩
  | none => m

/-- Mask generator i is done. -/
def Mod.endMask (m : Mod) (i : Nat) : Mod := { m with run := { m.run with masks := m.run.masks ++ [i] } }

/-- MASK_GENERATE_COMPLETE (spec 09, R304, R305). -/
def Mod.maskDone (m : Mod) (i : Nat) : Mod :=
  match m.maskDesc i with
  | none => m
  | some g =>
    match m.plan.plan.bind (fun p => p.alloc g.outRec) with
    | none => m
    | some a =>
      if m.running && decide (i ∉ m.run.masks) then
        (((m.roundWrites (m.maskOutput g a)).noteLost i (m.maskRows g a)).incFlag g.doneFlag 1).endMask i
      else m

def execMaskGenerateComplete (mask : Nat) (s : State) : Out := .next (s.event (fun m => m.maskDone mask))

end Sys2Proof.Machine
end

