-- ==== Sys2Proof/Machine/CollEvents.lean ====
section
/-! DEFINITION. Events of collectives (spec 11, R351, R359 to R370): start, completion, a chunk past its timeout. -/
namespace Sys2Proof.Machine

/-- The contribution of a module is empty (spec 11, R364): count_x of the named expert, as the route of this round or of its
last settled round left it, is 0. -/
def Mod.emptyContribution (m : Mod) (c : Coll) : Bool :=
  if c.emptyRoute = 0xFFFF then false
  else
    let now := (m.route c.emptyRoute).counts
    let counts := if now.isEmpty then SMap.get [] m.plan.routeCounts c.emptyRoute else now
    counts[c.emptyExpert]? == some 0

/-- Chunk indices of rank q's shard in a gathered destination. -/
def Coll.shardList (c : Coll) (q : Nat) : List Nat := (List.range c.shardChunks).map (fun j => q * c.shardChunks + j)

/-- Copy E elements of the source record to position `first` of the destination. -/
def Mod.copyShard (m : Mod) (c : Coll) (first : Nat) : Mod :=
  match m.operand c.srcRec, m.operand c.dstRec with
  | some a, some b => m.roundWrites (storeF32 b first (m.elems a 0 c.shardElems))
  | _, _ => m

def Mod.markHere (m : Mod) (i : Nat) (l : List Nat) : Mod :=
  m.setColl i (fun x => { x with here := x.here ++ l.filter (fun g => g ∉ x.here) })

/-- What a started collective does first (spec 11, R359 to R362, R369); local operations work at their completion. -/
def Mod.collBegin (m : Mod) (p : Plan) (i : Nat) (c : Coll) : Mod :=
  let q := p.rankIn c
  match c.op with
  | .reduceScatter => if c.stages = [] then m.copyShard c 0 else m.startReduce p i c (m.emptyContribution c)
  | .allReduce =>
    if c.stages = [] then (m.copyShard c 0).markHere i (c.shardList 0) else m.startReduce p i c (m.emptyContribution c)
  | .allGather => ((m.copyShard c (q * c.shardElems)).markHere i (c.shardList q)).gather i c
  | .normFinite =>
    let v := m.normPair p c
    if c.stages = [] then
      match m.operand c.dstRec with
      | some a => m.roundWrite a.base (normBytes v)
      | none => m
    else Mod.tryNorm 3 (m.sendPair p i c c.firstStage v) p i c c.firstStage
  | _ => m

/-- COLLECTIVE_START (spec 11, R351, R353): the start flag has passed. -/
def Mod.collStart (m : Mod) (i : Nat) : Mod :=
  match m.plan.plan, m.collDesc i with
  | some p, some c =>
    if m.running && !(m.coll i).started && m.flagMet c.startFlag c.startValue then
      let e := m.emptyContribution c
      (m.setColl i (fun x => { x with started := true, empty := e })).collBegin p i c
    else m
  | _, _ => m

def execCollectiveStart (coll : Nat) (s : State) : Out := .next (s.event (fun m => m.collStart coll))

/-- A collective of the fabric has its result, and has sent its part of the others' (spec 10, R332; spec 11, R359, R362,
R369). -/
def Mod.collReady (m : Mod) (p : Plan) (i : Nat) (c : Coll) : Bool :=
  let x := m.coll i
  match c.stages.getLast?, c.op with
  | none, _ => true
  | some _, .reduceScatter =>
    c.stages.all (fun s => (List.range ((c.gets s (p.rankIn c)).length * c.shardChunks)).all (fun j => sumKey s j ∈ x.summed))
  | some s, .normFinite => sumKey s 0 ∈ x.summed
  | some _, .allReduce => (List.range (c.p * c.shardChunks)).all (fun g => g ∈ x.here)
  | some _, .allGather => (List.range (c.p * c.shardChunks)).all (fun g => g ∈ x.here)
  | some _, _ => true

/-- What a local operation writes (spec 11, R365 to R367). -/
def Mod.localOp (m : Mod) (c : Coll) : Mod :=
  match m.operand c.dstRec with
  | none => m
  | some a =>
    match c.op with
    | .tieSum =>
      let ins := (List.range c.uses).filterMap (fun u => (m.operand (c.srcRec + u)).map (fun s => m.elems s 0 a.elems))
      m.roundWrites (storeF32 a 0 (tieSum ins c.subLast))
    | .seed =>
      let seed := (m.plan.plan.map (·.seed)).getD 0
      m.roundWrites (storeF32 a 0 ((List.range a.elems).map (seedElem seed a.tensorId)))
    | .ortho =>
      let cols := (List.range a.cols).map (fun j => (List.range a.rows).map (fun x => m.f32At a x j))
      let o := orthoCols [] cols 0
      let vals := ((List.range a.rows).map (fun x => o.1.map (fun col => col.getD x F32.zero))).flatten
      (m.roundWrites (storeF32 a 0 vals)).tally Cnt.orthoZero o.2
    | _ => m

/-- COLLECTIVE_COMPLETE (spec 11, R370; spec 10, R332): the destination is visible; done_flag and signals. -/
def Mod.collComplete (m : Mod) (i : Nat) : Mod :=
  match m.plan.plan, m.collDesc i with
  | some p, some c =>
    let x := m.coll i
    if m.running && x.started && !x.done && m.collReady p i c then
      let m := m.localOp c
      ((m.setColl i (fun x => { x with done := true })).incFlag c.doneFlag 1).sendSignals 3 i
    else m
  | _, _ => m

def execCollectiveComplete (coll : Nat) (s : State) : Out := .next (s.event (fun m => m.collComplete coll))

/-- COLL_TIMEOUT (spec 11, R363): a chunk with a slot here lacks another; the record names the collective and the missing
members, and the wait goes on. -/
def Mod.collTimeout (m : Mod) (i stage chunk : Nat) : Mod :=
  match m.plan.plan, m.collDesc i with
  | some p, some c =>
    let x := m.coll i
    let slots := List.range (c.size stage)
    let gone := slots.filter (fun k => (x.held stage chunk k).isNone)
    if m.running && decide (stage ∈ c.stages) && decide (gone.length < slots.length) && !gone.isEmpty
        && decide (sumKey stage chunk ∉ x.late) then
      let m := m.setColl i (fun x => { x with late := x.late ++ [sumKey stage chunk] })
      m.timeoutRecord Detail.collTimeout i (gone.map (fun k => p.wordOf c (c.peer stage (p.rankIn c) k)))
    else m
  | _, _ => m

def execCollTimeout (coll stage chunk : Nat) (s : State) : Out :=
  .next (s.event (fun m => m.collTimeout coll stage chunk))

end Sys2Proof.Machine
end

