-- ==== Sys2Proof/Machine/Fabric.lean ====
section
/-! DEFINITION. The fabric's commands and the events of channels and of the time base (spec 10, R311 to R321, R327 to
R329, R341, R342, R348, R349). -/
namespace Sys2Proof.Machine

/-! ### Channels -/

/-- Statistics of 32 bits saturate (spec 15, R490). -/
def satInc (n : Nat) : Nat := min 0xFFFFFFFF (n + 1)

/-- The role of the parent that the time base follows; 0xFF for a root. -/
def Fab.parentRole (f : Fab) : Nat := if f.onAlt then f.timeAlt else f.timeParent

/-- The time root: configured without a parent (spec 10, R328, R348). -/
def Fab.isRoot (f : Fab) : Bool := f.configured && f.timeParent == 0xFF

/-- The parent's channel goes down: HOLDOVER (spec 10, R328). -/
def Mod.parentLost (m : Mod) (role : Nat) : Mod :=
  if !m.fab.isRoot ∧ role = m.fab.parentRole ∧ (m.fab.timeState = .locked ∨ m.fab.timeState = .acquiring) then
    { m with fab := { m.fab with timeState := .holdover, good := 0, answered := false } }
  else m

/-- A channel that carried traffic is declared down (spec 10, R341, R342): the record, the suspect, the douse mark if
ember or SUM flits or FLAG_INC messages are not acknowledged (`loose`). -/
def Mod.channelLost (m : Mod) (k : Nat) (loose : Bool) : Mod :=
  let c := m.chan k
  if k < 28 ∧ (c.st = .up ∨ c.st = .shadow) then
    let role := m.roleNow k
    let m := m.setChan k (fun c => { c with st := .down, downs := satInc c.downs, tries := 0 })
    let m := m.parentLost role
    let m := if loose then m.markDouse Douse.fabricLoss else m
    let m := m.reportFault (fabricReport k role 1 0xFF Detail.channelDown Scope.inBound Attn.fault)
    m.raiseSuspect (rolePeer role) .linkDown role
  else m

/-- CHANNEL_DOWN (spec 10, R341). -/
def execChannelDown (channel : Nat) (loose : Bool) (s : State) : Out :=
  .next (s.event (fun m => m.channelLost channel loose))

/-- PEER_SILENCE_TIMEOUT (spec 10, R341). -/
def execPeerSilenceTimeout (channel : Nat) (loose : Bool) (s : State) : Out :=
  .next (s.event (fun m => m.channelLost channel loose))

/-- LANE_FAIL (spec 10, R317): the spare lane, number 8, takes the failed lane's stripe; a second loss takes the channel
down. -/
def Mod.laneFail (m : Mod) (k lane : Nat) (loose : Bool) : Mod :=
  let c := m.chan k
  if 28 ≤ k ∨ 9 ≤ lane ∨ (c.st ≠ .up ∧ c.st ≠ .shadow) then m
  else match c.failedLane with
    | some _ => (m.setChan k (fun c => { c with lanes := c.lanes - 1 })).channelLost k loose
    | none =>
      let switched := decide (lane ≠ 8)
      let m := m.setChan k (fun c => { c with
        failedLane := some lane, lanes := c.lanes - 1,
        laneSwitches := if switched then satInc c.laneSwitches else c.laneSwitches })
      m.reportFault (fabricReport k (m.roleNow k) 0 lane Detail.laneSwitch Scope.inBound Attn.log)

def execLaneFail (channel lane : Nat) (loose : Bool) (s : State) : Out :=
  .next (s.event (fun m => m.laneFail channel lane loose))

/-- SPARE_LANE_ROTATE (spec 10, R317): every 1 ms, while the spare lane carries no stripe of its own. -/
def execSpareLaneRotate (channel : Nat) (s : State) : Out :=
  .next (s.event (fun m =>
    if channel < 28 ∧ (m.chan channel).failedLane = none then
      m.setChan channel (fun c => { c with copyLane := (c.copyLane + 1) % 8 })
    else m))

/-- FLIT_ERROR (spec 10, R320): flits are discarded, a NAK names the last good one. -/
def execFlitError (channel lastGood : Nat) (s : State) : Out :=
  .next (s.event (fun m =>
    if channel < 28 ∧ (m.chan channel).st = .up then
      (m.setChan channel (fun c => { c with recvSeq := lastGood % 4096 })).send (.nak channel (lastGood % 4096))
    else m))

/-- NAK (spec 10, R320): replay from the first unacknowledged flit; a flit that fails three replays in a row takes the
channel down. -/
def Mod.takeNak (m : Mod) (k ackSeq : Nat) (loose : Bool) : Mod :=
  let c := m.chan k
  if k < 28 ∧ c.st = .up then
    let again := decide (0 < c.tries ∧ c.acked = ackSeq % 4096)
    if again ∧ 3 ≤ c.tries then m.channelLost k loose
    else
      (m.setChan k (fun c => { c with
        acked := ackSeq % 4096, tries := if again then c.tries + 1 else 1, replays := min cntMax (c.replays + 1) })).send
        (.replay k ((ackSeq + 1) % 4096))
  else m

def execNak (channel ackSeq : Nat) (loose : Bool) (s : State) : Out :=
  .next (s.event (fun m => m.takeNak channel ackSeq loose))

/-! ### Channel commands -/

/-- state of R349. -/
def ChanSt.code : ChanSt → Nat
  | .down => 0 | .training => 1 | .up => 2 | .shadow => 3 | .disabled => 4

/-- One entry of CHANNEL_STATUS (spec 10, R349). -/
def Mod.channelEntry (m : Mod) (k : Nat) : Bytes :=
  let c := m.chan k
  [BitVec.ofNat 8 k, BitVec.ofNat 8 (m.roleNow k), BitVec.ofNat 8 (ChanSt.code c.st), BitVec.ofNat 8 c.lanes] ++ zeros 4
    ++ leBytes 8 c.fec ++ leBytes 8 c.replays ++ leBytes 4 c.laneSwitches ++ leBytes 4 c.downs

/-- Corrected symbols: no input of the block gives them, so each channel's count grows by a free value (assumption
log 3). -/
def Mod.countFec (m : Mod) : Mod :=
  (List.range 28).foldl (fun m k =>
    let (n, m) := m.draw
    m.setChan k (fun c => { c with fec := min cntMax (c.fec + n) })) m

def channelStatusSpec (h : Cmd) : CmdSpec :=
  { opcode := Op.channelStatus, ownerOnly := false, params := bufParams h 896,
    run := fun m =>
      let m := m.countFec
      Ans.ok (m.writeBuffer h ((List.range 28).map m.channelEntry).flatten) }

/-- CHANNEL_STATUS (spec 10, R349). -/
def execChannelStatus (h : Cmd) (s : State) : Out := .next (runCmd h (channelStatusSpec h) s)

/-- Whether flits of the attempt are unacknowledged when the module takes a channel out itself: a free value
(assumption log 3), asked for only while an attempt runs. -/
def Mod.looseNow (m : Mod) : Bool × Mod :=
  if m.run.phase.runs then
    let (n, m) := m.draw
    (n % 2 == 1, m)
  else (false, m)

/-- CHANNEL_DISABLE takes a channel out. -/
def Mod.disableChannel (m : Mod) (k : Nat) : Mod :=
  let (loose, m) := m.looseNow
  (m.channelLost k loose).setChan k (fun c => { c with st := .disabled, restore := false, trained := false })

/-- CHANNEL_DISABLE (spec 10, R341, R342): mode 0 DISABLE, 1 RESTORE. -/
def execChannelDisable (h : Cmd) (channel mode : Byte) (s : State) : Out :=
  .next (runCmd h
    { opcode := Op.channelDisable, ownerOnly := true, params := plainParams h (decide (27 < channel.toNat) || decide (1 < mode.toNat)),
      run := fun m =>
        if mode = 0 then Ans.ok (m.disableChannel channel.toNat)
        else if (m.chan channel.toNat).st = .disabled then
          Ans.ok (m.setChan channel.toNat (fun c => { c with restore := true }))
        else Ans.rejected m Detail.badState } s)

/-! ### Configuration (spec 10, R348) -/

def timeRoleOk (r : Nat) : Bool := decide (r ≤ 0x15) || r == 0xFF
def reportWordOk (w : Nat) : Bool := decide (w < 2048) || w == 0xFFFF

/-- The parent's channel is up. -/
def Mod.parentUp (m : Mod) : Bool := (m.liveChannel m.fab.parentRole).isSome

/-- The time base after a configuration (spec 10, R328): the root is LOCKED; another module is ACQUIRING with its parent
present. -/
def Mod.configureTime (m : Mod) (epoch : Nat) : Mod :=
  if m.fab.isRoot then { m with fab := { m.fab with timeState := .locked, time := epoch } }
  else if m.parentUp then { m with fab := { m.fab with timeState := .acquiring } }
  else if m.fab.timeState = .free then m
  else { m with fab := { m.fab with timeState := .holdover } }

/-- FABRIC_CONFIGURE (spec 10, R348). -/
def execFabricConfigure (h : Cmd) (position : Half) (timeParent timeAlt : Byte) (reportParent reportAlt : Half)
    (epoch : Dword) (hold : Half) (s : State) : Out :=
  .next (runCmd h
    { opcode := Op.fabricConfigure, ownerOnly := true,
      params := plainParams h (decide (position.toNat ≠ Config.position) || !timeRoleOk timeParent.toNat
        || !timeRoleOk timeAlt.toNat || !reportWordOk reportParent.toNat || !reportWordOk reportAlt.toNat
        || decide (hold.toNat < 5) || decide (1000 < hold.toNat)),
      run := fun m =>
        if m.ctl.state ≠ .ready ∧ m.ctl.state ≠ .halted then Ans.rejected m Detail.badState
        else Ans.ok (({ m with fab := { m.fab with
          configured := true, timeParent := timeParent.toNat, timeAlt := timeAlt.toNat,
          reportParent := reportParent.toNat, reportAlt := reportAlt.toNat, holdUs := hold.toNat,
          onAlt := false, good := 0, stepped := false, answered := false } }).configureTime epoch.toNat) } s)

/-! ### The time base (spec 10, R327 to R329) -/

/-- state of R328, in the order of its table. -/
def TimeSt.code : TimeSt → Nat
  | .free => 0 | .acquiring => 1 | .locked => 2 | .holdover => 3 | .unlocked => 4

/-- θ in whole ns: which neighbour an odd half takes is not stated, so it is free (assumption log 3). -/
def Mod.thetaNs (m : Mod) : Int × Mod :=
  if m.fab.theta2 % 2 = 0 then (m.fab.theta2 / 2, m)
  else
    let (n, m) := m.draw
    ((m.fab.theta2 + (if n % 2 = 1 then 1 else -1)) / 2, m)

def timebaseStatusSpec (h : Cmd) : CmdSpec :=
  { opcode := Op.timebaseStatus, ownerOnly := false, params := plainParams h,
    run := fun m =>
      let (t, m) := m.thetaNs
      Ans.ok m ([BitVec.ofNat 8 (TimeSt.code m.fab.timeState), BitVec.ofNat 8 m.fab.parentRole] ++ zeros 2
        ++ leBytes 4 (unsigned 32 t) ++ leBytes 8 m.fab.time) }

/-- TIMEBASE_STATUS (spec 10, R328). -/
def execTimebaseStatus (h : Cmd) (s : State) : Out := .next (runCmd h (timebaseStatusSpec h) s)

/-- TIME_EXCHANGE (spec 10, R327): 10 µs pass and each channel sends a TIME flit. The slew of at most 50 ppm, half a ns
in 10 µs, is not resolved (assumption log 7). -/
def Mod.timeExchange (m : Mod) : Mod :=
  if m.dataPlane then
    let m := { m with fab := { m.fab with time := (m.fab.time + 10000) % 2 ^ 64 } }
    m.sendAll (((List.range 28).filter (fun k => (m.chan k).st == .up)).map Sent.time)
  else m

def execTimeExchange (s : State) : Out := .next (s.event Mod.timeExchange)

/-- The time base enters LOCKED: a fabric round that waited may open. -/
def Mod.timeLocked (m : Mod) : Mod := ({ m with fab := { m.fab with timeState := .locked } }).tryOpen

/-- The time base enters UNLOCKED (spec 10, R329). -/
def Mod.timeLost (m : Mod) : Mod :=
  let role := m.fab.parentRole
  ({ m with fab := { m.fab with timeState := .unlocked, good := 0, answered := false } }).report
    (fabricReport (channelOf role) role 3 0xFF Detail.timeUnlocked Scope.none Attn.fault)

/-- |θ| is above n ns. -/
def thetaOver (theta2 : Int) (n : Nat) : Bool := decide (2 * n < theta2.natAbs)

/-- An exchange with a parent gives θ. -/
def Mod.steer (m : Mod) (onAlt : Bool) (theta2 : Int) : Mod :=
  let near := !thetaOver theta2 2
  let good := if near ∧ onAlt = m.fab.onAlt then m.fab.good + 1 else if near then 1 else 0
  let m1 := { m with fab := { m.fab with theta2 := theta2, onAlt := onAlt, answered := true, good := good } }
  match m.fab.timeState with
  | .free => { m1 with fab := { m1.fab with timeState := .acquiring, stepped := false, good := 0 } }
  | .acquiring => if m.fab.stepped ∧ 16 ≤ good then m1.timeLocked else m1
  | .locked =>
    if thetaOver theta2 25 then { m1 with fab := { m1.fab with timeState := .acquiring, stepped := false, good := 0 } }
    else m1
  | .holdover => if thetaOver theta2 25 then m1.timeLost else if 16 ≤ good then m1.timeLocked else m1
  | .unlocked => { m1 with fab := { m1.fab with timeState := .acquiring, stepped := false, good := 0 } }

/-- Whether the exchange on a role is one with the parent in use, or, with no parent, with the other one (spec 10,
R329): whether it is the alternate's. -/
def Fab.parentOf (f : Fab) (role : Nat) : Option Bool :=
  let seeking := f.timeState == .holdover || f.timeState == .unlocked
  if !f.configured || f.timeParent == 0xFF then none
  else if role = f.timeParent ∧ (!f.onAlt ∨ seeking) then some false
  else if role = f.timeAlt ∧ (f.onAlt ∨ seeking) then some true
  else none

/-- TIME_FLIT (spec 10, R327 to R329, R343): θ of an exchange. -/
def Mod.takeTime (m : Mod) (k : Nat) (s1 r1 s2 r2 : Int) : Mod :=
  if m.dataPlane ∧ k < 28 ∧ (m.chan k).st = .up then
    let role := m.roleNow k
    let theta2 := (r1 - s1) - (r2 - s2)
    let m := if m.fab.timeState = .locked ∧ thetaOver theta2 100 then m.raiseSuspect (rolePeer role) .timeFault 0 else m
    match m.fab.parentOf role with
    | some alt => m.steer alt theta2
    | none => m
  else m

def execTimeFlit (channel : Nat) (s1 r1 s2 r2 : Int) (s : State) : Out :=
  .next (s.event (fun m => m.takeTime channel s1 r1 s2 r2))

/-- TIME_UNLOCKED (spec 10, R328): no parent for 4 ms. -/
def execTimeUnlocked (s : State) : Out :=
  .next (s.event (fun m => if m.fab.timeState = .holdover ∧ !m.fab.answered then m.timeLost else m))

/-- A round with round_flags.fabric set is open. -/
def Mod.fabricOpen (m : Mod) : Bool :=
  m.run.phase.isOpen && (match m.hdr with | some r => r.fabric | none => false)

/-- TIMEBASE_STEP (spec 10, R329): the single step of an ACQUIRING module, by the latest θ. -/
def Mod.timeStep (m : Mod) : Mod :=
  if m.fab.timeState = .acquiring ∧ m.fab.answered ∧ !m.fab.stepped ∧ !m.fabricOpen then
    let (t, m) := m.thetaNs
    { m with fab := { m.fab with time := unsigned 64 ((m.fab.time : Int) + t), stepped := true, good := 0 } }
  else m

def execTimebaseStep (s : State) : Out := .next (s.event Mod.timeStep)

/-! ### PLLs (spec 01, R46) -/

/-- PLL_LOCK_LOSS: the domain stops. -/
def Mod.pllLost (m : Mod) (p : Pll) : Mod :=
  match p with
  | .core n => if n < 8 ∧ m.railsUp ∧ m.inService (coreWord n) then m.unitFault (coreWord n) 3 else m
  | .channel k =>
    let (loose, m) := m.looseNow
    m.channelLost k loose
  | .port n => if n < 2 then (m.linkDown n).reportFault (fenceReport 0xFFFF 3 0 Scope.outOfBound) else m
  | .noc _ => if m.railsUp then m.reportFault (fenceReport 0xFFFF 3 0 Scope.relight) else m
  | .hbmPhy _ => if m.railsUp then m.reportFault (fenceReport 0xFFFF 3 0 Scope.relight) else m

/-- PLL_LOCK_LOSS (spec 01, R46; spec 13, R434). -/
def execPllLockLoss (pll : Pll) (s : State) : Out :=
  .next (match pll with
    | .port n => s.linkEvent n (fun m => m.pllLost pll)
    | _ => s.event (fun m => m.pllLost pll))

end Sys2Proof.Machine
end

