-- ==== Sys2Proof/Machine/FabricData.lean ====
section
/-! DEFINITION. Packets, flag messages and the fault report tree as events (spec 10, R322 to R326, R336, R337, R340, R343 to
R347). -/
namespace Sys2Proof.Machine

/-! ### Packets -/

/-- A packet that R325 drops. -/
def packetBad (k : Packet) : Bool :=
  k.target == .illegal || !k.lenOk || !k.whole || k.data.isEmpty || decide (3824 < k.data.length)

/-- A packet for another module leaves on its first hop (spec 10, R326, R341): on a live twin, or on the first live
alternate of a detour. Which of two live twins has the next admitting window is free (assumption log 3). -/
def Mod.forward (m : Mod) (k : Packet) : Mod :=
  let live := (firstHops k.dst).filter (fun r => (m.liveChannel r).isSome)
  let alts := (firstHops k.dst).flatMap (fun r =>
    match m.plan.plan.bind (fun p => p.detours[r]?) with
    | some d => (d.alts.map (·.firstRole)).filter (fun x => (m.liveChannel x).isSome)
    | none => [])
  match live with
  | [a, b] =>
    let (n, m) := m.draw
    (m.send (.forward (if n % 2 = 0 then a else b) k)).count Cnt.fabricForwarded 1
  | [a] => (m.send (.forward a k)).count Cnt.fabricForwarded 1
  | _ =>
    match alts with
    | a :: _ => (m.send (.forward a k)).count Cnt.fabricForwarded 1
    | [] => if k.ember then m.markDouse Douse.fabricLoss else m

/-- A whole packet with this module as its destination (spec 10, R322, R325). -/
def Mod.receive (m : Mod) (k : Packet) : Mod :=
  if packetBad k then m.dropPacket k
  else if k.ember then m.acceptEmber k
  else m.takePacket k

/-- DATA_PACKET (spec 10, R325): a MEMORY packet. Packets of the other targets are commands of their own. -/
def execDataPacket (packet : Packet) (s : State) : Out :=
  .next (s.event (fun m =>
    if m.dataPlane ∧ packet.dst = Config.position ∧ (packet.target = .memory ∨ packet.target = .illegal) then m.receive packet
    else m))

/-- SUM_PACKET (spec 10, R340): key bits [63:56] are zero. -/
def execSumPacket (packet : Packet) (s : State) : Out :=
  .next (s.event (fun m =>
    if m.dataPlane ∧ packet.dst = Config.position ∧ packet.target = .reduction then
      if bits packet.addr 63 56 ≠ 0 then m.dropPacket packet else m.receive packet
    else m))

/-- PACKET_FORWARD (spec 10, R326). -/
def execPacketForward (packet : Packet) (s : State) : Out :=
  .next (s.event (fun m => if m.dataPlane ∧ packet.dst ≠ Config.position then m.forward packet else m))

/-! ### FLAG_INC (spec 10, R336, R337) -/

/-- A flag message of the open attempt waits for its fence; one for the round that opens next, or for the replay, is held;
any other is dropped (spec 04, R128; spec 10, R322, R336). -/
def Mod.takeFlag (m : Mod) (f : FlagMsg) : Mod :=
  let isOpen := m.run.phase.isOpen && m.run.phase != .doused && m.run.phase != .replay
  let hold (m : Mod) : Mod := { m with fab := { m.fab with flagWait := m.fab.flagWait ++ [f] } }
  if f.flag < 768 ∨ 1023 < f.flag ∨ f.inc ≠ 1 then
    (m.count Cnt.fabricDropped 1).raiseSuspect f.sender .badPacket 0
  else if isOpen ∧ f.serial = m.run.serial ∧ f.attempt = m.run.attempt then
    if f.sender ∈ m.others then (hold m).applyFlags else m.dropEmber
  else if m.run.phase = .replay ∧ f.serial = m.run.serial ∧ f.attempt = m.curAttempt then hold m
  else if m.plan.st = .running ∧ f.serial = m.nextRoundSerial ∧ f.attempt = 0 then hold m
  else m.dropEmber

/-- FLAG_INC. -/
def execFlagInc (msg : FlagMsg) (s : State) : Out :=
  .next (s.event (fun m => if m.dataPlane then m.takeFlag msg else m))

/-! ### The fault report tree (spec 10, R344 to R347) -/

/-- Class codes (spec 10, R343). -/
def SuspectClass.code : SuspectClass → Nat
  | .linkDown => 1 | .noToken => 2 | .noBarrier => 3 | .noFrame => 4 | .badPacket => 5 | .timeFault => 6 | .storm => 0xFF

/-- REPORT (spec 10, R346). -/
def execReport (suspect : Suspect) (s : State) : Out :=
  .next (s.event (fun m => if m.dataPlane then m.holdSuspect suspect else m))

/-- STORM (spec 10, R347): merged by round serial. -/
def execStorm (suspect : Suspect) (s : State) : Out :=
  .next (s.event (fun m =>
    if m.dataPlane then m.holdSuspect { suspect with suspect := 0xFFFF, cls := .storm, detail := 0 } else m))

/-- The SUSPECT record of the root (spec 13, R410). -/
def suspectRecord (r : Suspect) : Report :=
  { cls := Rec.suspect, attn := Attn.fault,
    detail := if r.cls = .storm then Detail.reportStorm else Detail.suspectReport,
    payload := leBytes 2 r.suspect ++ [BitVec.ofNat 8 (SuspectClass.code r.cls), 0] ++ leBytes 4 r.serial.toNat
      ++ leBytes 8 r.firstTime ++ leBytes 2 r.firstReporter ++ leBytes 2 r.count ++ leBytes 2 r.detail }

/-- Where a record goes: to the alternate when the parent is the suspect or is unreachable (spec 10, R344); none when
neither is named. -/
def Mod.reportTo (m : Mod) (r : Suspect) : Option Nat :=
  let f := m.fab
  if r.suspect ≠ f.reportParent ∧ m.reaches f.reportParent then some f.reportParent
  else if f.reportAlt ≠ 0xFFFF then some f.reportAlt
  else none

/-- A held record's time has come (spec 10, R346, R347). -/
def Mod.reportExpiry (m : Mod) (i : Nat) : Mod :=
  match m.fab.suspects[i]? with
  | none => m
  | some r =>
    let rest := m.fab.suspects.eraseIdx i
    if m.fab.reportParent = 0xFFFF then ({ m with fab := { m.fab with suspects := rest } }).report (suspectRecord r)
    else match m.reportTo r with
      | none => m
      | some dest =>
        if r.cls = .storm then
          (({ m with fab := { m.fab with suspects := rest } }).send (.report dest r)).count Cnt.reportStorm 1
        else if m.fab.sentRecords < 64 then
          ({ m with fab := { m.fab with suspects := rest, sentRecords := m.fab.sentRecords + 1 } }).send (.report dest r)
        else
          ({ m with fab := { m.fab with suspects := rest } }).holdSuspect
            { r with suspect := 0xFFFF, cls := .storm, serial := m.reportSerial, count := 1, detail := 0 }

/-- REPORT_HOLD_EXPIRY (spec 10, R346, R347). -/
def execReportHoldExpiry (index : Nat) (s : State) : Out :=
  .next (s.event (fun m => if m.dataPlane then m.reportExpiry index else m))

end Sys2Proof.Machine
end

