-- ==== Sys2Proof/Machine/Security.lean ====
section
/-! DEFINITION. Firmware, identity, attestation, debug tokens (spec 17). Falcon-1024 is opaque (assumption log 4);
SHAKE256 is Machine/Keccak.lean. -/
namespace Sys2Proof.Machine

/-- Whether a field of bytes is all zero. -/
def allZero (bs : Bytes) : Bool := bs.all (fun b => b == 0)

/-- Bytes [off, off + len) of a string, zero beyond its end. -/
def slice (bs : Bytes) (off len : Nat) : Bytes := fitBytes len ((bs.drop off).take len)

/-! ### Firmware images (spec 17, R514, R515) -/

def fwBodySize (header : Bytes) : Nat := fieldAt header 0x10 4

/-- Step 1 of R515 on the header. -/
def fwFormOk (img : Bytes) : Bool :=
  slice img 0 8 == ascii "VKFWIM09" && fieldAt img 8 2 == 1 && decide (fieldAt img 0xA 1 ≤ 64)
  && allZero (slice img 0xB 1) && fwBodySize img % 64 == 0 && decide (fwBodySize img ≤ 32 * 2 ^ 20)
  && allZero (slice img 0x14 12) && allZero (slice img 0x761 1)
  && decide (1 ≤ fieldAt img 0x762 2) && decide (fieldAt img 0x762 2 ≤ 1280)
  && allZero (slice img (0x764 + fieldAt img 0x762 2) (1280 - fieldAt img 0x762 2)) && allZero (slice img 0xC64 28)

/-- The first of the steps 2 to 4 that an image fails; 0 for none. -/
def fwFault (img : Bytes) : Nat :=
  let key := slice img 0x60 1793
  if digest64 key ≠ Config.rootKeyHash then 2
  else if !Config.falconVerify key (digest64 (slice img 0 0x764)) (slice img 0x764 (fieldAt img 0x762 2)) then 3
  else if digest64 (slice img 0xC80 (fwBodySize img)) ≠ slice img 0x20 64 then 4
  else 0

/-- The slot that an image fills. -/
def Slot.ofImage (img : Bytes) : Slot :=
  { form := fwFormOk img, fault := fwFault img, security := fieldAt img 0xA 1, version := fieldAt img 0xC 4,
    measurement := digest64 (fitBytes (0xC80 + fwBodySize img) img), key := slice img 0x60 1793 }

/-- The outcome of R515 on a slot with counter c: class and detail. -/
def Slot.judge (x : Slot) (c : Nat) : Nat × Nat :=
  if !x.form then (Cls.rejected, Detail.badParam)
  else if x.fault = 2 ∨ x.fault = 3 then (Cls.security, Detail.sigInvalid)
  else if x.fault = 4 then (Cls.security, Detail.hashMismatch)
  else if x.security < c then (Cls.security, Detail.rollback)
  else (Cls.ok, Detail.none)

/-- Whether a slot passes the steps 2 to 5, as the boot ROM checks them (spec 17, R516). -/
def Slot.boots (x : Slot) (c : Nat) : Bool := x.fault == 0 && decide (c ≤ x.security)

/-- Write the inactive slot. -/
def Fw.setOther (f : Fw) (x : Slot) : Fw := if f.active = 0 then { f with slotB := x } else { f with slotA := x }

/-- The buffer length of FW_STAGE: the image, or its fixed part when body_size is illegal. -/
def fwLength (header : Bytes) : Nat :=
  if fwBodySize header ≤ 32 * 2 ^ 20 then 0xC80 + fwBodySize header else 0xC80

/-- FW_STAGE (spec 17, R517): the header gives the image's length. -/
def execFwStage (h : Cmd) (header : HostRead) (s : State) : Out :=
  .next (runCmd h
    { opcode := Op.fwStage, ownerOnly := true,
      params := fun m =>
        let len := match header with | .data bs => fwLength bs | .error => 0xC80
        if m.bufferOk h len false then none else some Detail.badParam,
      run := fun m =>
        if m.fw.staging.isSome then Ans.busy m
        else match header with
          | .error => ⟨Cls.faulted, Detail.hostError, [], m⟩
          | .data _ => Ans.accepted { m with fw := { m.fw with staging := some ⟨h.port, h.tag⟩ } } } s)

/-- FW_STAGE_COMPLETE (spec 17, R517). -/
def Mod.stageDone (m : Mod) (img : Bytes) : Mod :=
  match m.fw.staging with
  | none => m
  | some t =>
    let x := Slot.ofImage img
    let r := x.judge m.fw.fuses
    let m := { m with fw := { (m.fw.setOther x) with staged := decide (r.1 = Cls.ok), staging := none } }
    (m.ashSecurity .hearth r.2 x.version x.measurement).complete t Op.fwStage r.1 r.2 []

def execFwStageComplete (image : Bytes) (s : State) : Out := .next (s.event (fun m => m.stageDone image))

/-! ### Identity and quotes (spec 17, R520, R521, R524, R525) -/

def identityHash : Bytes := digest64 Config.identityKey

/-- IDENTITY_READ's 18,304 bytes (spec 17, R521). -/
def identityBlock : Bytes :=
  ascii "VKIDNT09" ++ leBytes 8 Config.serialNumber ++ leBytes 2 population
  ++ leBytes 2 (min 16384 Config.certChain.length) ++ zeros 12 ++ fitBytes 64 identityHash
  ++ fitBytes 1793 Config.identityKey ++ zeros 31 ++ fitBytes 16384 Config.certChain

def identityReadSpec (h : Cmd) : CmdSpec :=
  { opcode := Op.identityRead, ownerOnly := false, params := bufParams h 18304,
    run := fun m => Ans.ok (m.writeBuffer h identityBlock) }

def execIdentityRead (h : Cmd) (s : State) : Out := .next (runCmd h (identityReadSpec h) s)

/-- Insert a pattern in ascending pattern_id. -/
def insertPattern (p : Pattern) : List Pattern → List Pattern
  | [] => [p]
  | q :: l => if p.id ≤ q.id then p :: q :: l else q :: insertPattern p l

/-- pattern_measurement (spec 17, R525). -/
def Tests.measurement (t : Tests) : Bytes :=
  digest64 (((t.patterns.foldl (fun l p => insertPattern p l) []).map (fun p =>
    leBytes 4 p.id ++ leBytes 4 p.version ++ fitBytes 64 p.digest)).flatten)

/-- A plan whose measurement a quote carries: LOADED, RUNNING or HALTED (spec 17, R524). -/
def Mod.planMeasured (m : Mod) : Bool := m.plan.st == .loaded || m.plan.st == .running || m.plan.st == .halted

/-- Quote bytes 0x03C to 0x147: what SPDM measurements carry as well (spec 17, R526). -/
def Mod.measurements (m : Mod) : Bytes :=
  leBytes 4 m.fw.running.version ++ fitBytes 64 m.fw.running.measurement ++ fitBytes 64 Config.rootKeyHash
  ++ fitBytes 64 m.tests.measurement
  ++ (if m.planMeasured then fitBytes 64 m.plan.measurement ++ leBytes 8 m.planId else zeros 72)

/-- Quote bytes 0x000 to 0x181 (spec 17, R524). -/
def Mod.quoteHead (m : Mod) (nonce : BitVec 256) (serial sigLen : Nat) : Bytes :=
  ascii "VKQUOT09" ++ leBytes 2 1 ++ leBytes 2 Config.position ++ leBytes 4 serial ++ leBytes 32 nonce.toNat
  ++ leBytes 8 m.powerOnS
  ++ [BitVec.ofNat 8 m.ctl.state.code, BitVec.ofNat 8 m.plan.st.code, BitVec.ofNat 8 m.fw.fuses,
      BitVec.ofNat 8 m.fw.active]
  ++ m.measurements ++ [BitVec.ofNat 8 m.tests.patterns.length] ++ zeros 55 ++ leBytes 2 sigLen

/-- ATTEST_QUOTE (spec 17, R523, R524): every measurement at the instant of acceptance. -/
def execAttestQuote (h : Cmd) (nonce : BitVec 256) (s : State) : Out :=
  .next (runCmd h
    { opcode := Op.attestQuote, ownerOnly := false, params := bufParams h 1728,
      run := fun m =>
        if m.fw.quote.isSome then Ans.busy m
        else if m.side.scopes ≠ 0 then ⟨Cls.security, Detail.debugActive, [], m⟩
        else
          let serial := m.fw.quoteSerial + 1
          let head := m.quoteHead nonce serial (Config.freeNat m.free % 1280 + 1)
          let q : Quote := ⟨⟨h.port, h.tag⟩, h.bufRegion.toNat, h.bufOffset.toNat, head⟩
          Ans.accepted { m with free := m.free + 1, fw := { m.fw with quote := some q, quoteSerial := serial } } } s)

/-- The whole quote: head, signature over its digest, zero (spec 17, R524). -/
def quoteBytes (draw : Nat) (head : Bytes) : Bytes :=
  head ++ fitBytes 1280 (fitBytes (fieldAt head 0x180 2) (Config.falconSign draw (digest64 head))) ++ zeros 62

/-- The signature is complete (spec 17, R524). A buffer whose region the host has taken away meanwhile is not written
(spec 06, R196); the completion then carries HOST_ERROR (assumption log 11). -/
def Mod.quoteDone (m : Mod) : Mod :=
  match m.fw.quote with
  | none => m
  | some q =>
    let bs := quoteBytes m.free q.head
    let m1 := { m with free := m.free + 1, fw := { m.fw with quote := none } }
    if m.regionCovers q.ticket.port q.region q.offset 1728 true then
      (m1.writeAt q.ticket.port q.region q.offset bs).complete q.ticket Op.attestQuote Cls.ok Detail.none []
    else m1.complete q.ticket Op.attestQuote Cls.faulted Detail.hostError []

/-- ATTEST_QUOTE_SIGNED (spec 17, R524). -/
def execAttestQuoteSigned (s : State) : Out := .next (s.event Mod.quoteDone)

/-- GET_MEASUREMENTS (spec 17, R526): the fields of the quote from 0x03C to 0x147, unsigned, as they stand. -/
def execGetMeasurements (port : Nat) (s : State) : Out :=
  .next (s.linkEvent port (fun m => m.doe m.measurements))

/-! ### Debug tokens (spec 17, R522, R523) -/

/-- The challenge that the test port shows. -/
def Mod.challenge (m : Mod) : Bytes := fitBytes 32 (Config.freeBytes m.side.challenge 32)

/-- Why a token is refused: a detail, none if it passes. R523 names the conditions and no detail for each; the detail
that the ash entry carries is the model's (assumption log 12). -/
def Mod.tokenFault (m : Mod) (t : Bytes) : Option Nat :=
  if m.ctl.state ≠ .standby then some Detail.badState
  else if slice t 0 8 ≠ ascii "VKDBGT09" ∨ fieldAt t 8 2 ≠ 1 ∨ 8 ≤ fieldAt t 0xA 2 ∨ !allZero (slice t 0xD 3)
      ∨ fieldAt t 0x70 2 = 0 ∨ 1280 < fieldAt t 0x70 2 ∨ !allZero (slice t 0x572 14) then some Detail.badParam
  else if slice t 0x10 64 ≠ identityHash ∨ slice t 0x50 32 ≠ m.challenge then some Detail.hashMismatch
  else if m.fw.fuses < fieldAt t 0xC 1 then some Detail.rollback
  else if !Config.falconVerify m.fw.running.key (digest64 (slice t 0 0x72)) (slice t 0x72 (fieldAt t 0x70 2)) then
    some Detail.sigInvalid
  else none

/-- A token on the test port: scopes, a new challenge, ATTN_LOG at the unlock, an ash entry (spec 17, R523). -/
def Mod.debugToken (m : Mod) (t : Bytes) : Mod :=
  let fault := m.tokenFault t
  let m1 := { m with free := m.free + 1, side := { m.side with challenge := m.free } }
  let m2 := if fault.isNone then
    ({ m1 with side := { m1.side with scopes := m1.side.scopes ||| fieldAt t 0xA 2 } }).attention Attn.log else m1
  m2.ashSecurity .hearth (fault.getD Detail.debugActive) m2.fw.running.version identityHash

/-- DEBUG_TOKEN (spec 17, R523). -/
def execDebugToken (token : Bytes) (s : State) : Out :=
  .next (if s.powered then s.event (fun m => m.debugToken token) else s)

end Sys2Proof.Machine
end

