-- ==== Sys2Proof/Machine/Trips.lean ====
section
/-! DEFINITION. The guard logic (spec 18, R530 to R541): input power, trips, warnings; what a trip ends (spec 16, R495;
spec 18, R538); regulator phases and rails (spec 01, R41). Thresholds and their waiting times belong to the events:
an event arrives once its condition has held for its time. -/
namespace Sys2Proof.Machine

/-! ### Guard entries of the ash record (spec 18, R545) -/

/-- Rails that are on. -/
def Mod.railsMask (m : Mod) : Nat := ((List.range 17).map (fun r => if m.rail r = 2 then 2 ^ r else 0)).sum

/-- The guard body: `index` is a die chain, 0x10 + stack, or 0xFF. -/
def Mod.guardBody (m : Mod) (detail index before : Nat) : Bytes :=
  let g := m.pwr.guard
  let chains := (List.range 12).map (SMap.get 0 g.dieTemps)
  let hot := chains.foldl max (chains.headD 0)
  leBytes 4 detail ++ [BitVec.ofNat 8 index, BitVec.ofNat 8 before] ++ zeros 2 ++ leBytes 2 g.vin ++ leBytes 2 g.iinPeak
    ++ le16s hot ++ le16s g.coolantIn ++ leBytes 8 m.fabricTime ++ leBytes 4 m.railsMask ++ zeros 20

def Mod.setGuard (m : Mod) (f : Guard → Guard) : Mod := { m with pwr := { m.pwr with guard := f m.pwr.guard } }

/-- A warning: WARN entry (spec 18, R539), counter and attention. -/
def Mod.warn (m : Mod) (detail index cnt : Nat) (attn : Byte) : Mod :=
  ((m.ashAppend 0x04 .guardLogic (m.guardBody detail index m.ctl.state.code)).count cnt 1).attention attn

/-! ### What a trip ends (spec 16, R495, R507; spec 18, R538) -/

/-- The commands in progress that need rails, with their opcodes. -/
def Mod.railTickets (m : Mod) : List (Ticket × Nat) :=
  let opt (t : Option Ticket) (op : Nat) : List (Ticket × Nat) := match t with | some t => [(t, op)] | none => []
  opt m.plan.loading Op.planLoad
  ++ m.plan.halts.map (fun t => (t, Op.planHalt))
  ++ opt m.plan.unload Op.planUnload
  ++ opt (m.pwr.cold.map (fun c => c.ticket)) Op.pstateSet
  ++ m.pwr.changes.map (fun c => (c.ticket, Op.pstateSet))
  ++ m.pwr.diags.map (fun d => (d.ticket, Op.diagRun))
  ++ (m.pwr.cores.map (fun e => opt e.2.kindleWait Op.kindlingEnter ++ opt e.2.kindleDone Op.kindlingEnter)).flatten
  ++ opt m.hbm.repart Op.hbmPartition
  ++ (m.usedCtxs.map (fun e =>
      if e.2.use = .command then opt e.2.ticket Op.streamArm ++ opt (e.2.pend.map (fun g => g.ticket)) Op.streamArm
      else [])).flatten
  ++ m.step.exports.map (fun x => (x.ticket, Op.snapshotExport))
  ++ opt (m.bank.relight.map (fun r => r.ticket)) Op.relight
  ++ m.bank.serves.map (fun x => (x.ticket, Op.bankServe))
  ++ opt (m.tests.forced.map (fun t => t.ticket)) Op.testWindowForce
  ++ opt (m.tests.margin.map (fun t => t.ticket)) Op.marginTestRun
  ++ (m.units.recs.map (fun e => opt e.2.draining Op.unitDisable ++ opt e.2.testing Op.unitEnable)).flatten

/-- They complete FAULTED with the trip's detail. -/
def Mod.faultTickets (m : Mod) (detail : Nat) : Mod :=
  m.railTickets.foldl (fun m t => m.complete t.1 t.2 Cls.faulted detail []) m

/-- The hearth controller's tables once the rails have gone: plan, streams, exports, bank transfers, tests, changes,
memory, cores, stacks, channels. -/
def Mod.railsGone (m : Mod) : Mod :=
  let m := (m.endUpdate 6 false).dropPlan.dropMemory
  let busy := m.bank.relight.isSome
  let m := (List.range 16).foldl (fun m r => if m.rail r = 3 then m else m.setRail r 0) m
  { m with
    plan := { m.plan with unload := none },
    ctxs := [],
    step := { m.step with exports := [] },
    hbm := { m.hbm with repart := none },
    bank := { m.bank with
      upd := none, pins := [], relight := none, relightFailed := m.bank.relightFailed || busy, serves := [],
      pulled := none, partner := 0 },
    tests := { m.tests with running := [], forced := none, margin := none },
    units := { m.units with recs := SMap.mapVals UnitRec.healthy m.units.recs (fun r =>
      { r with draining := none, testing := none }) },
    pwr := { m.pwr with
      cores := SMap.mapVals CoreRec.off m.pwr.cores (fun c => { CoreRec.off with faulted := c.faulted, seqFailed := c.seqFailed }),
      hbmStacks := [], changes := [], cold := none, diags := [],
      guard := { m.pwr.guard with swA := false, swB := false } },
    fab := { m.fab with
      chans := SMap.mapVals Chan.off m.fab.chans (fun c =>
        { c with powered := false, st := if c.st = .disabled then .disabled else .down, tries := 0 }),
      suspects := [] } }

/-- The module enters TRIPPED with a trip's detail (spec 16, R495). -/
def Mod.enterTripped (m : Mod) (detail : Nat) : Mod :=
  let m := (m.faultTickets detail).railsGone
  (m.moveTo .tripped 0xFFFF detail).attention Attn.safety

/-! ### Trips (spec 18, R535) -/

/-- Detail codes. -/
def Trip.code : Trip → Nat
  | .current => Detail.tripCurrent | .overvolt => Detail.tripOvervolt | .undervolt => Detail.tripUndervolt
  | .thermal => Detail.tripThermal | .sensor => Detail.tripSensor | .flow => Detail.tripFlow | .leak => Detail.tripLeak
  | .precharge => Detail.tripPrecharge | .switch => Detail.tripSwitch

/-- Causes that clear at once, or once the switches are off. -/
def Trip.brief : Trip → Bool
  | .current => true | .precharge => true | _ => false

/-- Lockout (spec 18, R536): a TRIP_SWITCH, or the third TRIP_CURRENT within 24 power-on hours. -/
def Mod.lockoutStep (m : Mod) (t : Trip) : Mod :=
  let m := if t = .current then m.setGuard (fun g => { g with currentTrips := g.currentTrips ++ [m.ctl.powerOnMs] }) else m
  if t = .switch ∨ (t = .current ∧ 3 ≤ m.recentTrips.length) then m.setGuard (fun g => { g with lockout := true }) else m

/-- A trip (spec 18, R535, R538): TRIP entry, CNT_TRIP, last_trip, ATTN_SAFETY; with rails up the module enters TRIPPED.
While it is TRIPPED already, last_trip keeps the first cause. A cause that still holds is no new event. -/
def Mod.trip (m : Mod) (t : Trip) (index : Nat) : Mod :=
  if m.ctl.state = .off ∨ t ∈ m.pwr.guard.causes then m
  else
    let first := m.ctl.state != .tripped
    let m := (m.ashAppend 0x03 .guardLogic (m.guardBody (Trip.code t) index m.ctl.state.code)).count Cnt.trip 1
    let m := m.setGuard (fun g =>
      { g with lastTrip := if first then Trip.code t else g.lastTrip,
               causes := if Trip.brief t then g.causes else g.causes ++ [t] })
    let m := m.lockoutStep t
    if m.railsUp then m.enterTripped (Trip.code t) else m.attention Attn.safety

/-- TRIP_UNDERVOLT (spec 18, R530): only with rails on. -/
def execTripUndervolt (vin : Nat) (s : State) : Out :=
  .next (s.event (fun m =>
    if m.railsUp then (m.setGuard (fun g => { g with vin := vin })).trip .undervolt 0xFF else m))

/-- TRIP_OVERVOLT (spec 18, R530). -/
def execTripOvervolt (vin : Nat) (s : State) : Out :=
  .next (s.event (fun m => (m.setGuard (fun g => { g with vin := vin })).trip .overvolt 0xFF))

/-- TRIP_CURRENT (spec 18, R535), fast or overload: both end alike. -/
def execTripCurrent (fast : Bool) (iin : Nat) (s : State) : Out :=
  .next (s.event (fun m =>
    (m.setGuard (fun g => { g with iin := if fast then g.iin else iin, iinPeak := max g.iinPeak iin })).trip .current 0xFF))

/-- A temperature reading: chain 0 to 11, stack 0x10 + n, coolant outlet 0x20. -/
def Guard.sense (g : Guard) (sensor : Nat) (temp : Int) : Guard :=
  if sensor < 12 then { g with dieTemps := SMap.put 0 g.dieTemps sensor temp }
  else if 0x10 ≤ sensor ∧ sensor < 0x1C then { g with stackTemps := SMap.put 0 g.stackTemps (sensor - 0x10) temp }
  else if sensor = 0x20 then { g with coolantOut := temp }
  else g

/-- TRIP_THERMAL (spec 18, R535). -/
def execTripThermal (sensor : Nat) (temp : Int) (s : State) : Out :=
  .next (s.event (fun m => (m.setGuard (fun g => g.sense sensor temp)).trip .thermal sensor))

/-- TRIP_SENSOR (spec 18, R535). -/
def execTripSensor (sensor : Nat) (temp : Int) (s : State) : Out :=
  .next (s.event (fun m => (m.setGuard (fun g => g.sense sensor temp)).trip .sensor sensor))

/-- COOL_OK_DEASSERT (spec 18, R535). -/
def execCoolOkDeassert (s : State) : Out := .next (s.event (fun m => m.setGuard (fun g => { g with coolOk := false })))

/-- COOL_OK_ASSERT (spec 18, R535): a drop shorter than 100 ms is a warning. -/
def execCoolOkAssert (lowMs : Nat) (s : State) : Out :=
  .next (s.event (fun m =>
    if m.pwr.guard.coolOk then m
    else
      let m := m.setGuard (fun g => { g with coolOk := true })
      if lowMs < 100 ∧ m.ctl.state ≠ .off then m.warn Detail.warnFlow 0xFF Cnt.powerWarn Attn.safety else m))

/-- TRIP_FLOW (spec 18, R535): only while a rail is on. -/
def execTripFlow (s : State) : Out :=
  .next (s.event (fun m => if m.railsUp && !m.pwr.guard.coolOk then m.trip .flow 0xFF else m))

/-- TRIP_LEAK (spec 18, R535). -/
def execTripLeak (s : State) : Out := .next (s.event (fun m => m.trip .leak 0xFF))

/-- TRIP_PRECHARGE (spec 18, R532). -/
def execTripPrecharge (s : State) : Out := .next (s.event (fun m => m.trip .precharge 0xFF))

/-- TRIP_SWITCH (spec 18, R535, R536): the shorted switch conducts, the other stays off. -/
def execTripSwitch (switchB : Bool) (s : State) : Out :=
  .next (s.event (fun m =>
    (m.trip .switch 0xFF).setGuard (fun g => { g with swA := !switchB, swB := switchB })))

/-- TRIP_CAUSE_CLEARED (spec 18, R535): a switch fault never clears; the sensor chain's by its self-test. -/
def execTripCauseCleared (cause : Trip) (s : State) : Out :=
  .next (s.event (fun m =>
    if cause = .switch then m
    else m.setGuard (fun g => { g with causes := g.causes.filter (fun t => t != cause) })))

/-! ### Warnings (spec 18, R530, R539) -/

/-- WARN_INPUT (spec 18, R530): rails keep running. -/
def execWarnInput (vin : Nat) (s : State) : Out :=
  .next (s.event (fun m =>
    if m.railsUp then
      (m.setGuard (fun g => { g with vin := vin })).warn Detail.warnInput 0xFF Cnt.powerWarn Attn.safety
    else m))

/-- WARN_THERMAL (spec 18, R539): the entry's index is that of R545, 0xFF for the coolant outlet. -/
def execWarnThermal (sensor : Nat) (temp : Int) (s : State) : Out :=
  .next (s.event (fun m =>
    if m.ctl.state = .off then m
    else (m.setGuard (fun g => g.sense sensor temp)).warn Detail.warnThermal (if sensor < 0x1C then sensor else 0xFF)
      Cnt.thermalWarn Attn.thermal))

/-- WARN_OVERLOAD (spec 18, R539). -/
def execWarnOverload (iin pin : Nat) (s : State) : Out :=
  .next (s.event (fun m =>
    if m.railsUp then
      (m.setGuard (fun g => { g with iin := iin, pin := pin, iinPeak := max g.iinPeak iin })).warn Detail.warnOverload 0xFF
        Cnt.powerWarn Attn.safety
    else m))

/-! ### Into and out of OFF (spec 16, R494; spec 17, R516; spec 18, R530, R533, R534, R541) -/

/-- What non-volatile memory keeps (spec 16, R496): clinkers, disables (of channels too, spec 16, R504), strikes and
steering; the counts of CHANNEL_STATUS, which never clear (spec 15, R490); test due times and pattern packages; firmware, fuses, the ash record, the guard logic's latch. Counters, power-on time and boot_count are the
module's own here too (assumption log 1). -/
def Mod.kept (m : Mod) : Mod :=
  { Mod.reset with
    ctl := { Ctl.reset with powerOnMs := m.ctl.powerOnMs, bootCount := m.ctl.bootCount, generation := m.ctl.generation,
                            beat := m.ctl.beat, noFirmware := m.ctl.noFirmware },
    cnt := m.cnt, ash := m.ash, log := { m.log with recs := [] },
    units := { m.units with recs := SMap.mapVals UnitRec.healthy m.units.recs (fun r =>
      { r with draining := none, testing := none }) },
    pwr := { Power.reset with
      groups := SMap.mapVals Group.whole m.pwr.groups (fun g => { g with state := 0 }),
      guard := { m.pwr.guard with swA := false, swB := false } },
    tests := { Tests.reset with rows := m.tests.rows, patterns := m.tests.patterns },
    fw := { m.fw with staging := none, quote := none },
    fab := { Fab.reset with chans := SMap.mapVals Chan.off m.fab.chans (fun c =>
      { Chan.off with st := if c.st = .disabled then .disabled else .down, restore := c.restore,
                      fec := c.fec, replays := c.replays, laneSwitches := c.laneSwitches, downs := c.downs }) },
    side := { m.side with scopes := 0 }, free := m.free, out := m.out }

/-- Rings stop, attention bits clear, the port registers reset. -/
def Mod.portsGo (m : Mod) : Mod :=
  { m with out := { m.out with ringsOff := m.out.ringsOff ++ [0, 1], attnClear := m.out.attnClear ++ [0, 1], portsReset := true } }

/-- The module goes OFF: no STATE entry (spec 18, R546). -/
def Mod.powerOff (m : Mod) : Mod :=
  let m := m.kept.portsGo
  { m with ctl := { m.ctl with state := .off }, side := Side.reset, pwr := { m.pwr with
      rails := SMap.put 0 m.pwr.rails 16 0, guard := { m.pwr.guard with standby := false, causes := [] } } }

/-- INPUT_LOST (spec 16, R494; spec 18, R530). -/
def execInputLost (vin : Nat) (s : State) : Out :=
  .next (s.event (fun m =>
    if m.ctl.state = .off then m else (m.setGuard (fun g => { g with vin := vin })).powerOff))

/-- STANDBY_SUPPLY_LOST (spec 18, R541). -/
def execStandbySupplyLost (s : State) : Out :=
  .next (s.event (fun m => if m.ctl.state = .off then m else m.powerOff))

/-- TRAY_PRESENT_BREAK (spec 18, R534): the REMOVAL entry, then OFF. -/
def execTrayPresentBreak (s : State) : Out :=
  .next (s.event (fun m =>
    let before := m.ctl.state
    let m := if before = .off then m
      else (m.ashAppend 0x05 .guardLogic (m.guardBody Detail.removal 0xFF before.code)).powerOff
    m.setGuard (fun g => { g with present := false })))

/-- TRAY_PRESENT_MAKE (spec 18, R536): clears lockout. -/
def execTrayPresentMake (s : State) : Out :=
  .next (s.event (fun m =>
    if m.pwr.guard.present then m else m.setGuard (fun g => { g with present := true, lockout := false })))

/-- An entry of the ash record whose crc does not match (spec 18, R547). -/
def ashTornEntry (e : Bytes) : Bool := leNat (e.drop 60) != (crc32c (e.take 60)).toNat

/-- The slot that boots (spec 17, R516): the active one, or the other. -/
def Fw.boot (f : Fw) : Option Fw :=
  if f.running.boots f.fuses then some f
  else if f.other.boots f.fuses then some { f with active := 1 - f.active, staged := false }
  else none

/-- INPUT_POWER_UP (spec 16, R494; spec 17, R516, R523; spec 18, R546, R547): 52 V or more with tray-present made. -/
def Mod.powerUp (m : Mod) (vin : Nat) : Mod :=
  if m.ctl.state ≠ .off ∨ vin < 5200 ∨ !m.pwr.guard.present then m
  else
    let m := m.setGuard (fun g => { g with vin := vin, standby := true })
    let m := { m with pwr := { m.pwr with rails := SMap.put 0 m.pwr.rails 16 2 } }
    let torn := (m.ash.slots.filter (fun e => ashTornEntry e.2)).length
    let m := ({ m with ash := { m.ash with torn := torn, bench := false } }).count Cnt.ashTorn torn
    match m.fw.boot with
    | none => { m with ctl := { m.ctl with noFirmware := true } }
    | some f =>
      let fell := f.active != m.fw.active
      let m := { m with
        fw := f,
        ctl := { m.ctl with bootCount := min 0xFFFF (m.ctl.bootCount + 1), noFirmware := false },
        side := { m.side with challenge := m.free }, free := m.free + 1 }
      let m := m.ashAppend 0x09 .bootRom ([BitVec.ofNat 8 f.active, BitVec.ofNat 8 f.fuses] ++ zeros 2
        ++ leBytes 4 f.running.version)
      let m := if fell then
        (m.ashSecurity .bootRom Detail.fwFallback f.running.version f.running.measurement).attention Attn.log else m
      m.moveTo .standby 0xFFFF 0

def execInputPowerUp (vin : Nat) (s : State) : Out := .next (s.event (fun m => m.powerUp vin))

/-! ### Regulator phases and rails (spec 01, R41) -/

/-- Payload of a POWER record (spec 13, R410): event 0 PHASE_LOST, 1 RAIL_TRIP. -/
def powerPayload (group phase healthy event : Nat) : Bytes :=
  [BitVec.ofNat 8 group, BitVec.ofNat 8 phase, BitVec.ofNat 8 healthy, BitVec.ofNat 8 event]

/-- PHASE_LOST (spec 01, R36, R41; spec 13, R433): no interruption. -/
def Mod.phaseLost (m : Mod) (g phase : Nat) : Mod :=
  if g < 24 ∧ phase < 6 ∧ bit (m.group g).mask phase ∧ m.railsUp then
    let mask := (m.group g).mask - 2 ^ phase
    let m := { m with pwr := { m.pwr with groups := SMap.upd Group.whole m.pwr.groups g (fun x => { x with mask := mask }) } }
    (m.count Cnt.phaseLost 1).report
      { cls := Rec.power, attn := Attn.safety, detail := Detail.phaseLost, scope := Scope.inBound,
        payload := powerPayload g phase (healthyPhases mask) 0 }
  else m

def execPhaseLost (group phase : Nat) (s : State) : Out := .next (s.event (fun m => m.phaseLost group phase))

/-- The commands in progress on a core that its rail carries, with their opcodes. -/
def Mod.coreTickets (m : Mod) (c : Nat) : List (Ticket × Nat) :=
  (m.pwr.changes.filter (fun x => x.kind == 0 && x.index == c)).map (fun x => (x.ticket, Op.pstateSet))
  ++ (m.pwr.diags.filter (fun d => d.core == c)).map (fun d => (d.ticket, Op.diagRun))
  ++ ((m.core c).kindleWait.toList ++ (m.core c).kindleDone.toList).map (fun t => (t, Op.kindlingEnter))

/-- A core rail trips: the core stops and is left OFF; its items return; its pending change, its diagnostic and its entry
into kindling mode are dropped (spec 01, R40, R41; spec 16, R507; spec 18, R538). -/
def Mod.coreRailTrip (m : Mod) (c : Nat) : Mod :=
  let m := m.returnWork (coreWord c) Douse.fence
  let m := (m.coreTickets c).foldl (fun m t => m.complete t.1 t.2 Cls.faulted Detail.railTrip []) m
  let m := { m with pwr := { m.pwr with
    changes := m.pwr.changes.filter (fun x => !(x.kind == 0 && x.index == c)),
    diags := m.pwr.diags.filter (fun d => d.core != c) } }
  let m := m.setCore c (fun r =>
    { r with ps := .off, op := 0, kindling := false, changing := false, kindleWait := none, kindleDone := none })
  ((m.dropCoreMemory c).setRail c 3).abortMargin c

/-- RAIL_TRIP (spec 01, R41): a group at four healthy phases or fewer. Which phase the record names is not stated: a free
value (assumption log 3). -/
def Mod.railTrip (m : Mod) (g : Nat) : Mod :=
  let n := healthyPhases (m.group g).mask
  if g < 24 ∧ n ≤ 4 ∧ m.railsUp ∧ m.rail (groupRail g) ≠ 3 then
    let (x, m) := m.draw
    let m := if g < 16 then m.coreRailTrip (g / 2) else m.setRail (groupRail g) 3
    let m := m.setGuard (fun y => { y with lastTrip := Detail.railTrip })
    let m := m.reportFault { cls := Rec.power, attn := Attn.safety ||| Attn.fault, detail := Detail.railTrip,
                             scope := Scope.outOfBound, payload := powerPayload g (x % 256) n 1 }
    if g < 16 then m else m.enterTripped Detail.railTrip
  else m

def execRailTrip (group : Nat) (s : State) : Out := .next (s.event (fun m => m.railTrip group))

end Sys2Proof.Machine
end

