-- ==== Sys2Proof/Machine/TestOps.lean ====
section
/-! DEFINITION. Shared operations of tests (spec 13, R421, R422, R426, R427): the current pattern, TEST records, what a failed
test does. -/
namespace Sys2Proof.Machine

/-- Target kinds (spec 13, R427). -/
def TestKind.num : TestKind → Nat
  | .tile => 0 | .sparse => 1 | .stream => 2 | .hbmPc => 3 | .channel => 4 | .coreMargin => 5

/- Result codes (spec 13, R427). -/
namespace TestRes
abbrev pass : Nat := 1
abbrev fail : Nat := 2
abbrev weak : Nat := 3
abbrev aborted : Nat := 4
end TestRes

/-- The current pattern of a kind (spec 13, R426): the newest installed package that covers it. -/
def Tests.current (t : Tests) (kind : Nat) : Option Pattern := t.patterns.reverse.find? (fun p => bit p.kinds kind)

/-- The key of a target's row. -/
def rowKey (t : TestTarget) : Nat := TestKind.num t.kind * 65536 + t.address

def Mod.testRow (m : Mod) (t : TestTarget) : TestRow := SMap.get TestRow.never m.tests.rows (rowKey t)

def Mod.setRow (m : Mod) (t : TestTarget) (f : TestRow → TestRow) : Mod :=
  { m with tests := { m.tests with rows := SMap.upd TestRow.never m.tests.rows (rowKey t) f } }

/-- A completed test's row: result, time; due and overdue marks clear (spec 13, R420, R422). -/
def Mod.rowDone (m : Mod) (t : TestTarget) (result : Nat) : Mod := m.setRow t (fun _ => ⟨result, m.powerOnS, false, false⟩)

/-- A TEST record (spec 13, R410). -/
def Mod.testRecord (m : Mod) (t : TestTarget) (result column detail : Nat) (attn : Byte) : Mod :=
  let p := m.tests.current (TestKind.num t.kind)
  m.report { cls := Rec.test, attn := attn, detail := detail,
             payload := [BitVec.ofNat 8 (TestKind.num t.kind), BitVec.ofNat 8 result] ++ leBytes 2 t.address
               ++ leBytes 4 ((p.map (fun x => x.id)).getD 0) ++ leBytes 4 ((p.map (fun x => x.version)).getD 0)
               ++ [BitVec.ofNat 8 column] }

/-- A unit that fails a test is fenced: a pending clinker (spec 01, R37). -/
def Mod.fenceTested (m : Mod) (u : Nat) : Mod := m.setUnit u (fun r => { r with pending := true })

/-- A unit that a field test retires (spec 13, R421, R436): fenced, and counted unless it was a clinker or a pending one. -/
def Mod.retireTested (m : Mod) (u : Nat) : Mod :=
  let r := m.unit u
  let m := if r.clinker ∨ r.pending ∨ r.retiring then m else m.count Cnt.unitRetired 1
  m.fenceTested u

/-- A tile whose fault maps to one column: steering, pending under R36, while the unit reserve is unspent (spec 13, R421;
spec 07, R215). -/
def Mod.steerOrFence (m : Mod) (u column : Nat) : Mod :=
  let r := m.unit u
  if column ≤ 32 ∧ r.steer = 0x3F ∧ r.pendSteer = none then
    m.setUnit u (fun r => { r with pendSteer := some (if column = 32 then 0x20 else column), strikes := [] })
  else m.retireTested u

/-- What a failed test leads to (spec 13, R421): CNT_TEST_FAIL, the target's action, the record. `ctx` is the context that
a STREAM test used. -/
def Mod.testFailed (m : Mod) (t : TestTarget) (column : Nat) (ctx : Option Nat) : Mod :=
  let m := match t.kind with
    | .tile => m.steerOrFence t.address column
    | .sparse => m.retireTested t.address
    | .stream => match ctx with | some h => { m with fenced := m.fenced ++ [h] } | none => m
    | _ => m
  (m.count Cnt.testFail 1).testRecord t TestRes.fail column Detail.testFail Attn.integrity

/-- A unit that fails built-in test or a diagnostic (spec 16, R498, R501): fenced, TEST record, CNT_BIST_FAIL. -/
def Mod.bistFailed (m : Mod) (t : TestTarget) (column : Nat) : Mod :=
  ((m.fenceTested t.address).count Cnt.bistFail 1).testRecord t TestRes.fail column Detail.testFail Attn.integrity

/-- The test target of a unit word. -/
def unitTarget (u : Nat) : TestTarget := ⟨if unitKind u = 1 then .sparse else .tile, u⟩

end Sys2Proof.Machine
end

