-- ==== Sys2Proof/Machine/Startup.lean ====
section
/-! DEFINITION. Start-up, power states, kindling mode, diagnostics (spec 16, R496 to R507), the guard self-test (spec 18,
R537), FW_ACTIVATE (spec 17, R518, R519), the module reference (spec 01, R47). -/
namespace Sys2Proof.Machine

/-! ### MODULE_RESET (spec 16, R496) -/

/-- What the reset does once its reply is written. -/
def Mod.resetNow (m : Mod) : Mod :=
  let m := (m.moveTo .standby Op.moduleReset 0).kept.portsGo
  { m with ctl := { m.ctl with restart := some .reset } }

/-- MODULE_RESET (spec 16, R496). -/
def execModuleReset (h : Cmd) (s : State) : Out :=
  .next (runCmd h
    { opcode := Op.moduleReset, ownerOnly := true, params := plainParams h, run := fun m => Ans.ok m.resetNow } s)

/-- MODULE_RESET_COMPLETE (spec 16, R496): the hearth controller runs its verified image again. -/
def execModuleResetComplete (s : State) : Out :=
  .next (s.event (fun m =>
    if m.ctl.restart = some .reset then { m with ctl := { m.ctl with restart := none } } else m))

/-! ### FW_ACTIVATE (spec 17, R518, R519) -/

/-- The activation once it is accepted. `blown` is the counter as read back after the fuses were blown. -/
def Mod.activate (m : Mod) (blown : Nat) : Ans :=
  let x := m.fw.other
  let r := x.judge m.fw.fuses
  if r.1 ≠ Cls.ok then
    ⟨r.1, r.2, [], ({ m with fw := { m.fw with staged := false } }).ashSecurity .hearth r.2 x.version x.measurement⟩
  else
    let c := if m.fw.fuses < x.security then max m.fw.fuses (min blown x.security) else m.fw.fuses
    let advanced := decide (m.fw.fuses < c)
    let m := { m with fw := { m.fw with fuses := c } }
    let m := if advanced then m.ashSecurity .hearth Detail.none x.version x.measurement else m
    if c < x.security then
      ⟨Cls.faulted, Detail.fuseFail, [], m.ashSecurity .hearth Detail.fuseFail x.version x.measurement⟩
    else
      let m := { m with fw := { m.fw with active := 1 - m.fw.active, staged := false } }
      Ans.ok ((m.ashSecurity .hearth Detail.none x.version x.measurement).hearthStops .activate)

/-- FW_ACTIVATE (spec 17, R518). -/
def execFwActivate (h : Cmd) (fuses : Nat) (s : State) : Out :=
  .next (runCmd h
    { opcode := Op.fwActivate, ownerOnly := true, params := plainParams h,
      run := fun m =>
        let quiet := m.ctl.state == .standby || (m.ctl.state == .ready && (m.plan.st == .none || m.plan.st == .failed))
        if !m.fw.staged ∨ !quiet ∨ m.side.scopes ≠ 0 then Ans.rejected m Detail.badState
        else if m.fw.staging.isSome ∨ m.bankBusy then Ans.busy m
        else m.activate fuses } s)

/-! ### PSTATE_SET (spec 16, R503 to R507) -/

/-- Values that R503 allows. -/
def pstateLegal (kind index state op : Nat) : Bool :=
  if kind = 0 then decide (index < 8) && decide (state < 4) && (if state = 3 then decide (op < 8) else op == 0)
  else op == 0 && (if kind = 1 then decide (index < 12) && decide (state < 3)
    else if kind = 2 then decide (index < 28) && decide (state < 2)
    else if kind = 3 then decide (index < 2) && decide (state < 2)
    else kind == 4 && index == 0 && decide (state < 2))

/-- The plan is NONE or FAILED. -/
def Mod.noPlan (m : Mod) : Bool := m.plan.st == .none || m.plan.st == .failed

/-- The target is in the commanded state already (spec 16, R503). -/
def Mod.pstateSame (m : Mod) (kind index state op : Nat) : Bool :=
  if kind = 0 then (m.core index).ps.code == state && (state != 3 || (m.core index).op == op)
  else if kind = 1 then (m.stack index).ps == state
  else if kind = 2 then b2n (m.channelPowered index) == state
  else if kind = 3 then b2n (m.link index).on == state
  else false

/-- A command stream is ACTIVE or HELD (spec 06, R207). -/
def Mod.streamBusy (m : Mod) : Bool := m.usedCtxs.any (fun e => e.2.busyCommand)

/-- A bank transfer, relight or BANK_SERVE runs (spec 05, R150; spec 16, R504). -/
def Mod.bankRuns (m : Mod) : Bool := m.bankBusy || !m.bank.serves.isEmpty

/-- The conditions of R504 and R505 for a core (with a plan held for "counts as withdrawn": without one the rule has no
op_point; a tripped rail comes back once its groups carry their load, R507). -/
def Mod.coreMayGo (m : Mod) (core state op : Nat) : Bool :=
  let where_ := if state = 0 then m.ctl.state == .ready && m.noPlan
    else m.ctl.state == .ready || m.ctl.state == .running || m.ctl.state == .halted
  let rail := state == 0 || m.rail core != 3
    || (decide (5 ≤ healthyPhases (m.group (2 * core)).mask) && decide (5 ≤ healthyPhases (m.group (2 * core + 1)).mask))
  let withdraws := m.holdsPlan && !(state == 3 && decide (m.opPoint ≤ op))
  where_ && rail && (state == 0 || !(m.core core).kindling) && !(withdraws && m.otherWithdrawn core)

/-- The conditions of R504 for the other kinds; `port` issued the command. -/
def Mod.targetMayGo (m : Mod) (port kind index state : Nat) : Bool :=
  let st := m.ctl.state
  if kind = 1 then st == .ready && (state == 2 || m.noPlan)
  else if kind = 2 then
    if state = 0 then (m.chan index).st == .disabled || ((spareRole index).isSome && (m.chan index).st == .shadow)
    else st != .standby && st != .tripped
  else if kind = 3 then index != port
  else if state = 1 then st == .standby && m.pwr.guard.coolOk && !m.pwr.guard.lockout
  else (st == .ready && m.noPlan && !m.bankRuns) || (st == .tripped && m.pwr.guard.causes.isEmpty)

/-- STANDBY by command: all rails off, HBM contents lost (spec 16, R504). Changes that were pending lose their rails
(spec 16, R507). -/
def Mod.toStandby (m : Mod) : Mod :=
  let m := (m.faultTickets Detail.none).railsGone
  m.moveTo .standby Op.pstateSet 0

/-- A cold start begins (spec 16, R497): KINDLING, the switches close, and what is counted since cold start starts again:
fault serials (spec 13, R409), HEARTH_RESTARTS (spec 15, R464), generations of regions (spec 06, R194), bank_serial (spec 14,
R441), quote_serial (spec 17, R524). -/
def Mod.coldStart (m : Mod) (t : Ticket) : Mod :=
  let m := m.moveTo .kindling Op.pstateSet 0
  let m := m.setGuard (fun g => { g with swA := true, swB := true, selfTestOk := false })
  { m with
    ctl := { m.ctl with restarts := 0 }, log := { m.log with next := 1, written := false }, fenced := [],
    regions := SMap.mapVals Region.free m.regions (fun r => { r with gen := 0 }),
    bank := { m.bank with serial := 0 }, fw := { m.fw with quoteSerial := 0 },
    pwr := { m.pwr with
      cold := some ⟨t, 0⟩,
      cores := SMap.mapVals CoreRec.off m.pwr.cores (fun c => { c with faulted := false, seqFailed := false }) } }

/-- The effect of an accepted PSTATE_SET at its acceptance. -/
def Mod.pstateTake (m : Mod) (c : Change) : Mod :=
  let m := { m with pwr := { m.pwr with changes := m.pwr.changes ++ [c] } }
  if c.kind = 0 then (if m.ctl.state = .running then m else m.applyChange c)
  else if c.kind = 3 then
    if c.state = 0 then (m.linkDown c.index).setLink c.index (fun l => { l with on := false }) else m
  else if c.kind = 2 then
    if c.state = 0 then m.setChan c.index (fun x => { x with powered := false })
    else m.setChan c.index (fun x => { x with powered := true })
  else m

/-- PSTATE_SET (spec 16, R503 to R507; spec 01, R47). -/
def Mod.pstateSet (m : Mod) (t : Ticket) (kind index state op : Nat) : Ans :=
  let may := if kind = 0 then m.coreMayGo index state op else m.targetMayGo t.port kind index state
  let dark := m.ctl.refLost && kind != 3 && !(kind == 4 && state == 0)
  let rank := m.ctl.state == .ready || m.ctl.state == .running || m.ctl.state == .halted || 3 ≤ kind
  if !may ∨ dark ∨ !rank then Ans.rejected m Detail.badState
  else if m.changing kind index then Ans.busy m
  else if kind = 1 ∧ state ≠ 2 ∧ (m.bankRuns ∨ m.streamBusy) then Ans.busy m
  else if m.pstateSame kind index state op then Ans.accepted (m.complete t Op.pstateSet Cls.ok Detail.none [])
  else if kind = 4 ∧ state = 1 then Ans.accepted (m.coldStart t)
  else if kind = 4 then
    let m := m.toStandby
    Ans.accepted { m with pwr := { m.pwr with changes := [⟨4, 0, 0, 0, t, true⟩] } }
  else Ans.accepted (m.pstateTake ⟨kind, index, state, op, t, kind ≠ 0⟩)

def execPstateSet (h : Cmd) (kind index state opPoint : Byte) (s : State) : Out :=
  .next (runCmd h
    { opcode := Op.pstateSet, ownerOnly := true,
      params := plainParams h (!pstateLegal kind.toNat index.toNat state.toNat opPoint.toNat),
      run := fun m => m.pstateSet ⟨h.port, h.tag⟩ kind.toNat index.toNat state.toNat opPoint.toNat } s)

/-- A stack's change takes effect (spec 16, R504): contents kept in SELF_REFRESH, lost in OFF; a stack that was OFF is
trained and the whole of HBM zeroed. -/
def Mod.stackDone (m : Mod) (k state : Nat) : Mod :=
  let was := (m.stack k).ps
  let h := m.hbm
  let m := { m with pwr := { m.pwr with hbmStacks := SMap.upd StackRec.off m.pwr.hbmStacks k (fun x => { x with ps := state }) } }
  if state = 0 then m.zeroHbm (fun a => (h.decode a).1 != k)
  else if was = 0 then
    let m := m.zeroHbm (fun _ => false)
    { m with bank := m.bank.clearHeld }
  else m

/-- The change is in full effect (spec 16, R506): CNT_PSTATE_APPLIED, completion OK. -/
def Mod.changeDone (m : Mod) (c : Change) : Mod :=
  let m := { m with pwr := { m.pwr with changes := m.pwr.changes.filter (fun x => !(x.kind == c.kind && x.index == c.index)) } }
  let m :=
    if c.kind = 0 then m.setCore c.index (fun r => { r with changing := false })
    else if c.kind = 1 then m.stackDone c.index c.state
    else if c.kind = 2 then
      m.setChan c.index (fun x =>
        if c.state = 0 then { x with st := if x.st = .disabled then .disabled else .down }
        else { x with st := if x.st = .disabled then .disabled else .training })
    else if c.kind = 3 ∧ c.state = 1 then m.setLink c.index (fun l => { l with on := true })
    else m
  (m.count Cnt.pstateApplied 1).complete c.ticket Op.pstateSet Cls.ok Detail.none []

/-- PSTATE_CHANGE_COMPLETE (spec 16, R506). -/
def execPstateChangeComplete (kind index : Nat) (s : State) : Out :=
  .next (s.event (fun m =>
    match m.pwr.changes.find? (fun c => c.kind == kind && c.index == index && c.applied) with
    | some c => m.changeDone c
    | none => m))

/-! ### The cold start (spec 16, R497, R498; spec 18, R537) -/

/-- A cold start that failed: every rail opens, the module returns to STANDBY. -/
def Mod.coldFail (m : Mod) (detail : Nat) : Mod :=
  match m.pwr.cold with
  | some c =>
    let m := m.railsGone
    (m.moveTo .standby Op.pstateSet detail).complete c.ticket Op.pstateSet Cls.faulted detail []
  | none => m

/-- GUARD_SELF_TEST_DONE (spec 18, R537). -/
def execGuardSelfTestDone (outcome : SelfTest) (s : State) : Out :=
  .next (s.event (fun m =>
    match m.pwr.cold with
    | some c =>
      if c.stage = 0 then
        match outcome with
        | .pass => m.setGuard (fun g => { g with selfTestOk := true, causes := g.causes.filter (fun t => t != .sensor) })
        | .switchFail => m.coldFail Detail.tripSwitch
        | .sensorFail => m.coldFail Detail.tripSensor
      else m
    | none => m))

/-- One stage done. -/
def Mod.stageNext (m : Mod) : Mod :=
  { m with pwr := { m.pwr with cold := m.pwr.cold.map (fun c => { c with stage := c.stage + 1 }) } }

/-- COLD_START_STAGE (spec 16, R497, R498): rails, kindling, built-in test, spare map, HBM, channels, in that order. -/
def Mod.coldStage (m : Mod) (st : ColdStage) : Mod :=
  match m.pwr.cold with
  | none => m
  | some c =>
    match st with
    | .rails => if c.stage = 0 ∧ m.pwr.guard.selfTestOk then (m.setRails 2).stageNext else m
    | .kindling =>
      if c.stage = 1 then
        ((List.range 8).foldl (fun m k => m.setCore k (fun r => { r with ps := .idle, kindling := true })) m).stageNext
      else m
    | .builtInTest failed seqs =>
      if c.stage = 2 then
        let m := failed.foldl (fun m t => if (m.unit t.target.address).clinker then m else m.bistFailed t.target t.column) m
        (seqs.foldl (fun m k => m.setCore k (fun r => { r with seqFailed := true })) m).stageNext
      else m
    | .spareMap =>
      if c.stage = 3 then
        let m := (List.range 8).foldl Mod.formCore m
        ((List.range 8).foldl (fun m k => m.setCore k (fun r => { r with kindling := false })) m).stageNext
      else m
    | .hbmTrained retries =>
      if c.stage = 4 then
        let m := (m.zeroHbm (fun _ => false)).count Cnt.trainRetry retries
        ({ m with
          hbm := { m.hbm with w := 64, planGib := 4, settleGib := 16, bankGib := 0, fixes := [], reported := [], poisonSeen := [] },
          bank := m.bank.clearHeld,
          pwr := { m.pwr with hbmStacks := (List.range 12).foldl (fun t k => SMap.put StackRec.off t k ⟨2, 1⟩) [] } }).stageNext
      else m
    | .channels =>
      if c.stage = 5 then
        ((List.range 28).foldl (fun m k => m.setChan k (fun x =>
          { x with powered := true, st := if x.st = .disabled then .disabled else .training })) m).stageNext
      else m

def execColdStartStage (stage : ColdStage) (s : State) : Out := .next (s.event (fun m => m.coldStage stage))

/-- COLD_START_COMPLETE (spec 16, R497): cores IDLE, stacks ON, ports ON, READY, and no port owns the module (spec 15, R482). -/
def Mod.coldDone (m : Mod) : Mod :=
  match m.pwr.cold with
  | some c =>
    if c.stage = 6 then
      let m := { m with
        pwr := { m.pwr with cold := none },
        link0 := { m.link0 with on := true }, link1 := { m.link1 with on := true },
        fab := { m.fab with timeState := .free, time := 0, theta2 := 0, answered := false, good := 0, stepped := false, onAlt := false } }
      let m := (m.moveTo .ready Op.pstateSet 0).count Cnt.coldStart 1
      let m := if m.ctl.owner = none then m else m.setOwner none
      m.complete c.ticket Op.pstateSet Cls.ok Detail.none []
    else m
  | none => m

def execColdStartComplete (s : State) : Out := .next (s.event Mod.coldDone)

/-- The MEMORY record of a stack that fails training: pseudo-channel byte 0xFF (spec 16, R498; spec 13, R434). -/
def stackReport (stack : Nat) : Report :=
  { cls := Rec.memory, attn := Attn.fault, detail := Detail.unitFenced, scope := Scope.relight,
    payload := [BitVec.ofNat 8 stack, 0xFF] }

/-- STACK_TRAINING_FAIL (spec 16, R498): four attempts failed. A STACK ON that cannot complete leaves the stack OFF
(spec 00, R11). -/
def Mod.stackFail (m : Mod) (k : Nat) : Mod :=
  match m.pwr.cold, m.pwr.changes.find? (fun c => c.kind == 1 && c.index == k && c.state == 2) with
  | some c, _ =>
    if c.stage = 4 ∧ k < 12 then ((m.count Cnt.trainRetry 3).reportFault (stackReport k)).coldFail Detail.unitFenced else m
  | none, some c =>
    let m := (m.count Cnt.trainRetry 3).reportFault (stackReport k)
    ({ m with pwr := { m.pwr with changes := m.pwr.changes.filter (fun x => !(x.kind == 1 && x.index == k)) } }).complete
      c.ticket Op.pstateSet Cls.faulted Detail.unitFenced []
  | none, none => m

def execStackTrainingFail (stack : Nat) (s : State) : Out := .next (s.event (fun m => m.stackFail stack))

/-- CHANNEL_TRAIN_DONE (spec 16, R497, R498; spec 10, R315, R342): UP, or SHADOW for a spare that carries no role; a
channel that waits for its return at PLAN_START has retrained; a failed attempt is tried again. -/
def Mod.trainDone (m : Mod) (k : Nat) (up : Bool) : Mod :=
  let c := m.chan k
  if 28 ≤ k ∨ !c.powered then m
  else if c.st = .disabled then
    if c.restore ∧ up then m.setChan k (fun x => { x with trained := true })
    else if c.restore then m.count Cnt.trainRetry 1
    else m
  else if c.st = .training ∨ c.st = .down then
    if up then
      m.setChan k (fun x => { x with st := if (spareRole k).isSome && x.taken.isNone then .shadow else .up,
                                     acked := 0, recvSeq := 0, tries := 0 })
    else (m.setChan k (fun x => { x with st := .training })).count Cnt.trainRetry 1
  else m

def execChannelTrainDone (channel : Nat) (up : Bool) (s : State) : Out := .next (s.event (fun m => m.trainDone channel up))

/-! ### The module reference (spec 01, R47) -/

/-- The FENCE record of a reference loss or return: cause PLL, unit 0xFFFF. -/
def referenceReport (scope : Nat) : Report :=
  { cls := Rec.fence, attn := Attn.fault, detail := Detail.unitFenced, scope := scope, payload := fencePayload 0xFFFF 3 0 0 }

/-- The halt of a RUNNING module: an attempt whose token is out is kept, any other is discarded; between rounds the
resume round has not run. -/
def Mod.referenceHalt (m : Mod) : Mod :=
  if m.run.phase.tokenSent then m.enterHalted 3 0xFFFF Detail.unitFenced
  else if m.run.phase.isOpen then m.haltDiscarded 0xFFFF Detail.unitFenced
  else
    ({ m.freePlanCtxs with run := { Run.idle with serial := m.run.serial } }).enterHalted (if m.plan.reopen then 2 else 1)
      0xFFFF Detail.unitFenced

/-- Channels stop with their clock. -/
def Mod.stopChannels (m : Mod) : Mod :=
  { m with fab := { m.fab with chans := SMap.mapVals Chan.off m.fab.chans (fun c =>
      if c.st = .disabled then c else { c with st := .down }) } }

/-- REFERENCE_LOSS (spec 01, R47). -/
def Mod.referenceLoss (m : Mod) : Mod :=
  if m.ctl.refLost ∨ !m.railsUp then m
  else
    let m := m.reportFault (referenceReport Scope.relight)
    match m.ctl.state with
    | .kindling => m.coldFail Detail.unitFenced
    | .running => ({ m.referenceHalt.stopChannels with ctl := { m.referenceHalt.stopChannels.ctl with refLost := true } })
    | _ => { m.stopChannels with ctl := { m.stopChannels.ctl with refLost := true } }

def execReferenceLoss (s : State) : Out := .next (s.event Mod.referenceLoss)

/-- REFERENCE_RESTORED (spec 01, R47; spec 10, R329): channels retrain, the time base is ACQUIRING. -/
def Mod.referenceBack (m : Mod) : Mod :=
  if m.ctl.refLost then
    let m := { m with
      ctl := { m.ctl with refLost := false },
      fab := { m.fab with
        timeState := if !m.fab.configured then .free else if m.fab.timeParent = 0xFF then .locked else .acquiring,
        answered := false, good := 0, stepped := false,
        chans := SMap.mapVals Chan.off m.fab.chans (fun (c : Chan) =>
          if c.st = ChanSt.disabled ∨ !c.powered then c else { c with st := .training }) } }
    m.report (referenceReport Scope.none)
  else m

def execReferenceRestored (s : State) : Out := .next (s.event Mod.referenceBack)

/-! ### Kindling mode (spec 16, R500; spec 01, R53, R54) -/

/-- Another core counts as withdrawn, or has fewer than 16 usable clusters (spec 01, R38, R53). -/
def Mod.noRelief (m : Mod) (core : Nat) : Bool :=
  m.otherWithdrawn core || (List.range 8).any (fun c => c != core && decide (m.usable c < 16))

/-- A change, a forced window or a margin test is pending on a core. -/
def Mod.corePending (m : Mod) (core : Nat) : Bool :=
  m.changing 0 core || (match m.tests.forced with | some t => t.core == core | none => false)
  || (match m.tests.margin with | some t => t.core == core | none => false)

/-- KINDLING_ENTER (spec 16, R500). -/
def execKindlingEnter (h : Cmd) (core : Byte) (s : State) : Out :=
  .next (runCmd h
    { opcode := Op.kindlingEnter, ownerOnly := true, params := plainParams h (decide (8 ≤ core.toNat)),
      run := fun m =>
        let k := core.toNat
        let c := m.core k
        if m.ctl.refLost ∨ c.ps = .off ∨ c.ps = .gated ∨ c.kindling ∨ c.kindleWait.isSome ∨ m.noRelief k then
          Ans.rejected m Detail.badState
        else if m.corePending k then Ans.busy m
        else
          let m := m.setCore k (fun r => { r with kindleWait := some ⟨h.port, h.tag⟩ })
          Ans.accepted (if m.plan.st = .running then m else m.enterKindling k) } s)

/-- KINDLING_ENTER_COMPLETE (spec 16, R500). -/
def execKindlingEnterComplete (core : Nat) (s : State) : Out :=
  .next (s.event (fun m =>
    match (m.core core).kindleDone with
    | some t => (m.setCore core (fun r => { r with kindleDone := none })).complete t Op.kindlingEnter Cls.ok Detail.none []
    | none => m))

/-- KINDLING_EXIT (spec 16, R500; spec 01, R54): at once; clusters and gangs form from the spare map as it stands. -/
def execKindlingExit (h : Cmd) (core : Byte) (s : State) : Out :=
  .next (runCmd h
    { opcode := Op.kindlingExit, ownerOnly := true, params := plainParams h (decide (8 ≤ core.toNat)),
      run := fun m =>
        let k := core.toNat
        if !(m.core k).kindling then Ans.rejected m Detail.badState
        else if m.pwr.diags.any (fun d => d.core == k) then Ans.busy m
        else
          let m := (m.setCore k (fun r => { r with kindling := false })).formCore k
          Ans.accepted (m.complete ⟨h.port, h.tag⟩ Op.kindlingExit Cls.ok Detail.none []) } s)

/-! ### DIAG_RUN (spec 16, R501, R502) -/

/-- Every physical unit of a core that a word selects, in ascending word. -/
def diagUnits (u : Nat) : List Nat :=
  let core := unitCore u
  let cluster (k : Nat) : List Nat :=
    (List.range 17).map (fun t => tileWord core k t) ++ (List.range 2).map (fun e => engineWord core k e)
  if unitKind u = 3 then ((List.range 18).map cluster).flatten
  else if unitKind u = 2 then cluster (unitCluster u)
  else [u]

/-- DIAG_RUN (spec 16, R501, R502). -/
def execDiagRun (h : Cmd) (core diag : Byte) (unit : Half) (s : State) : Out :=
  .next (runCmd h
    { opcode := Op.diagRun, ownerOnly := true, reserved := unitReserved unit.toNat,
      params := bufParams h (16 + 16 * (diagUnits unit.toNat).length)
        (decide (8 ≤ core.toNat) || decide (3 ≤ diag.toNat) || unitIllegal unit.toNat || unitCore unit.toNat != core.toNat),
      run := fun m =>
        if m.ctl.refLost ∨ !(m.core core.toNat).kindling then Ans.rejected m Detail.badState
        else if m.pwr.diags.any (fun d => d.core == core.toNat) then Ans.busy m
        else
          let d : Diag := ⟨core.toNat, diag.toNat, unit.toNat, ⟨h.port, h.tag⟩, h.bufRegion.toNat, h.bufOffset.toNat, []⟩
          Ans.accepted { m with pwr := { m.pwr with diags := m.pwr.diags ++ [d] } } } s)

/-- A result entry (spec 16, R502). -/
def diagEntry (u result column : Nat) (crc : Dword) : Bytes :=
  leBytes 2 u ++ [BitVec.ofNat 8 result, BitVec.ofNat 8 column] ++ zeros 4 ++ leBytes 8 crc.toNat

/-- The results of a diagnostic in the order of its units; a unit that the event names no result for passed with no
column. -/
def Diag.outcomes (d : Diag) (rs : List DiagOut) : List (Nat × DiagOut) :=
  (diagUnits d.unit).map (fun u =>
    let r := (rs.find? (fun x => x.unit.toNat == u)).getD ⟨BitVec.ofNat 16 u, true, 0xFF, 0⟩
    (if u ∈ d.aborted then TestRes.aborted else if r.pass then TestRes.pass else TestRes.fail, r))

/-- DIAG_RUN_COMPLETE (spec 16, R501, R502). -/
def Mod.diagDone (m : Mod) (d : Diag) (rs : List DiagOut) : Mod :=
  let os := d.outcomes rs
  let m := os.foldl (fun m o => if o.1 = TestRes.fail then m.bistFailed (unitTarget o.2.unit.toNat) o.2.column else m) m
  let m := { m with pwr := { m.pwr with diags := m.pwr.diags.filter (fun x => x.core != d.core) } }
  let bs := [BitVec.ofNat 8 d.core, BitVec.ofNat 8 d.diag] ++ leBytes 2 os.length ++ zeros 12
    ++ (os.map (fun o => diagEntry o.2.unit.toNat o.1 (if o.1 = TestRes.fail then o.2.column else 0xFF) o.2.crc)).flatten
  let ok := os.all (fun o => o.1 == TestRes.pass)
  (m.writeAt d.ticket.port d.bufRegion d.bufOffset bs).complete d.ticket Op.diagRun (if ok then Cls.ok else Cls.faulted)
    (if ok then Detail.none else Detail.testFail) []

def execDiagRunComplete (core : Nat) (results : List DiagOut) (s : State) : Out :=
  .next (s.event (fun m =>
    match m.pwr.diags.find? (fun d => d.core == core) with
    | some d => m.diagDone d results
    | none => m))

end Sys2Proof.Machine
end

