-- ==== Sys2Proof/Machine/MemoryCmd.lean ====
section
/-! DEFINITION. HBM_PARTITION (spec 05, R148 to R150), corrected and poisoned codewords (R152 to R155, R157). -/
namespace Sys2Proof.Machine

/-- Every stack is ON (spec 16, R504). -/
def Mod.stacksOn (m : Mod) : Bool := (List.range 12).all (fun k => (m.stack k).ps == 2)

/-- The repartition at its acceptance (spec 05, R150): every HBM byte zero but the bank region where w and bank_gib stay. -/
def Mod.repartition (m : Mod) (w p s b : Nat) (t : Ticket) : Mod :=
  let same := decide (w = m.hbm.w) && decide (b = m.hbm.bankGib)
  let old := m.hbm
  let m := m.zeroHbm (fun a => same && decide (old.bankRegion.lo ≤ a) && decide (a < old.bankRegion.hi))
  let m := { m with hbm := { m.hbm with w := w, planGib := p, settleGib := s, bankGib := b, repart := some t } }
  if same then m else { m with bank := m.bank.clearHeld }

/-- HBM_PARTITION (spec 05, R148 to R150; spec 06, R207; spec 16, R504; spec 01, R47). -/
def execHbmPartition (h : Cmd) (wide : Half) (planGib settleGib : Byte) (bankGib : Half) (s : State) : Out :=
  .next (runCmd h
    { opcode := Op.hbmPartition, ownerOnly := true,
      params := plainParams h (wide == 0 || decide (192 < wide.toNat) || planGib == 0 || decide (4 < planGib.toNat)
        || settleGib == 0 || decide (64 < settleGib.toNat) || decide (384 < bankGib.toNat)
        || decide (3 * wide.toNat < planGib.toNat + settleGib.toNat + bankGib.toNat)),
      run := fun m =>
        if m.ctl.state ≠ .ready ∨ !m.noPlan ∨ m.ctl.refLost ∨ !m.stacksOn then Ans.rejected m Detail.badState
        else if m.bankRuns ∨ m.streamBusy then Ans.busy m
        else Ans.accepted (m.repartition wide.toNat planGib.toNat settleGib.toNat bankGib.toNat ⟨h.port, h.tag⟩) } s)

/-- HBM_PARTITION_COMPLETE (spec 05, R150). -/
def execHbmPartitionComplete (s : State) : Out :=
  .next (s.event (fun m =>
    match m.hbm.repart with
    | some t => ({ m with hbm := { m.hbm with repart := none } }).complete t Op.hbmPartition Cls.ok Detail.none []
    | none => m))

/-! ### Codewords -/

/-- The bitmap of a codeword's bad symbols (spec 13, R410). -/
def symbolMap (symbols : List Nat) : Nat := symbols.foldl (fun b i => if i < 128 ∧ !(bit b i) then b + 2 ^ i else b) 0

/-- A MEMORY record of a place in HBM (spec 13, R410). -/
def Hbm.memoryReport (h : Hbm) (a : Nat) (symbols : List Nat) (detail scope : Nat) (attn : Byte) : Report :=
  let d := h.decode a
  { cls := Rec.memory, attn := attn, detail := detail, scope := scope,
    payload := [BitVec.ofNat 8 d.1, BitVec.ofNat 8 d.2.1] ++ zeros 2 ++ leBytes 4 d.2.2 ++ leBytes 16 (symbolMap symbols) }

/-- The global number of an address's pseudo-channel (spec 05, R142). -/
def Hbm.pcOf (h : Hbm) (a : Nat) : Nat := (h.decode a).1 * 64 + (h.decode a).2.1

/-- A corrected symbol (spec 05, R152, R155): counted; more than 1,024 in a pseudo-channel within a power-on hour make a
record, once per hour. -/
def Mod.corrected (m : Mod) (a : Nat) (symbols : List Nat) : Mod :=
  let pc := m.hbm.pcOf a
  let hour := m.powerOnS / 3600
  let m := m.count (Cnt.hbmCorrected + pc / 64) 1
  let h := if hour = m.hbm.hour then m.hbm else { m.hbm with hour := hour, fixes := [], reported := [] }
  let h := { h with fixes := SMap.upd 0 h.fixes pc (fun n => n + 1) }
  if 1024 < SMap.get 0 h.fixes pc ∧ pc ∉ h.reported then
    ({ m with hbm := { h with reported := pc :: h.reported } }).report
      (h.memoryReport a symbols Detail.hbmCorrectRate Scope.none Attn.log)
  else { m with hbm := h }

/-- A poisoned codeword of HBM is met (spec 05, R154, R155): counted and recorded; more than one pseudo-channel of a stack
within a second is a whole-stack fault. -/
def Mod.poisonMet (m : Mod) (a : Nat) (symbols : List Nat) : Mod :=
  let pc := m.hbm.pcOf a
  let now := m.ctl.powerOnMs
  let recent := m.hbm.poisonSeen.filter (fun e => decide (now ≤ e.1 + 1000))
  let whole := recent.any (fun e => e.2 / 64 == pc / 64 && e.2 != pc)
  let m := { m with hbm := { m.hbm with poisonSeen := recent ++ [(now, pc)] } }
  (m.count (Cnt.hbmPoison + pc / 64) 1).reportFault
    (m.hbm.memoryReport a symbols Detail.hbmPoison (if whole then Scope.relight else Scope.outOfBound) Attn.fault)

/-- The codeword of an address is poisoned from now on, until a write of the whole codeword replaces it. -/
def Mod.setPoison (m : Mod) (a : Nat) (symbols : List Nat) : Mod :=
  { m with hbm := { m.hbm with poison := SMap.ins (a / 64 * 64) symbols m.hbm.poison } }

/-- The patrol reads a codeword (spec 05, R152, R153, R155): one symbol in error is corrected; two or more, or poison that
the codeword holds already, count and report as a poisoned codeword. -/
def Mod.patrolRead (m : Mod) (a : Nat) (symbols : List Nat) : Mod :=
  let seen := if 2 ≤ symbols.length then symbols else SMap.get [] m.hbm.poison (a / 64 * 64)
  if seen = [] then (if symbols = [] then m else m.corrected a symbols) else (m.setPoison a seen).poisonMet a seen

/-- HBM_PATROL (spec 05, R152, R153): the symbols in error of the codeword it reads. An address outside HBM has no
codeword. The patrol pauses while the stack is not ON. -/
def execHbmPatrol (address : Nat) (symbols : List Nat) (s : State) : Out :=
  if hbmEnd ≤ address then .fault .unmappedAccess
  else
    .next (s.event (fun m =>
      if !m.dataPlane ∨ (m.stack (m.hbm.decode address).1).ps ≠ 2 then m
      else m.patrolRead address symbols))

end Sys2Proof.Machine
end

