-- ==== Sys2Proof/Machine/FieldTests.lean ====
section
/-! DEFINITION. Disabling units, strikes, field tests, patterns, the digest interval (spec 13, R413, R415 to R427, R432), and
faults of contexts, bundles and dies (spec 13, R433, R434; spec 01, R35). -/
namespace Sys2Proof.Machine

/-! ### UNIT_DISABLE, UNIT_ENABLE (spec 13, R415 to R417) -/

/-- Work of the open round that a unit still holds, open verdicts and re-executions included. -/
def Mod.unitOpen (m : Mod) (u : Nat) : Bool :=
  m.run.ents.any (fun e => e.2.st != .free && e.2.st != .done && (e.2.units ++ e.2.reUnits).any (fun x => unitWithin x u))

/-- Tests and diagnostics on a unit end ABORTED (spec 13, R417; spec 16, R501). -/
def Mod.abortTests (m : Mod) (u : Nat) : Mod :=
  { m with
    tests := { m.tests with running := m.tests.running.map (fun t =>
      if (t.target.kind == .tile || t.target.kind == .sparse) && unitWithin t.target.address u then { t with aborted := true }
      else t) },
    pwr := { m.pwr with diags := m.pwr.diags.map (fun d =>
      { d with aborted := d.aborted ++ (diagUnits d.unit).filter (fun x => unitWithin x u) }) } }

/-- The unit is disabled and fenced: FENCE record with cause DISABLE. -/
def Mod.disableNow (m : Mod) (u returned : Nat) : Mod :=
  let m := m.setUnit u (fun r => { r with disabled := true, draining := none })
  let m := if unitKind u = 3 then m.abortMargin (unitCore u) else m
  m.report (fenceReport u 5 returned Scope.none)

/-- ABANDON, or any disable with no plan RUNNING: running items return, the round is marked if ember output had left. -/
def Mod.abandon (m : Mod) (u : Nat) : Mod :=
  let n := (m.entsOn u).length
  (m.returnWork u Douse.abandon).disableNow u n

/-- A clinker, or a pending clinker (spec 01, R37). -/
def UnitRec.isClinker (r : UnitRec) : Bool := r.clinker || r.pending || r.retiring

/-- UNIT_DISABLE (spec 13, R416, R417; spec 01, R33, R34). -/
def execUnitDisable (h : Cmd) (unit : Half) (mode : Byte) (s : State) : Out :=
  .next (runCmd h
    { opcode := Op.unitDisable, ownerOnly := true, reserved := unitReserved unit.toNat,
      params := plainParams h (unitIllegal unit.toNat || decide (1 < mode.toNat)),
      run := fun m =>
        let u := unit.toNat
        let t : Ticket := ⟨h.port, h.tag⟩
        let r := m.unit u
        if r.draining.isSome ∧ mode = 0 then Ans.busy m
        else if r.draining.isSome then
          let m := (m.abortTests u).abandon u
          Ans.accepted ((m.completeOpt r.draining Op.unitDisable Cls.ok Detail.none []).complete t Op.unitDisable Cls.ok
            Detail.none [])
        else if r.isClinker ∨ r.disabled ∨ (unitKind u = 3 ∧ m.otherWithdrawn (unitCore u)) then
          Ans.rejected m Detail.badState
        else
          let m := m.abortTests u
          if mode = 1 ∨ m.plan.st ≠ .running then
            Ans.accepted ((m.abandon u).complete t Op.unitDisable Cls.ok Detail.none [])
          else Ans.accepted (m.setUnit u (fun r => { r with draining := some t })) } s)

/-- UNIT_DRAIN_COMPLETE (spec 13, R416). -/
def execUnitDrainComplete (unit : Half) (s : State) : Out :=
  .next (s.event (fun m =>
    match (m.unit unit.toNat).draining with
    | some t =>
      if m.unitOpen unit.toNat then m
      else (m.disableNow unit.toNat 0).complete t Op.unitDisable Cls.ok Detail.none []
    | none => m))

/-- UNIT_ENABLE (spec 13, R415, R417). -/
def execUnitEnable (h : Cmd) (unit : Half) (s : State) : Out :=
  .next (runCmd h
    { opcode := Op.unitEnable, ownerOnly := true, reserved := unitReserved unit.toNat,
      params := plainParams h (unitIllegal unit.toNat),
      run := fun m =>
        let u := unit.toNat
        let t : Ticket := ⟨h.port, h.tag⟩
        let r := m.unit u
        if r.draining.isSome ∨ r.testing.isSome then Ans.busy m
        else if r.disabled then
          Ans.accepted ((m.setUnit u (fun r => { r with disabled := false })).complete t Op.unitEnable Cls.ok Detail.none [])
        else if r.isClinker then
          Ans.accepted (m.setUnit u (fun r => { r with strikes := [], testing := some t }))
        else Ans.rejected m Detail.badState } s)

/-- UNIT_ENABLE_TEST_COMPLETE (spec 13, R415). -/
def execUnitEnableTestComplete (unit : Half) (pass : Bool) (s : State) : Out :=
  .next (s.event (fun m =>
    let u := unit.toNat
    match (m.unit u).testing with
    | some t =>
      if pass then
        (m.setUnit u (fun r => { r with testing := none, pending := false, retiring := false, enabling := true })).complete t
          Op.unitEnable Cls.ok Detail.none []
      else (m.setUnit u (fun r => { r with testing := none })).complete t Op.unitEnable Cls.faulted Detail.badState []
    | none => m))

/-- STRIKE_EXPIRY (spec 13, R413). -/
def execStrikeExpiry (unit : Half) (s : State) : Out :=
  .next (s.event (fun m => m.setUnit unit.toNat (fun r => { r with strikes := m.liveStrikes unit.toNat })))

/-! ### Test windows (spec 13, R418 to R422) -/

/-- Durations in ns and due intervals in seconds (spec 13, R420, R424). -/
def TestKind.ns : TestKind → Nat
  | .tile => 40000 | .sparse => 30000 | .stream => 10000 | .hbmPc => 26200 | .channel => 100000 | .coreMargin => 201000000
def TestKind.dueS : TestKind → Nat
  | .coreMargin => 168 * 3600 | _ => 24 * 3600
def TestKind.overdueS : TestKind → Nat
  | .coreMargin => 336 * 3600 | _ => 48 * 3600

/-- When a target falls due: a target that was never tested counts from power-on second 0. -/
def Mod.dueAt (m : Mod) (t : TestTarget) : Nat := (m.testRow t).last + TestKind.dueS t.kind

/-- The pseudo-channels of a core's near set (spec 05, R143). -/
def nearSet (core : Nat) : List Nat :=
  (List.range 64).map (fun p => privateStack core * 64 + p)
  ++ (List.range 32).map (fun p => sharedStack core * 64 + 32 * (core % 2) + p)

/-- What a core may test in a window of some kinds: units that hold no work and are in service, its stream engine while a
command context is free, its near set, the channels of its Lordo die's Avo dies. -/
def Mod.candidates (m : Mod) (core kinds : Nat) : List TestTarget :=
  let units := (diagUnits (coreWord core)).filter (fun u => !(m.unit u).noClaim && !m.unitOpen u)
  (if bit kinds 0 then (units.filter (fun u => unitKind u = 0)).map (fun u => ⟨.tile, u⟩) else [])
  ++ (if bit kinds 1 then (units.filter (fun u => unitKind u = 1)).map (fun u => ⟨.sparse, u⟩) else [])
  ++ (if bit kinds 2 && !(m.cmdCtxs core).isEmpty then [⟨.stream, core⟩] else [])
  ++ (if bit kinds 3 then (nearSet core).map (fun p => ⟨.hbmPc, p⟩) else [])
  ++ (if bit kinds 4 then (List.range 14).map (fun c => ⟨.channel, core / 4 * 14 + c⟩) else [])

/-- The earliest due target; ties go to the lower address. -/
def Mod.earliest (m : Mod) : List TestTarget → Option TestTarget
  | [] => none
  | t :: ts =>
    match m.earliest ts with
    | none => some t
    | some u =>
      if m.dueAt t < m.dueAt u ∨ (m.dueAt t = m.dueAt u ∧ t.address ≤ u.address) then some t else some u

/-- Window record `window` of the open round: its kinds and its cores. -/
def Mod.testWindow (m : Mod) (window : Nat) : Option (Nat × Nat) :=
  match (m.plan.plan.bind (fun p => m.hdr.map (p.testsOf ·))).bind (fun l => l.find? (fun e => e.1 == window)) with
  | some (_, .window _ kinds _ _ cores) => some (kinds, cores)
  | _ => none

/-- TEST_START (spec 13, R419): in window record `window` of the open round, on a core it names. -/
def Mod.testStart (m : Mod) (window core remainNs : Nat) : Mod :=
  match m.testWindow window with
  | some (kinds, cores) =>
    if m.run.phase = .run ∧ core < 8 ∧ bit cores core ∧ m.withdrawnCores = []
        ∧ !(m.tests.running.any (fun t => t.core == core)) then
      match m.earliest (m.candidates core kinds) with
      | some t =>
        if TestKind.ns t.kind ≤ remainNs then
          let ctx := if t.kind = .stream then (m.cmdCtxs core).head? else none
          { m with tests := { m.tests with running := m.tests.running ++ [⟨core, t, ctx, false⟩] } }
        else m
      | none => m
    else m
  | none => m

def execTestStart (window core remainNs : Nat) (s : State) : Out :=
  .next (s.event (fun m => m.testStart window core remainNs))

/-- TEST_COMPLETE (spec 13, R419, R421): results post at once. -/
def Mod.testComplete (m : Mod) (core : Nat) (r : TestOut) : Mod :=
  match m.tests.running.find? (fun t => t.core == core) with
  | some x =>
    let m := { m with tests := { m.tests with running := m.tests.running.filter (fun t => t.core != core) } }
    if x.aborted then m.setRow x.target (fun y => { y with result := TestRes.aborted })
    else
      let m := m.count Cnt.testRun 1
      if r.pass then m.rowDone x.target TestRes.pass
      else (m.rowDone x.target TestRes.fail).testFailed x.target r.column x.ctx
  | none => m

def execTestComplete (core : Nat) (result : TestOut) (s : State) : Out :=
  .next (s.event (fun m => m.testComplete core result))

/-- TEST_DUE (spec 13, R422): ATTN_TEST, once until the next completed test. -/
def execTestDue (target : TestTarget) (s : State) : Out :=
  .next (s.event (fun m =>
    if m.dueAt target ≤ m.powerOnS ∧ !(m.testRow target).dueSeen then
      (m.setRow target (fun y => { y with dueSeen := true })).attention Attn.test
    else m))

/-- TEST_OVERDUE (spec 13, R422): the record and ATTN_TEST, once per overdue period. -/
def execTestOverdue (target : TestTarget) (s : State) : Out :=
  .next (s.event (fun m =>
    if (m.testRow target).last + TestKind.overdueS target.kind ≤ m.powerOnS ∧ !(m.testRow target).overdueSeen then
      (m.setRow target (fun y => { y with overdueSeen := true })).testRecord target (m.testRow target).result 0xFF
        Detail.testOverdue Attn.test
    else m))

/-! ### Forced windows and margin tests (spec 13, R423, R424) -/

/-- What refuses both: another core withdrawn, a forced window or margin test pending, no data plane (spec 01, R47). -/
def Mod.noForce (m : Mod) (core : Nat) : Bool :=
  m.ctl.refLost || m.otherWithdrawn core || m.tests.forced.isSome || m.tests.margin.isSome

/-- TEST_WINDOW_FORCE (spec 13, R423). -/
def execTestWindowForce (h : Cmd) (core : Byte) (s : State) : Out :=
  .next (runCmd h
    { opcode := Op.testWindowForce, ownerOnly := true, params := plainParams h (decide (8 ≤ core.toNat)),
      run := fun m =>
        if m.noForce core.toNat then Ans.rejected m Detail.badState
        else Ans.accepted { m with tests := { m.tests with
          forced := some ⟨core.toNat, ⟨h.port, h.tag⟩, m.plan.st != .running, false⟩ } } } s)

/-- One forced test's result. -/
def Mod.forcedResult (m : Mod) (r : TestOut) : Mod :=
  let m := m.count Cnt.testRun 1
  if r.pass then m.rowDone r.target TestRes.pass
  else (m.rowDone r.target TestRes.fail).testFailed r.target r.column none

/-- FORCED_TEST_COMPLETE (spec 13, R423). -/
def execForcedTestComplete (core : Nat) (results : List TestOut) (s : State) : Out :=
  .next (s.event (fun m =>
    match m.tests.forced with
    | some t =>
      if t.core = core ∧ t.begun then
        let m := (results.foldl Mod.forcedResult { m with tests := { m.tests with forced := none } }).count Cnt.testForced 1
        let ok := results.all (fun r => r.pass)
        m.complete t.ticket Op.testWindowForce (if ok then Cls.ok else Cls.faulted)
          (if ok then Detail.none else Detail.testFail) []
      else m
    | none => m))

/-- MARGIN_TEST_RUN (spec 13, R424; spec 01, R38, R53). -/
def execMarginTestRun (h : Cmd) (core : Byte) (s : State) : Out :=
  .next (runCmd h
    { opcode := Op.marginTestRun, ownerOnly := true, params := plainParams h (decide (8 ≤ core.toNat)),
      run := fun m =>
        if m.noForce core.toNat ∨ m.noRelief core.toNat then Ans.rejected m Detail.badState
        else
          let m := { m with tests := { m.tests with margin := some ⟨core.toNat, ⟨h.port, h.tag⟩, false, false⟩ } }
          Ans.accepted (if m.plan.st = .running then m else m.beginMargin) } s)

/-- A unit's result of a margin test. -/
def MarginOut.result (r : MarginOut) : Nat :=
  if r.aborted then TestRes.aborted else if r.marginPass then TestRes.pass else if r.ownPass then TestRes.weak else TestRes.fail

def Mod.marginResult (m : Mod) (r : MarginOut) : Mod :=
  let res := MarginOut.result r
  if res = TestRes.aborted then m.setRow r.target (fun y => { y with result := res })
  else
    let m := m.rowDone r.target res
    if res = TestRes.weak then m.testRecord r.target res r.column Detail.testWeak Attn.integrity
    else if res = TestRes.fail then m.testFailed r.target r.column none
    else m

/-- The margin test of a core as a whole: the worst of its units' results; ABORTED if it was ended. -/
def marginOverall (aborted : Bool) (rs : List MarginOut) : Nat :=
  let l := rs.map MarginOut.result
  if aborted || TestRes.aborted ∈ l then TestRes.aborted
  else if TestRes.fail ∈ l then TestRes.fail
  else if TestRes.weak ∈ l then TestRes.weak
  else TestRes.pass

/-- MARGIN_TEST_COMPLETE (spec 13, R424): the core returns to service mode. The class of an ABORTED test's completion is
not stated: PARTIAL (assumption log 19). -/
def Mod.marginDone (m : Mod) (t : CoreTest) (rs : List MarginOut) : Mod :=
  let m := ({ m with tests := { m.tests with margin := none } }).setCore t.core (fun c => { c with kindling := false })
  let m := rs.foldl Mod.marginResult m
  let res := marginOverall t.aborted rs
  let target : TestTarget := ⟨.coreMargin, t.core⟩
  let m := if res = TestRes.aborted then m.setRow target (fun y => { y with result := res })
    else (m.rowDone target res).count Cnt.testRun 1
  if res = TestRes.aborted then m.complete t.ticket Op.marginTestRun Cls.part Detail.none []
  else if res = TestRes.fail then m.complete t.ticket Op.marginTestRun Cls.faulted Detail.testFail []
  else m.complete t.ticket Op.marginTestRun Cls.ok Detail.none []

def execMarginTestComplete (core : Nat) (results : List MarginOut) (s : State) : Out :=
  .next (s.event (fun m =>
    match m.tests.margin with
    | some t => if t.core = core ∧ (t.begun ∨ t.aborted) then m.marginDone t results else m
    | none => m))

/-! ### TEST_RESULT_READ (spec 13, R427), DIGEST_POLICY_SET (R432) -/

def Mod.resultEntry (m : Mod) (t : TestTarget) : Bytes :=
  let r := m.testRow t
  let isUnit := t.kind == .tile || t.kind == .sparse
  [BitVec.ofNat 8 (TestKind.num t.kind), BitVec.ofNat 8 r.result] ++ leBytes 2 t.address
    ++ [BitVec.ofNat 8 (if isUnit then (m.liveStrikes t.address).length else 0),
        BitVec.ofNat 8 (if t.kind = .tile then (m.unit t.address).steer else 0)]
    ++ zeros 2 ++ leBytes 4 (if r.result = 0 then 0 else r.last) ++ leBytes 4 (m.dueAt t)

/-- Every target in the order of R427. -/
def allTargets : List TestTarget :=
  let units := ((List.range 8).map (fun c => diagUnits (coreWord c))).flatten
  (units.filter (fun u => unitKind u = 0)).map (fun u => ⟨.tile, u⟩)
  ++ (units.filter (fun u => unitKind u = 1)).map (fun u => ⟨.sparse, u⟩)
  ++ (List.range 8).map (fun c => ⟨.stream, c⟩) ++ (List.range 768).map (fun p => ⟨.hbmPc, p⟩)
  ++ (List.range 28).map (fun c => ⟨.channel, c⟩) ++ (List.range 8).map (fun c => ⟨.coreMargin, c⟩)

def Mod.testResults (m : Mod) : Bytes := leBytes 4 3548 ++ zeros 12 ++ (allTargets.map m.resultEntry).flatten

/-- TEST_RESULT_READ (spec 13, R427). -/
def execTestResultRead (h : Cmd) (s : State) : Out :=
  .next (runCmd h
    { opcode := Op.testResultRead, ownerOnly := false, params := bufParams h 56784,
      run := fun m => Ans.ok (m.writeBuffer h m.testResults) } s)

/-- DIGEST_POLICY_SET (spec 13, R432): the interval waits for the next gated open. -/
def execDigestPolicySet (h : Cmd) (interval : Half) (s : State) : Out :=
  .next (runCmd h
    { opcode := Op.digestPolicySet, ownerOnly := true, params := plainParams h (decide (1024 < interval.toNat)),
      run := fun m => Ans.ok { m with tests := { m.tests with intervalStaged := some interval.toNat } } } s)

/-! ### Pattern packages (spec 13, R425, R426) -/

def patBodySize (p : Bytes) : Nat := fieldAt p 0x14 4

/-- The buffer length: the package, or its fixed part when body_size is illegal. -/
def patLength (p : Bytes) : Nat := if patBodySize p ≤ 16 * 2 ^ 20 then 0x580 + patBodySize p else 0x580

/-- The structure of a package. -/
def patFormOk (p : Bytes) : Bool :=
  slice p 0 8 == ascii "VKPATT09" && fieldAt p 8 2 == 1 && decide (fieldAt p 0xA 2 < 64) && fieldAt p 0xA 2 != 0
  && fieldAt p 0x10 4 != 0 && patBodySize p % 64 == 0 && decide (patBodySize p ≤ 16 * 2 ^ 20) && allZero (slice p 0x18 8)
  && decide (1 ≤ fieldAt p 0x60 2) && decide (fieldAt p 0x60 2 ≤ 1280)
  && allZero (slice p (0x62 + fieldAt p 0x60 2) (1280 - fieldAt p 0x60 2)) && allZero (slice p 0x562 30)

def Pattern.ofPackage (p : Bytes) : Pattern := ⟨fieldAt p 0xC 4, fieldAt p 0x10 4, fieldAt p 0xA 2, slice p 0x20 64⟩

/-- Every kind of a package is covered by another installed one. -/
def Tests.covered (t : Tests) (p : Pattern) : Bool :=
  (List.range 6).all (fun k => !(bit p.kinds k) || t.patterns.any (fun q => q.id != p.id && bit q.kinds k))

/-- The package that an install past 16 replaces: the lowest version among those that others cover. -/
def Tests.victim (t : Tests) : Option Pattern :=
  (t.patterns.filter t.covered).foldl (fun best p =>
    match best with
    | some b => if p.version < b.version then some p else some b
    | none => some p) none

/-- Install a checked package: class, detail, the tests after it. -/
def Tests.install_ (t : Tests) (p : Pattern) : Nat × Nat × Tests :=
  match t.patterns.find? (fun q => q.id == p.id) with
  | some q =>
    if p.version ≤ q.version then (Cls.rejected, Detail.badState, t)
    else (Cls.ok, Detail.none, { t with patterns := t.patterns.filter (fun x => x.id != p.id) ++ [p] })
  | none =>
    if t.patterns.length < 16 then (Cls.ok, Detail.none, { t with patterns := t.patterns ++ [p] })
    else match t.victim with
      | some v => (Cls.ok, Detail.none, { t with patterns := t.patterns.filter (fun x => x.id != v.id) ++ [p] })
      | none => (Cls.rejected, Detail.noResource, t)

/-- The checks of R426 in their order. -/
def Mod.checkPackage (m : Mod) (p : Bytes) : Nat × Nat × Tests :=
  if !patFormOk p then (Cls.rejected, Detail.badParam, m.tests)
  else if !Config.falconVerify m.fw.running.key (digest64 (slice p 0 0x62)) (slice p 0x62 (fieldAt p 0x60 2)) then
    (Cls.security, Detail.sigInvalid, m.tests)
  else if digest64 (slice p 0x580 (patBodySize p)) ≠ slice p 0x20 64 then (Cls.security, Detail.hashMismatch, m.tests)
  else m.tests.install_ (Pattern.ofPackage p)

/-- PATTERN_INSTALL (spec 13, R426): one at a time. -/
def execPatternInstall (h : Cmd) (package : HostRead) (s : State) : Out :=
  .next (runCmd h
    { opcode := Op.patternInstall, ownerOnly := true,
      params := fun m =>
        let len := match package with | .data bs => patLength bs | .error => 0x580
        if m.bufferOk h len false then none else some Detail.badParam,
      run := fun m =>
        if m.tests.install.isSome then Ans.busy m
        else match package with
          | .error => ⟨Cls.faulted, Detail.hostError, [], m⟩
          | .data bs => Ans.accepted { m with tests := { m.tests with install := some (⟨h.port, h.tag⟩, bs) } } } s)

/-- PATTERN_INSTALL_COMPLETE (spec 13, R426). -/
def execPatternInstallComplete (s : State) : Out :=
  .next (s.event (fun m =>
    match m.tests.install with
    | some (t, bs) =>
      let r := m.checkPackage bs
      ({ m with tests := { r.2.2 with install := none } }).complete t Op.patternInstall r.1 r.2.1 []
    | none => m))

/-! ### Faults of contexts, bundles and dies -/

/-- STREAM_CONTEXT_FAULT (spec 13, R433): the context is fenced until the next PLAN_START, the round douses with cause
FENCE. The FENCE record names the handle. -/
def Mod.contextFault (m : Mod) (h : Nat) : Mod :=
  if h < 4096 ∧ m.railsUp ∧ h ∉ m.fenced then
    let m := { m with fenced := m.fenced ++ [h] }
    let isPlan : Bool := match m.ctx h with
      | some c => c.use == .plan
      | none => false
    let m := if isPlan then m.markDouse Douse.fence else m
    m.reportFault { cls := Rec.fence, attn := Attn.fault, detail := Detail.unitFenced, scope := Scope.inBound,
                    payload := fencePayload (coreWord (h / 512)) 2 0 h }
  else m

def execStreamContextFault (handle : Nat) (s : State) : Out := .next (s.event (fun m => m.contextFault handle))

/-- NOC_LINK_FAULT (spec 01, R35): the bundle's seventh link takes over at the next PLAN_START; once it is spent the fault
is reported for relight. -/
def Mod.linkFault (m : Mod) (bundle : Nat) : Mod :=
  if !m.railsUp then m
  else
    let spent := bundle ∈ m.units.linkPending ∨ bundle ∈ m.units.linkUsed
    let m := if spent then m else { m with units := { m.units with linkPending := m.units.linkPending ++ [bundle] } }
    m.reportFault (fenceReport 0xFFFF 2 0 (if spent then Scope.relight else Scope.inBound))

def execNocLinkFault (bundle : Nat) (s : State) : Out := .next (s.event (fun m => m.linkFault bundle))

/-- DIE_FAULT (spec 13, R434; spec 03, R103; spec 09, R279; spec 11, R352): reported for relight. -/
def execDieFault (_place : DiePart) (s : State) : Out :=
  .next (s.event (fun m => if m.railsUp then m.reportFault (fenceReport 0xFFFF 2 0 Scope.relight) else m))

end Sys2Proof.Machine
end

