-- ==== Sys2Proof/Machine/Image.lean ====
section
/-! DEFINITION. The plan image (spec 03, R95, R96): header, directory, sections, and the records of each section read as they
stand (spec 03, R97, R102, R108, R110; spec 04, R124; spec 05, R160, R170; spec 09, R281, R282, R299, R303; spec 10,
R330 to R332, R341; spec 11, R353, R354; spec 12, R385 to R388, R399, R400; spec 13, R418, R428). -/
namespace Sys2Proof.Machine

/-! ### Sections -/

/-- A directory entry (spec 03, R95). -/
structure Section where
  kind : Nat
  count : Nat
  offset : Nat
  deriving DecidableEq, Repr

/-- Bytes of one record of a section type (spec 03, R96). -/
def recSize (t : Nat) : Nat :=
  match t with
  | 0x02 => 32 | 0x04 => 16 | 0x06 => 128 | 0x07 => 128 | 0x08 => 32 | 0x0B => 128 | 0x0E => 32 | _ => 64

/-- `n` bytes of an image at an offset, zero beyond its end. -/
def imgAt (img : Bytes) (off n : Nat) : Bytes := fitBytes n ((img.drop off).take n)

def imgSectionCount (img : Bytes) : Nat := fieldAt img 0x0A 2
def imgSize (img : Bytes) : Nat := fieldAt img 0x0C 4

/-- Directory entry i. -/
def imgSection (img : Bytes) (i : Nat) : Section :=
  ⟨fieldAt img (0x40 + 16 * i) 2, fieldAt img (0x44 + 16 * i) 4, fieldAt img (0x48 + 16 * i) 8⟩

def imgSections (img : Bytes) : List Section := (List.range (imgSectionCount img)).map (imgSection img)

/-- The section of a type; an absent one has no records. -/
def secOf (img : Bytes) (t : Nat) : Section := ((imgSections img).find? (fun s => s.kind == t)).getD ⟨t, 0, 0⟩

/-- A record: its image offset and its bytes. -/
structure ImgRec where
  off : Nat
  bytes : Bytes
  deriving DecidableEq, Repr

/-- The records of a section, in index order. -/
def recs (img : Bytes) (t : Nat) : List ImgRec :=
  let s := secOf img t
  (List.range s.count).map (fun i => ⟨s.offset + recSize t * i, imgAt img (s.offset + recSize t * i) (recSize t)⟩)

/-- Field of a record. -/
def ImgRec.u (r : ImgRec) (off n : Nat) : Nat := fieldAt r.bytes off n

/-! ### Rounds, woodpile, combine groups, barriers (spec 03) -/

/-- Round header (spec 03, R97). -/
def parseRound (r : ImgRec) : RoundHdr :=
  let w := r.u 0x02 2
  { roundNo := r.u 0x00 2, stepEnd := bit w 3, fabric := bit w 2, barrierFlag := bit w 1, stepGate := bit w 0,
    budgetNs := r.u 0x04 4, firstEntry := r.u 0x08 4, itemCount := r.u 0x0C 4, firstGroup := r.u 0x10 4,
    groupCount := r.u 0x14 4, openBarrier := r.u 0x18 2, settleSet := r.u 0x1A 2, slotTable := r.u 0x1C 2,
    streamCount := r.u 0x1E 2, firstStream := r.u 0x20 4, firstRoute := r.u 0x24 4, firstCollective := r.u 0x28 4,
    updateRef := r.u 0x2C 4, testWindow := r.u 0x30 4 }

/-- Engine code of a kind_word (spec 03, R102). -/
def engineOf : Nat → Engine
  | 1 => .nm | 2 => .sparse | 3 => .update | _ => .dense

/-- Woodpile entry (spec 03, R102). -/
def parseEntry (r : ImgRec) : WpEntry :=
  let w := r.u 0x04 2
  { itemIndex := r.u 0x00 4, engine := engineOf (bits w 15 12), gang := 2 ^ bits w 11 10, affinity := bits w 7 0,
    combineGroup := r.u 0x06 2, kPart := r.u 0x08 2, waitFlag := r.u 0x0A 2, waitValue := r.u 0x0C 4,
    doneFlag := r.u 0x10 2, estNs := r.u 0x14 4, itemRef := r.u 0x18 8 }

/-- Combine group (spec 03, R108). -/
def parseCombine (r : ImgRec) : Combine :=
  { destAddr := r.u 0x00 8, partBase := r.u 0x08 8, partStride := r.u 0x10 4, tensorId := r.u 0x14 4,
    firstIndex := r.u 0x18 8, destRowPitch := r.u 0x20 4, logicalRowLen := r.u 0x24 4, rows := r.u 0x28 2,
    cols := r.u 0x2A 2, outFmt := r.u 0x2C 4, parts := r.u 0x30 1, acc := bit (r.u 0x31 1) 0 }

/-- Barrier entry (spec 03, R110). -/
def parseBarrier (r : ImgRec) : Barrier := ⟨r.u 0x2 1 == 1, r.u 0x4 4, r.u 0x8 4⟩

/-! ### Tensors (spec 05) -/

def pclassOf : Nat → PClass
  | 1 => .working | 2 => .state | 3 => .version | 4 => .bank | 5 => .snapshot | _ => .scratch

def spaceOf : Nat → Space
  | 1 => .hbmNear | 2 => .pool | 3 => .host | _ => .hbmWide

/-- Allocation record (spec 05, R160). -/
def parseAlloc (r : ImgRec) : Alloc :=
  let w := r.u 0x02 2
  { pclass := pclassOf (bits w 15 12), space := spaceOf (bits w 11 8), rank := bits w 7 5, tensorId := r.u 0x04 4,
    base := r.u 0x08 8, fmt := r.u 0x10 4, scale := BitVec.ofNat 32 (r.u 0x14 4), invScale := BitVec.ofNat 32 (r.u 0x18 4),
    padBits := r.u 0x1C 4, extent := (List.range 6).map (fun d => r.u (0x20 + 4 * d) 4),
    stride := (List.range 5).map (fun d => r.u (0x38 + 8 * d) 8), scaleBase := r.u 0x60 8, scalePitch := r.u 0x68 4 }

/-- A level of a tiling record (spec 05, R170). -/
def parseLevel (r : ImgRec) (o : Nat) : TileLevel := ⟨r.u o 4, r.u (o + 4) 4, r.u (o + 8) 4, r.u (o + 12) 1, bit (r.u (o + 13) 1) 0⟩

/-- Tiling record (spec 05, R170). -/
def parseTiling (r : ImgRec) : Tiling :=
  { gang := 2 ^ r.u 0x01 1, tilingId := r.u 0x02 2, tensorA := r.u 0x04 4, tensorB := r.u 0x08 4, tensorC := r.u 0x0C 4,
    m := r.u 0x10 4, n := r.u 0x14 4, k := r.u 0x18 4,
    levels := [parseLevel r 0x20, parseLevel r 0x30, parseLevel r 0x40, parseLevel r 0x50] }

def parseTensor (r : ImgRec) : TensorRec := if r.u 0 1 = 2 then .tiling (parseTiling r) else .alloc (parseAlloc r)

/-! ### Settle sets, slot tables, detours (spec 04, spec 10) -/

/-- Member words of a list (spec 04, R125). -/
def memberWords (img : Bytes) (off n : Nat) : List Nat := (List.range n).map (fun i => fieldAt (imgAt img (off + 2 * i) 2) 0 2)

/-- Settle set (spec 04, R124). -/
def parseSet (img : Bytes) (r : ImgRec) : SettleSet :=
  { domain := r.u 0x02 1 == 1, gateFinite := bit (r.u 0x03 1) 0, gateDigest := bit (r.u 0x03 1) 1, timeoutUs := r.u 0x0C 4,
    stageBytes := r.u 0x10 8, finiteCollective := r.u 0x18 4,
    members := memberWords img ((secOf img 0x08).offset + r.u 0x08 4) (r.u 0x04 2) }

/-- Window entry (spec 10, R331). -/
def parseWindow (b : Bytes) : SlotWindow := ⟨fieldAt b 0 1, fieldAt b 1 1, fieldAt b 4 4, fieldAt b 8 4, fieldAt b 12 4⟩

/-- Signal entry (spec 10, R332). -/
def parseSignal (b : Bytes) : SlotSignal := ⟨fieldAt b 0 1, fieldAt b 2 2, fieldAt b 4 4, fieldAt b 8 2⟩

/-- The 16-byte entries of a list in SLOT_TABLES. -/
def slotList (img : Bytes) (off n : Nat) : List ImgRec :=
  (List.range n).map (fun i => ⟨(secOf img 0x09).offset + off + 16 * i, imgAt img ((secOf img 0x09).offset + off + 16 * i) 16⟩)

/-- A record of SLOT_TABLES (spec 10, R330). -/
def parseSlot (img : Bytes) (r : ImgRec) : SlotRec :=
  if r.u 0 1 = 2 then .members (memberWords img ((secOf img 0x09).offset + r.u 0x04 4) (r.u 0x02 2))
  else .table (r.u 0x08 4) ((slotList img (r.u 0x04 4) (r.u 0x02 2)).map (fun x => parseWindow x.bytes))
    ((slotList img (r.u 0x10 4) (r.u 0x0C 2)).map (fun x => parseSignal x.bytes))

/-- Detour record (spec 10, R341). -/
def parseDetour (r : ImgRec) : Detour :=
  { role := r.u 0x00 1,
    alts := (List.range (min 4 (r.u 0x01 1))).map (fun i =>
      let o := 0x08 + 8 * i
      ⟨r.u o 1, r.u (o + 1) 1, r.u (o + 2) 2, r.u (o + 4) 4⟩) }

/-! ### Routes (spec 09) -/

/-- Route descriptor (spec 09, R281, R282). -/
def parseRoute (r : ImgRec) : RouteDesc :=
  let w := r.u 0x02 2
  { mode := match r.u 0x01 1 with | 0 => .hash | 1 => .topk | _ => .reuse,
    last := bit w 15, scaleDispatch := bit w 14, weightedCombine := bit w 13, k := bits w 12 10 + 1,
    weightMode := match bits w 9 8 with | 0 => .unit | 1 => .score | _ => .norm,
    h := bits w 7 4 + 1, tokens := r.u 0x04 4, countAddr := r.u 0x08 8, salt := r.u 0x10 8, keyRec := r.u 0x18 2,
    scoreRec := r.u 0x1A 2, tableRec := r.u 0x1C 2, maskRec := r.u 0x1E 2, inRec := r.u 0x20 2, outRec := r.u 0x22 2,
    retRec := r.u 0x24 2, qhdrRec := r.u 0x26 2, qvecRec := r.u 0x28 2, qoutRec := r.u 0x2A 2, sourceRoute := r.u 0x2C 2,
    capacity := r.u 0x2E 2, firstBinding := r.u 0x30 2, bindingCount := r.u 0x32 2, dispatchFlag := r.u 0x34 2,
    returnFlag := r.u 0x36 2, outFlag := r.u 0x38 2, combineFlag := r.u 0x3A 2, outValue := r.u 0x3C 4,
    timeoutUs := r.u 0x40 4, startFlag := r.u 0x44 2, startValue := r.u 0x48 4,
    group := (List.range (bits w 3 1 + 1)).map (fun i => r.u (0x50 + 2 * i) 2) }

/-- Binding record (spec 09, R299). -/
def parseBinding (r : ImgRec) : List BindEntry :=
  (List.range (r.u 0x01 1)).map (fun i =>
    let o := 0x10 + 8 * i
    ⟨r.u o 4, r.u (o + 4) 2, r.u (o + 6) 1, bit (r.u (o + 7) 1) 0⟩)

/-- Mask generator record (spec 09, R303). -/
def parseMask (r : ImgRec) : MaskGen :=
  { pattern := match r.u 0x01 1 with | 0 => .causal | 1 => .window | 2 => .document | _ => .documentCausal,
    last := bit (r.u 0x02 2) 15, vfmt := bits (r.u 0x02 2) 14 11, row0 := r.u 0x04 4, rowCount := r.u 0x08 4,
    qOffset := r.u 0x0C 4, col0 := r.u 0x10 4, colCount := r.u 0x14 4, windowLeft := r.u 0x18 4, windowRight := r.u 0x1C 4,
    segRec := r.u 0x20 2, outRec := r.u 0x22 2, doneFlag := r.u 0x24 2, rowSlot := r.u 0x28 4 }

/-- A record of ROUTES (spec 09, R278). -/
def parseRouteRec (r : ImgRec) : RouteRec :=
  match r.u 0 1 with
  | 2 => .binding (r.u 0x02 2) (parseBinding r)
  | 3 => .mask (parseMask r)
  | _ => .route (parseRoute r)

/-! ### Collectives (spec 11) -/

def collOpOf : Nat → CollOp
  | 2 => .allReduce | 3 => .allGather | 4 => .normFinite | 5 => .tieSum | 6 => .ortho | 7 => .seed | _ => .reduceScatter

/-- Collective descriptor (spec 11, R353, R354). -/
def parseColl (r : ImgRec) : Coll :=
  let w := r.u 0x02 2
  let g := r.u 0x08 2
  { op := collOpOf (r.u 0x00 1), last := bit w 15, subLast := bit w 14, uses := bits w 13 11 + 1, memberSet := r.u 0x04 4,
    a := bits g 15 13 + 1, b := bits g 12 10 + 1, c := bits g 9 5 + 1, startFlag := r.u 0x0A 2, startValue := r.u 0x0C 4,
    shardElems := r.u 0x10 4, srcRec := r.u 0x14 2, dstRec := r.u 0x16 2, stageRec := r.u 0x18 2, doneFlag := r.u 0x1A 2,
    timeoutUs := r.u 0x1C 4, emptyRoute := r.u 0x20 2, emptyExpert := r.u 0x22 1, normFirst := r.u 0x24 2,
    normCount := r.u 0x26 2 }

/-! ### Updates (spec 12) -/

/-- Update descriptor (spec 12, R385, R386). -/
def parseUpdate (r : ImgRec) : UpdDesc :=
  { rule := match r.u 0x01 1 with | 0 => .sgdm | 1 => .adamw | 2 => .signm | _ => .factored,
    last := bit (r.u 0x02 2) 15, nesterov := bit (r.u 0x02 2) 14, group := r.u 0x04 2, versionSet := r.u 0x06 2,
    masterRec := r.u 0x08 2, gradRec := r.u 0x0A 2, state1Rec := r.u 0x0C 2, state2Rec := r.u 0x0E 2,
    gatherRec := r.u 0x10 2, fullRec := r.u 0x12 2, ctrRec := r.u 0x14 2, shardElems := r.u 0x18 4,
    ruleShards := r.u 0x1C 2, refreshShards := r.u 0x1E 2, elems := r.u 0x20 4, rowLen := r.u 0x24 4 }

/-- Group record (spec 12, R388). -/
def parseGroup (r : ImgRec) : GroupRec :=
  let f (o : Nat) : F32 := BitVec.ofNat 32 (r.u o 4)
  ⟨r.u 0x02 2, f 0x04, f 0x08, f 0x0C, f 0x10, f 0x14⟩

/-- Version set record (spec 12, R399). -/
def parseVset (r : ImgRec) : VersionSet := ⟨r.u 0x01 1, r.u 0x02 2, r.u 0x04 4, r.u 0x08 4⟩

def pinActionOf : Nat → PinAction
  | 0 => .pin | 1 => .use | _ => .release

/-- Binding entries of a round version record (spec 12, R400). -/
def parseBinds (r : ImgRec) : List VerBind :=
  (List.range (min 6 (r.u 0x01 1))).map (fun i =>
    let o := 0x10 + 8 * i
    ⟨r.u o 2, r.u (o + 2) 1, pinActionOf (r.u (o + 3) 1), r.u (o + 4) 1⟩)

/-- A record of UPDATES (spec 12, R384). -/
def parseUpdRec (r : ImgRec) : UpdRec :=
  match r.u 0 1 with
  | 2 => .group (parseGroup r)
  | 3 => .vset (parseVset r)
  | 4 => .bind (bit (r.u 0x02 2) 15) (parseBinds r)
  | _ => .update (parseUpdate r)

/-! ### Test windows (spec 13) -/

/-- A record of TEST_WINDOWS (spec 13, R418, R428). -/
def parseTestRec (r : ImgRec) : TestRec :=
  if r.u 0 1 = 2 then .digest (bit (r.u 0x02 2) 15) (r.u 0x04 4) (r.u 0x08 4)
  else .window (bit (r.u 0x02 2) 15) (r.u 0x01 1) (r.u 0x04 4) (r.u 0x08 4) (r.u 0x0C 1)

/-! ### The plan -/

/-- The plan that an image holds. -/
def parsePlan (img : Bytes) : Plan :=
  { planId := fieldAt img 0x10 8, seed := BitVec.ofNat 64 (fieldAt img 0x18 8), opPoint := fieldAt img 0x26 1,
    bodyStart := fieldAt img 0x2C 4, itilakar := fieldAt img 0x30 4, imageSize := imgSize img,
    rounds := (recs img 0x01).map parseRound, woodpile := (recs img 0x02).map parseEntry,
    combines := (recs img 0x03).map parseCombine, barriers := (recs img 0x04).map parseBarrier,
    items := (recs img 0x05).map (fun r => r.bytes), tensors := (recs img 0x06).map parseTensor,
    streams := (recs img 0x07).map (fun r => parseStream r.bytes), sets := (recs img 0x08).map (parseSet img),
    slots := (recs img 0x09).map (parseSlot img), detours := (recs img 0x0A).map parseDetour,
    routes := (recs img 0x0B).map parseRouteRec, colls := (recs img 0x0C).map parseColl,
    updates := (recs img 0x0D).map parseUpdRec, tests := (recs img 0x0E).map parseTestRec }

end Sys2Proof.Machine
end

