-- ==== Sys2Proof/Machine/Validate.lean ====
section
/-! DEFINITION. Validation of a plan image: the checks 0x01 to 0x06, 0x0B and 0x0C (spec 03, R95 to R97, R102, R110 to R112; spec 05,
R151). -/
namespace Sys2Proof.Machine

/-- A failed check (spec 03, R111, R113): code, section type, sub-code, image offset of the field. -/
structure Fail where
  check : Nat
  section_ : Nat
  sub : Nat
  offset : Nat
  deriving DecidableEq, Repr

/-- The offset of the first test that fails: (fails, offset). -/
def firstBad (l : List (Bool × Nat)) : Option Nat := (l.find? (fun x => x.1)).map (·.2)

/-- The first failing field of a record: (fails, offset in the record). -/
def ImgRec.fails (r : ImgRec) (check section_ : Nat) (l : List (Bool × Nat)) : Option Fail :=
  (firstBad l).map (fun o => ⟨check, section_, 0, r.off + o⟩)

/-- The first failing sub-code of a record of check 0x0E: (fails, sub-code, offset in the record). -/
def ImgRec.failsSub (r : ImgRec) (section_ : Nat) (l : List (Bool × Nat × Nat)) : Option Fail :=
  (l.find? (fun x => x.1)).map (fun x => ⟨0x0E, section_, x.2.1, r.off + x.2.2⟩)

/-- A reserved field of a record is not zero. -/
def ImgRec.rsv (r : ImgRec) (off n : Nat) : Bool := (imgAt r.bytes off n).any (fun b => b != 0)

/-- The records of a section with their indices. -/
def recsI (img : Bytes) (t : Nat) : List (ImgRec × Nat) := (recs img t).zipIdx

/-! ### HEADER, POPULATION, DISTANCE, LIMITS (spec 03, R95 to R97, R111) -/

/-- The header's own fields. -/
def headerFail (img : Bytes) : Option Fail :=
  let n := imgSize img
  (firstBad
    [(img.take 8 != ascii "VKPLAN09", 0x00), (fieldAt img 0x08 2 != 1, 0x08),
     (imgSectionCount img == 0 || decide (64 < imgSectionCount img), 0x0A),
     (n % 64 != 0 || n == 0 || decide (0xFFFFFFC0 < n), 0x0C), (fieldAt img 0x27 1 != 0, 0x27),
     (fieldAt img 0x34 12 != 0, 0x34)]).map (fun o => ⟨0x01, 0, 0, o⟩)

/-- The bytes that a section's records take. -/
def Section.span (s : Section) : Span := ⟨s.offset, s.offset + s.count * recSize s.kind⟩

/-- A directory entry against the entries before it. -/
def sectionFail (img : Bytes) (before : List Section) (s : Section) (i : Nat) : Option Fail :=
  let dirEnd := 0x40 + 16 * imgSectionCount img
  let outside := s.offset % 64 != 0 || decide (s.offset < dirEnd) || decide (imgSize img < s.offset)
  (firstBad
    [(s.kind == 0 || decide (0x0E < s.kind) || before.any (fun b => b.kind == s.kind), 0x0),
     (fieldAt img (0x42 + 16 * i) 2 != 0, 0x2),
     (!outside && decide (imgSize img < s.span.hi), 0x4),
     (outside || before.any (fun b => b.span.meets s.span), 0x8)]).map (fun o => ⟨0x01, 0, 0, 0x40 + 16 * i + o⟩)

/-- The directory. -/
def directoryFail (img : Bytes) : Option Fail :=
  let ss := imgSections img
  if imgSize img < 0x40 + 16 * imgSectionCount img then some ⟨0x01, 0, 0, 0x0A⟩
  else match ss.zipIdx.findSome? (fun x => sectionFail img (ss.take x.2) x.1 x.2) with
    | some f => some f
    | none => if [0x01, 0x02, 0x05].all (fun t => ss.any (fun s => s.kind == t)) then none else some ⟨0x01, 0, 0, 0x0A⟩

/-- Checks 0x02 to 0x04. -/
def limitsFail (img : Bytes) (p : Plan) (generation : Nat) : Option Fail :=
  let n := fieldAt img 0x28 4
  if fieldAt img 0x24 2 ≠ population then some ⟨0x02, 0, 0, 0x24⟩
  else if fieldAt img 0x20 4 ≠ generation then some ⟨0x03, 0, 0, 0x20⟩
  else match firstBad
      [(decide (7 < p.opPoint), 0x26), (n == 0 || decide (65535 < n) || p.rounds.length != n, 0x28),
       (decide (n < p.bodyStart), 0x2C)] with
    | some o => some ⟨0x04, 0, 0, o⟩
    | none => ((recsI img 0x01).find? (fun x => bit (x.1.u 0x02 2) 0 != (x.2 == p.bodyStart))).map
        (fun x => ⟨0x04, 0, 0, x.1.off + 0x02⟩)

/-! ### ROUND (spec 03, R97) -/

/-- An index of a round header: none, or inside its section. -/
def badRef (x n : Nat) : Bool := x != 0xFFFFFFFF && decide (n ≤ x)

/-- Another round of lower index shares part of a range without an equal header. -/
def sharesRange (r : ImgRec) (before : List ImgRec) (first count : Nat) : Bool :=
  let span (x : ImgRec) : Span := ⟨x.u first 4, x.u first 4 + x.u count 4⟩
  before.any (fun b => (span b).meets (span r) && b.bytes.drop 2 != r.bytes.drop 2)

def roundFail (p : Plan) (before : List ImgRec) (r : ImgRec) (i : Nat) : Option Fail :=
  let h := parseRound r
  let tableBad := match p.slots[h.slotTable]? with | some (.table _ _ _) => false | _ => true
  r.fails 0x05 0x01
    [(h.roundNo != i, 0x00), (bits (r.u 0x02 2) 15 4 != 0, 0x02),
     (decide (h.budgetNs < 20000) || decide (10000000 < h.budgetNs), 0x04),
     (decide (p.woodpile.length < h.firstEntry + h.itemCount) || sharesRange r before 0x08 0x0C, 0x08),
     (decide (262144 < h.itemCount), 0x0C),
     (decide (p.combines.length < h.firstGroup + h.groupCount) || sharesRange r before 0x10 0x14, 0x10),
     (decide (4096 < h.groupCount), 0x14), (!h.barrierFlag && h.openBarrier != 0xFFFF, 0x18),
     (tableBad && (h.fabric || h.slotTable != 0xFFFF), 0x1C), (decide (4096 < h.streamCount), 0x1E),
     (decide (p.streams.length < h.firstStream + h.streamCount), 0x20), (badRef h.firstRoute p.routes.length, 0x24),
     (badRef h.firstCollective p.colls.length, 0x28), (badRef h.updateRef p.updates.length, 0x2C),
     (badRef h.testWindow p.tests.length, 0x30), (r.rsv 0x34 12, 0x34)]

def roundsFail (img : Bytes) (p : Plan) : Option Fail :=
  let rs := recs img 0x01
  rs.zipIdx.findSome? (fun x => roundFail p (rs.take x.2) x.1 x.2)

/-! ### ENTRY (spec 03, R102, R105) -/

/-- The position that a woodpile entry must name: its place in a round that holds it. -/
def Plan.positionOf (p : Plan) (i : Nat) : Option Nat :=
  (p.rounds.find? (fun r => decide (r.firstEntry ≤ i) && decide (i < r.firstEntry + r.itemCount))).map (fun r => i - r.firstEntry)

def entryFail (p : Plan) (r : ImgRec) (i : Nat) : Option Fail :=
  let e := parseEntry r
  let w := r.u 0x04 2
  let update := e.engine == .update
  r.fails 0x06 0x02
    [((match p.positionOf i with | some k => e.itemIndex != k | none => false), 0x00),
     (decide (3 < bits w 15 12) || bits w 11 10 == 3 || bits w 9 8 != 0
       || (bits w 11 10 != 0 && (e.engine == .sparse || update)), 0x04),
     (update && e.combineGroup != 0xFFFF, 0x06), (!update && e.combineGroup == 0xFFFF && e.kPart != 0, 0x08),
     (decide (1023 < e.waitFlag) && e.waitFlag != 0xFFFF, 0x0A), (e.waitFlag == 0xFFFF && e.waitValue != 0, 0x0C),
     (flagBad e.doneFlag, 0x10), (r.rsv 0x12 2, 0x12), (e.estNs == 0 || decide (10000 < e.estNs), 0x14),
     ((if update then e.itemRef != 0 else e.itemRef % 64 != 0 || decide (64 * p.items.length ≤ e.itemRef)), 0x18)]

def entriesFail (img : Bytes) (p : Plan) : Option Fail := (recsI img 0x02).findSome? (fun x => entryFail p x.1 x.2)

/-! ### BUDGET (spec 03, R112) -/

/-- Pool of an entry: units per core, units of the entry. -/
def WpEntry.pool (e : WpEntry) : Nat × Nat :=
  match e.engine with
  | .sparse => (32, 1) | .update => (1, 1) | _ => (256, e.gang * e.gang)

/-- need_pool over the entries of a pool. -/
def poolNeed (es : List WpEntry) (perCore : Nat) : Nat :=
  let es := es.filter (fun e => e.pool.1 == perCore)
  ceilDiv ((es.map (fun e => e.estNs * e.pool.2)).sum) (7 * perCore) + (es.map (fun e => e.estNs)).foldl max 0

def budgetFail (img : Bytes) (p : Plan) : Option Fail :=
  (recs img 0x01).findSome? (fun r =>
    let h := parseRound r
    r.fails 0x0B 0x01 [([256, 32, 1].any (fun k => decide (h.budgetNs < poolNeed (p.entriesOf h) k)), 0x04)])

/-! ### BARRIER (spec 03, R110) -/

def barrierFail (p : Plan) (r : ImgRec) (i : Nat) : Option Fail :=
  let b := parseBarrier r
  let kind := r.u 0x2 1
  r.fails 0x0C 0x04
    [(r.u 0x0 2 != i, 0x0), (decide (1 < kind), 0x2), (r.rsv 0x3 1, 0x3),
     ((if kind = 0 then b.memberSet != 0 else (p.members b.memberSet).isEmpty), 0x4),
     (decide (b.timeoutUs < 10) || decide (1000000 < b.timeoutUs), 0x8), (r.rsv 0xC 4, 0xC)]

def barriersFail (img : Bytes) (p : Plan) : Option Fail :=
  match (recs img 0x01).findSome? (fun r =>
      let h := parseRound r
      r.fails 0x0C 0x01 [(h.barrierFlag && decide (p.barriers.length ≤ h.openBarrier), 0x18)]) with
  | some f => some f
  | none => (recsI img 0x04).findSome? (fun x => barrierFail p x.1 x.2)

end Sys2Proof.Machine
end

