-- ==== Sys2Proof/Machine/PlanIo.lean ====
section
/-! DEFINITION. What the work of a round reads and writes, by the plan alone (spec 03, R107, R108, R558; spec 04, R121; spec 06,
R180; spec 07, R222 to R231; spec 08, R250 to R268; spec 09, R292 to R296, R303; spec 11, R355, R360, R371; spec 12, R387
to R395). -/
namespace Sys2Proof.Machine

/-- Reads and writes of a piece of work. `loose` holds ranges of which it reads a part that only the data fixes. -/
structure PlanIo where
  reads : List Span
  loose : List Span
  writes : List Span

def PlanIo.none : PlanIo := ⟨[], [], []⟩

/-! ### Ranges of records -/

/-- The scale bytes of columns [c, c + n) of row q. -/
def Alloc.scaleRow (a : Alloc) (q c n : Nat) : List Span :=
  if a.fw.fmt = .fp4b ∧ 0 < n then [⟨a.scaleAddr q c, a.scaleAddr q (c + n - 1) + 1⟩] else []

/-- Columns [c, c + n) of row q inside the logical extents. -/
def Alloc.rowPart (a : Alloc) (q c n : Nat) : List Span :=
  let n := min n (a.cols - c)
  if q < a.rows ∧ c < a.cols ∧ 0 < n then a.rowSpan q c n :: a.scaleRow q c n else []

/-- Rows [r, r + nr) and columns [c, c + nc) of an outer slice inside the logical extents. -/
def Alloc.block (a : Alloc) (outer r nr c nc : Nat) : List Span :=
  ((List.range nr).map (fun i => a.rowPart (a.rowAt outer (r + i)) c nc)).flatten

/-- Elements [first, first + n) in row-major order. -/
def Alloc.elemSpans (a : Alloc) (first n : Nat) : List Span :=
  if n = 0 ∨ a.cols = 0 then []
  else ((List.range ((first + n - 1) / a.cols - first / a.cols + 1)).map (fun i =>
    let q := first / a.cols + i
    let lo := if i = 0 then first % a.cols else 0
    a.rowPart q lo (min a.cols (first + n - q * a.cols) - lo))).flatten

/-- Bytes [off, off + n) of a record. -/
def Alloc.bytesAt (a : Alloc) (off n : Nat) : List Span := [⟨a.base + off, a.base + off + n⟩]

def optSpans (a : Option Alloc) (f : Alloc → List Span) : List Span := match a with | some a => f a | none => []

/-- Both ranges of the record at an index. -/
def Plan.recSpans (p : Plan) (i : Nat) : List Span := optSpans (p.alloc i) Alloc.spans

/-! ### Combine groups (spec 03, R108) -/

/-- The group of an entry. -/
def Plan.groupOf (p : Plan) (r : RoundHdr) (e : WpEntry) : Option Combine :=
  if e.combineGroup = 0xFFFF then none else (p.groupsOf r)[e.combineGroup]?

/-- Part slot k of a group. -/
def Combine.part (g : Combine) (k : Nat) : Span :=
  ⟨g.partBase + k * g.partStride, g.partBase + k * g.partStride + g.rows * g.cols * 4⟩

/-- The destination block by the group's record. -/
def Plan.groupDest (p : Plan) (g : Combine) : List Span :=
  match p.allocById g.tensorId with
  | some (_, a) =>
    if a.cols = 0 then []
    else ((List.range g.rows).map (fun r => a.rowPart (g.firstIndex / a.cols + r) (g.firstIndex % a.cols) g.cols)).flatten
  | none => []

def Plan.groupIo (p : Plan) (g : Combine) : PlanIo :=
  ⟨(List.range g.parts).map g.part ++ (if g.acc then p.groupDest g else []), [], p.groupDest g⟩

/-! ### Dense entries (spec 07) -/

/-- The stored parts of A and B. -/
def Plan.denseReads (p : Plan) (d : DenseItem) : List Span :=
  let ao := if d.aBcast then 0 else d.outer
  let bo := if d.bBcast then 0 else d.outer
  (if d.op = .nm then optSpans (p.alloc d.aRec) (fun a => a.block ao d.m0 d.m (d.k0 / 2) (d.k / 2))
      ++ optSpans (p.alloc d.aMeta) (fun a => a.block ao d.m0 d.m (d.k0 / 8) (d.k / 8))
    else if d.aT then optSpans (p.alloc d.aRec) (fun a => a.block ao d.k0 d.k d.m0 d.m)
    else optSpans (p.alloc d.aRec) (fun a => a.block ao d.m0 d.m d.k0 d.k))
  ++ optSpans (p.alloc d.bRec) (fun b => if d.bT then b.block bo d.n0 d.n d.k0 d.k else b.block bo d.k0 d.k d.n0 d.n)

/-- The output extent. -/
def Plan.denseWrites (p : Plan) (d : DenseItem) : List Span :=
  if d.nmOut then optSpans (p.alloc d.cRec) (fun a => a.block d.outer d.m0 d.m (d.n0 / 2) (d.n / 2))
    ++ optSpans (p.alloc d.cMeta) (fun a => a.block d.outer d.m0 d.m (d.n0 / 8) (d.n / 8))
  else optSpans (p.alloc d.cRec) (fun a => a.block d.outer d.m0 d.m d.n0 d.n)

def Plan.denseIo (p : Plan) (r : RoundHdr) (e : WpEntry) (d : DenseItem) : PlanIo :=
  let d := d.sized false none
  let ws := match p.groupOf r e with
    | some g => [g.part e.kPart]
    | none => p.denseWrites d
  ⟨p.denseReads d ++ (if d.op = .acc then ws else []), [], ws⟩

/-! ### Sparse entries (spec 08) -/

/-- Bytes of a part slot (R266). -/
def SpItem.partBytes (x : SpItem) : Nat :=
  if x.op = .spmm then ceilDiv (x.n * 4) 64 * 64 else ceilDiv ((x.t + 1) * x.bRowCap * 8) 64 * 64

/-- The poster of a SEGMENT item. -/
def Plan.posterOf (p : Plan) (ref : Nat) : Option SpItem :=
  match (p.items[ref / 64]?).bind SpRec.parse with
  | some (.item x) => some x
  | _ => none

/-- Operand reads: dense operands exactly, RLZ ones in part. -/
def Plan.sparseReads (p : Plan) (x : SpItem) : List Span × List Span :=
  match x.op with
  | .spmm => (optSpans (p.alloc x.bRec) (fun b => b.block 0 0 x.k x.n0 x.n), p.recSpans x.aRec)
  | .spgemm => ([], p.recSpans x.aRec ++ p.recSpans x.bRec)
  | .sddmm => (optSpans (p.alloc x.aRec) (fun a => a.block 0 x.m0 x.m 0 x.k) ++ optSpans (p.alloc x.bRec) (fun b => b.block 0 0 x.n 0 x.k),
      p.recSpans x.maskRec)
  | .spdot => ([], p.recSpans x.aRec ++ p.recSpans x.bRec ++ p.recSpans x.maskRec)

/-- What an item writes of C: an RLZ C by the directory entries of its rows, and for SPGEMM their row slots. -/
def Plan.sparseC (p : Plan) (x : SpItem) : List Span :=
  optSpans (p.alloc x.cRec) (fun c =>
    match x.op with
    | .spmm => c.block 0 x.m0 x.m x.n0 x.n
    | .spgemm => c.bytesAt (8 * x.m0) (8 * x.m)
        ++ c.bytesAt (rlzDirBytes x.rows + 64 * (x.m0 * x.cRowSlot)) (64 * (x.m * x.cRowSlot))
    | _ => c.bytesAt (8 * x.m0) (8 * x.m))

/-- The slots of an item's slice. -/
def Plan.sliceSpans (p : Plan) (x : SpItem) (slot n : Nat) : List Span :=
  if n = 0 then [] else optSpans (p.alloc x.segRec) (fun a => a.bytesAt (32 * slot) (32 * n))

def Plan.sparseIo (p : Plan) (r : RoundHdr) (e : WpEntry) (x : SpRec) : PlanIo :=
  match x with
  | .item x =>
    let rd := p.sparseReads x
    let ws := match p.groupOf r e with
      | some g => [g.part e.kPart]
      | none => p.sparseC x
    ⟨rd.1, rd.2, ws ++ p.sliceSpans x x.segBase x.segCap⟩
  | .segment ref slot =>
    match p.posterOf ref with
    | some x =>
      let rd := p.sparseReads x
      ⟨rd.1 ++ p.sliceSpans x slot 1, rd.2,
        if x.partRec = 0xFFFF then [] else optSpans (p.alloc x.partRec) (fun a => a.bytesAt (slot * x.partBytes) x.partBytes)⟩
    | none => PlanIo.none

/-! ### Update entries (spec 12, R387 to R395) -/

/-- First element and count of shard s of n elements. -/
def shardRange (s per n : Nat) : Nat × Nat := (s * per, min ((s + 1) * per) n - s * per)

/-- N: the elements of the full tensor. -/
def Plan.fullElems (p : Plan) (u : UpdDesc) : Nat := ((p.alloc u.fullRec).map (fun a => a.elems)).getD 0

def Plan.updateIo (p : Plan) (u : UpdDesc) (s : Nat) : PlanIo :=
  let part (rec_ : Nat) (x : Nat × Nat) : List Span :=
    if rec_ = 0xFFFF then [] else optSpans (p.alloc rec_) (fun a => a.elemSpans x.1 x.2)
  let ctr := optSpans (p.alloc u.ctrRec) (fun a => a.bytesAt 0 16)
  if s < u.ruleShards then
    let x := shardRange s u.shardElems u.elems
    let stat := match u.rule with
      | .factored => part u.state1Rec (x.1 / u.rowLen, x.2 / u.rowLen) ++ part u.state2Rec (s * u.rowLen, u.rowLen)
      | _ => part u.state1Rec x ++ part u.state2Rec x
    ⟨part u.gradRec x ++ part u.masterRec x ++ stat ++ ctr, [],
      part u.masterRec x ++ stat ++ part u.gatherRec x ++ (if s = 0 then ctr else [])⟩
  else
    let x := shardRange (s - u.ruleShards) u.shardElems (p.fullElems u)
    ⟨part u.fullRec x, [], match p.vset u.versionSet with | some v => part v.slotRec x | none => []⟩

/-- Reads and writes of an entry of a round. -/
def Plan.entryIo (p : Plan) (r : RoundHdr) (e : WpEntry) : PlanIo :=
  match e.engine with
  | .sparse => match SpRec.parse (p.itemBytes e) with | some x => p.sparseIo r e x | none => PlanIo.none
  | .update => match p.updateOf r with | some u => p.updateIo u.2 e.kPart | none => PlanIo.none
  | _ => match DenseItem.parse (p.itemBytes e) with | some d => p.denseIo r e d | none => PlanIo.none

/-! ### Streams, collectives, routes -/

def StreamDesc.io (d : StreamDesc) : PlanIo :=
  let ws := if d.remote ∨ d.kind = .index then [] else [d.dstSpan]
  ⟨[], d.srcSpan :: (if d.kind.accumulates then ws else []), ws⟩

/-- The records of a TIE_SUM's inputs. -/
def Plan.tieInputs (p : Plan) (c : Coll) : List Span := ((List.range c.uses).map (fun i => p.recSpans (c.srcRec + i))).flatten

/-- A collective: its source, what it changes in place, its destination and stage. -/
def Plan.collIo (p : Plan) (c : Coll) : PlanIo :=
  let dst := p.recSpans c.dstRec
  match c.op with
  | .tieSum => ⟨[], p.tieInputs c, dst⟩
  | .ortho => ⟨[], dst, dst⟩
  | .seed => ⟨[], [], dst⟩
  | .normFinite =>
    ⟨[], ((List.range c.normCount).map (fun i => match p.colls[c.normFirst + i]? with | some x => p.recSpans x.dstRec | none => [])).flatten,
      dst⟩
  | _ => ⟨[], p.recSpans c.srcRec, dst ++ p.recSpans c.stageRec⟩

/-- Writes of DISPATCH at the home: headers and vectors of its queues. -/
def Plan.queueSpans (p : Plan) (d : RouteDesc) : List Span :=
  ((List.range d.h).map (fun x => p.recSpans (d.qhdrRec + x) ++ p.recSpans (d.qvecRec + x))).flatten

/-- What RETURN reads at the home. -/
def Plan.returnReads (p : Plan) (d : RouteDesc) : List Span :=
  ((List.range d.h).map (fun x => p.recSpans (d.qoutRec + x))).flatten

/-- What ROUTE and DISPATCH read at the source. -/
def Plan.routeReads (p : Plan) (d : RouteDesc) : List Span :=
  p.recSpans d.inRec ++ (if d.keyRec = 0xFFFF then [] else p.recSpans d.keyRec)
  ++ (if d.scoreRec = 0xFFFF then [] else p.recSpans d.scoreRec)
  ++ (if d.countAddr = 0 then [] else [⟨d.countAddr, d.countAddr + 4⟩])

/-- What the combine writes, with the table and the drop mask (a REUSE route writes no table). -/
def Plan.combineWrites (p : Plan) (d : RouteDesc) : List Span :=
  p.recSpans d.outRec ++ (if d.mode = .reuse then [] else p.recSpans d.tableRec ++ p.recSpans d.maskRec)

/-- What a mask generator reads and writes. -/
def Plan.maskIo (p : Plan) (g : MaskGen) : PlanIo :=
  ⟨[], if g.segRec = 0xFFFF then [] else p.recSpans g.segRec, p.recSpans g.outRec⟩

/-! ### The work of a round -/

/-- A piece of work of a round: the section and the index of its record, the flag and value that order its reads, the flag it
increments and how often; a ring's last unit by address. -/
structure Work where
  section_ : Nat
  idx : Nat
  wait : Nat
  value : Nat
  ring : Bool
  io : PlanIo
  done : Nat
  incs : Nat
  /-- Units of a ring: the range of unit k of the first pass. -/
  units : List Span

def workOf (section_ idx wait value done incs : Nat) (io : PlanIo) : Work :=
  ⟨section_, idx, wait, value, false, io, done, incs, []⟩

/-- Poster items with segments: their SEGMENT items stand for their writes to C (R267). -/
def Plan.segmented (p : Plan) (e : WpEntry) : Option SpItem :=
  match e.engine, SpRec.parse (p.itemBytes e) with
  | .sparse, some (.item x) => if x.segCap = 0 then none else some x
  | _, _ => none

/-- The writes of an entry that others may wait for. -/
def Plan.visibleWrites (p : Plan) (r : RoundHdr) (e : WpEntry) : List Span :=
  match p.segmented e with
  | some x => p.sliceSpans x x.segBase x.segCap
  | none =>
    match e.engine, SpRec.parse (p.itemBytes e) with
    | .sparse, some (.segment ref _) =>
      (p.entryIo r e).writes ++ (match p.posterOf ref with | some x => p.sparseC x | none => [])
    | _, _ => (p.entryIo r e).writes

def Plan.entryWork (p : Plan) (r : RoundHdr) (e : WpEntry) (i : Nat) : Work :=
  workOf 0x02 i e.waitFlag e.waitValue e.doneFlag 1 { p.entryIo r e with writes := p.visibleWrites r e }

/-- The units of a ring's first pass. -/
def StreamDesc.ringSpans (d : StreamDesc) : List Span :=
  if d.ringUnits = 0 then []
  else (List.range d.ringUnits).map (fun (u : Nat) =>
    let x := trueExtent d.dstBase d.esize (d.extent.take d.unitDim) (d.dstStride.take d.unitDim)
    let o : Int := (u : Int) * d.dstStr d.unitDim * d.esize
    toSpan (x.1 + o, x.2 + o))

def streamWork (d : StreamDesc) (i : Nat) : Work :=
  { workOf 0x07 i d.creditFlag d.waitValue d.doneFlag d.units d.io with
    ring := decide (0 < d.ringUnits), units := d.ringSpans }

def Plan.collWork (p : Plan) (c : Nat × Coll) : Work :=
  workOf 0x0C c.1 c.2.startFlag c.2.startValue c.2.doneFlag 1 (p.collIo c.2)

/-- A route's pieces: ROUTE and DISPATCH, RETURN, the combine. -/
def Plan.routeWorks (p : Plan) (x : Nat × RouteRec) : List Work :=
  match x.2 with
  | .route d =>
    let n := d.group.length
    [workOf 0x0B x.1 d.startFlag d.startValue d.dispatchFlag n ⟨[], p.routeReads d, p.queueSpans d⟩,
     workOf 0x0B x.1 d.outFlag d.outValue d.returnFlag n ⟨[], p.returnReads d, p.recSpans d.retRec⟩,
     workOf 0x0B x.1 0xFFFF 0 d.combineFlag 1 ⟨[], [], p.combineWrites d⟩]
  | .mask g => [workOf 0x0B x.1 0xFFFF 0 g.doneFlag 1 (p.maskIo g)]
  | .binding _ _ => []

/-- Entries, streams, routes and collectives of a round. -/
def Plan.worksOf (p : Plan) (r : RoundHdr) : List Work :=
  (p.entriesOf r).zipIdx.map (fun x => p.entryWork r x.1 (r.firstEntry + x.2))
  ++ (p.streamsOf r).zipIdx.map (fun x => streamWork x.1 (r.firstStream + x.2))
  ++ ((p.routesOf r).map p.routeWorks).flatten ++ (p.collsOf r).map p.collWork

/-- The destination blocks of a round's combine groups: no flag orders a read behind them. -/
def Plan.groupWrites (p : Plan) (r : RoundHdr) : List Span := ((p.groupsOf r).map p.groupDest).flatten

/-! ### The deferred path of WORKING extents (spec 04, R121) -/

/-- Indices of the WORKING records that a round both reads and writes. A route's own reads of its table do not count (spec 09,
R293). -/
def Plan.deferredOf (p : Plan) (r : RoundHdr) : List Nat :=
  let ws := p.worksOf r
  let gs := (p.groupsOf r).map p.groupIo
  let reads := (ws.map (fun w => w.io.reads ++ w.io.loose)).flatten ++ (gs.map (fun g => g.reads)).flatten
  let writes := (ws.map (fun w => w.io.writes)).flatten ++ (gs.map (fun g => g.writes)).flatten
  (p.allocs.filter (fun e => e.2.pclass == .working && anyMeet e.2.spans reads && anyMeet e.2.spans writes)).map (fun e => e.1)

def Plan.deferredExtents (p : Plan) : List (List Nat) := p.rounds.map p.deferredOf

end Sys2Proof.Machine
end

