-- ==== Sys2Proof/Machine/ValidateWork.lean ====
section
/-! DEFINITION. Validation of the work of rounds: the checks 0x07 FORMAT, 0x08 OUTPUT, 0x09 COMBINE, 0x0A ORDER and 0x0D RESOURCE
(spec 03, R107, R108, R111, R558; spec 02, R57, R64; spec 06, R174, R188, R193). -/
namespace Sys2Proof.Machine

/-- An illegal format word, or one with a reserved bit set (spec 02, R57; spec 03, R111). -/
def fmtBad (w : Nat) : Bool := (FmtWord.parse w).isNone || FmtWord.reserved w

/-- The first record and offset in section and index order: a list of (section, image offset). -/
def firstPlace (l : List (Nat × Nat)) : Option (Nat × Nat) :=
  l.foldl (fun (acc : Option (Nat × Nat)) x =>
    match acc with
    | none => some x
    | some y => if x.1 < y.1 ∨ (x.1 = y.1 ∧ x.2 < y.2) then some x else acc) none

/-- The failure at the first place of a list. -/
def failAt (check : Nat) (l : List (Nat × Nat)) : Option Fail := (firstPlace l).map (fun x => ⟨check, x.1, 0, x.2⟩)

/-- Image offset of a record. -/
def recAt (img : Bytes) (t i : Nat) : Nat := (secOf img t).offset + recSize t * i

/-! ### FORMAT (spec 02, R57, R64) -/

/-- A pairing of formats outside R64; judged only between two valid records. -/
def Plan.pairBad (p : Plan) (a b : Nat) : Bool :=
  match p.alloc a, p.alloc b with
  | some x, some y => !fmtBad x.fmt && !fmtBad y.fmt && (pathFor x.fw.fmt y.fw.fmt).isNone
  | _, _ => false

/-- An item as a woodpile entry reads it. -/
def itemFormatFail (p : Plan) (r : ImgRec) (engine : Engine) : Option Fail :=
  match engine with
  | .update => none
  | .sparse =>
    if bits (r.u 0 2) 15 12 = 4 then none else r.fails 0x07 0x05 [(fmtBad (r.u 0x28 4), 0x28)]
  | _ => r.fails 0x07 0x05 [(p.pairBad (r.u 0x04 2) (r.u 0x06 2), 0x04), (fmtBad (r.u 0x2C 4), 0x2C)]

/-- The engines of the entries that name item i. -/
def Plan.enginesOf (p : Plan) (i : Nat) : List Engine :=
  ((p.woodpile.filter (fun e => e.itemRef == 64 * i)).map (fun e => e.engine)).eraseDups

def formatFail (img : Bytes) (p : Plan) : Option Fail :=
  match (recs img 0x03).findSome? (fun r => r.fails 0x07 0x03 [(fmtBad (r.u 0x2C 4), 0x2C)]) with
  | some f => some f
  | none =>
    match (recsI img 0x05).findSome? (fun x => (p.enginesOf x.2).findSome? (itemFormatFail p x.1)) with
    | some f => some f
    | none => (recs img 0x06).findSome? (fun r => if r.u 0 1 = 1 then r.fails 0x07 0x06 [(fmtBad (r.u 0x10 4), 0x10)] else none)

/-! ### OUTPUT (spec 03, R107) -/

/-- An output of a round: its section, record, combine group, ranges. -/
structure Output where
  section_ : Nat
  idx : Nat
  group : Nat
  spans : List Span

def Plan.outputsOf (p : Plan) (r : RoundHdr) : List Output :=
  (p.entriesOf r).zipIdx.map (fun x => ⟨0x02, r.firstEntry + x.2, x.1.combineGroup, (p.entryIo r x.1).writes⟩)
  ++ (p.groupsOf r).zipIdx.map (fun x => ⟨0x03, r.firstGroup + x.2, 0xFFFF, p.groupDest x.1⟩)

/-- Two outputs may not share a byte. -/
def Output.clash (a b : Output) : Bool := anyMeet a.spans b.spans

/-- The later of each pair that shares bytes. -/
def clashes : List Output → List (Nat × Nat)
  | [] => []
  | x :: l => (l.filter (fun y => x.clash y)).map (fun y => (y.section_, y.idx)) ++ clashes l

def outputFail (img : Bytes) (p : Plan) : Option Fail :=
  failAt 0x08 (((p.rounds.map (fun r => clashes (p.outputsOf r))).flatten).map (fun x => (x.1, recAt img x.1 x.2)))

/-! ### COMBINE (spec 03, R108) -/

/-- The block's rows lie in the record where dest_addr and dest_row_pitch say. -/
def Combine.placed (g : Combine) (a : Alloc) : Bool :=
  let q := g.firstIndex / a.cols
  let live := min g.rows (a.rows - q)
  (List.range live).all (fun i => a.addr (q + i) (g.firstIndex % a.cols) == g.destAddr + i * g.destRowPitch)

/-- A group record by itself and against its destination record. -/
def combineRecFail (p : Plan) (r : ImgRec) : Option Fail :=
  let g := parseCombine r
  let fmt := ((FmtWord.parse g.outFmt).getD FmtWord.plain).fmt
  let a := (p.allocById g.tensorId).map (·.2)
  let on (f : Alloc → Bool) : Bool := match a with | some a => f a | none => false
  r.fails 0x09 0x03
    [(g.destAddr % 64 != 0 || on (fun a => a.cols != 0 && !g.placed a && (g.destAddr != a.addr (g.firstIndex / a.cols) (g.firstIndex % a.cols))), 0x00),
     (g.partBase % 64 != 0, 0x08), (g.partStride % 64 != 0 || decide (g.partStride < g.rows * g.cols * 4), 0x10),
     (a.isNone || on (fun a => a.space == .host || !(a.pclass == .working || a.pclass == .state)), 0x14),
     (on (fun a => decide (a.elems ≤ g.firstIndex) || (fmt == .fp4b && g.firstIndex % max 1 g.logicalRowLen % 32 != 0)), 0x18),
     (on (fun a => a.cols != 0 && !g.placed a), 0x20), (on (fun a => g.logicalRowLen != a.cols), 0x24),
     (g.rows == 0 || decide (1024 < g.rows), 0x28),
     (g.cols == 0 || decide (1024 < g.cols) || (fmt == .fp4b && g.cols % 32 != 0), 0x2A),
     ((g.acc && fmt != .fp32) || on (fun a => a.fw.fmt != fmt), 0x2C), (decide (g.parts < 2) || decide (64 < g.parts), 0x30),
     (decide (1 < r.u 0x31 1), 0x31), (r.rsv 0x32 14, 0x32)]

/-- The members of group k of a round with their woodpile index. -/
def Plan.membersOf (p : Plan) (r : RoundHdr) (k : Nat) : List (WpEntry × Nat) :=
  ((p.entriesOf r).zipIdx.filter (fun x => x.1.combineGroup == k)).map (fun x => (x.1, r.firstEntry + x.2))

/-- The output shape of a member's item: rows and columns. -/
def Plan.memberShape (p : Plan) (e : WpEntry) : Option (Nat × Nat) :=
  match e.engine with
  | .sparse => match SpRec.parse (p.itemBytes e) with | some (.item x) => some (x.m, x.n) | _ => none
  | .update => none
  | _ => (DenseItem.parse (p.itemBytes e)).map (fun d => (d.m, d.n))

/-- Breaches of a round's groups by their members: entries first, then items, then the groups. -/
def combineBreaches (img : Bytes) (p : Plan) (r : RoundHdr) : List (Nat × Nat) :=
  (((p.entriesOf r).zipIdx.filter (fun x => x.1.combineGroup != 0xFFFF && decide (r.groupCount ≤ x.1.combineGroup))).map
    (fun x => (0x02, recAt img 0x02 (r.firstEntry + x.2) + 0x06)))
  ++ (((p.groupsOf r).zipIdx).map (fun y =>
    let g := y.1
    let ms := p.membersOf r y.2
    ((ms.zipIdx.filter (fun z => decide (g.parts ≤ z.1.1.kPart) || (ms.take z.2).any (fun w => w.1.kPart == z.1.1.kPart))).map
      (fun z => (0x02, recAt img 0x02 z.1.2 + 0x08)))
    ++ ((ms.filter (fun z => match p.memberShape z.1 with | some s => s != (g.rows, g.cols) | none => false)).map
      (fun z => (0x05, recAt img 0x05 (z.1.itemRef / 64) + 0x20)))
    ++ (if (List.range g.parts).all (fun k => ms.any (fun z => z.1.kPart == k)) then []
        else [(0x03, recAt img 0x03 (r.firstGroup + y.2) + 0x30)]))).flatten

def combineFail (img : Bytes) (p : Plan) : Option Fail :=
  let own := ((recs img 0x03).findSome? (combineRecFail p)).map (fun f => (f.section_, f.offset))
  failAt 0x09 (own.toList ++ (p.rounds.map (combineBreaches img p)).flatten)

/-! ### ORDER (spec 03, R107, R558; spec 06, R188; spec 09, R293; spec 11, R371; spec 12, R387) -/

/-- The parts of ranges that lie in records of some classes. -/
def Plan.within (p : Plan) (ps : List PClass) (l : List Span) : List Span :=
  let zones := ((p.allocs.filter (fun e => e.2.pclass ∈ ps)).map (fun e => e.2.spans)).flatten
  (l.map (fun s => (zones.filter (fun z => z.meets s)).map (fun z => ⟨max s.lo z.lo, min s.hi z.hi⟩))).flatten

/-- Reads that need an order: every read of STATE, VERSION and host memory gives the settled value (spec 04, R120). -/
def Plan.orderedReads (p : Plan) (w : Work) : List Span := p.within [.scratch, .working] (w.io.reads ++ w.io.loose)

/-- Increments that a list of works makes to a flag. -/
def incsOf (ws : List Work) (flag : Nat) : Nat := ((ws.filter (fun w => w.done == flag)).map (fun w => w.incs)).sum

/-- The value counts the writer's increment: it exceeds every other increment and the writer's own earlier ones. -/
def counts (ws : List Work) (r w : Work) (reads : List Span) : Bool :=
  let last := ((w.units.zipIdx.filter (fun u => anyMeet [u.1] reads)).map (fun u => u.2)).foldl max 0
  let own := if w.units.isEmpty then w.incs - 1 else last
  r.wait == w.done && r.wait != 0xFFFF && decide (incsOf ws r.wait - w.incs + own < r.value) && decide (r.value < 2 ^ 31)

/-- A read of one work that another writes is ordered. An entry reads only behind entries of lower index. -/
def ordered (ws : List Work) (r w : Work) (reads : List Span) : Bool :=
  if anyMeet reads w.io.writes then
    !r.ring && (r.section_ != 0x02 || w.section_ != 0x02 || decide (w.idx < r.idx)) && counts ws r w reads
  else true

/-- A route's own pieces, and an item's own accesses, are ordered by themselves. -/
def Work.same (a b : Work) : Bool := a.section_ == b.section_ && a.idx == b.idx

/-- Field of a record that names the flag a read waits on. -/
def waitField (section_ : Nat) : Nat :=
  match section_ with | 0x02 => 0x0A | 0x07 => 0x7C | 0x0B => 0x44 | _ => 0x0A

/-- The reads of a work of a round are ordered behind every other writer, and none reads a combine's destination. -/
def Plan.workOrdered (p : Plan) (r : RoundHdr) (ws : List Work) (x : Work) : Bool :=
  let reads := p.orderedReads x
  !anyMeet reads (p.groupWrites r) && ws.all (fun w => x.same w || ordered ws x w reads)

/-- The works whose orders check 0x0A judges: entries, streams, routes, and the gather of the round's update; COLL_ORDER judges the
other collectives. -/
def Plan.judged (p : Plan) (r : RoundHdr) (w : Work) : Bool :=
  w.section_ != 0x0C || (match p.updateOf r, p.colls[w.idx]? with
    | some u, some c => u.2.gatherRec != 0xFFFF && c.op == .allGather && c.srcRec == u.2.gatherRec
    | _, _ => false)

/-- A local flag that entries of lower index and the round's other work cannot bring to an entry's wait_value. -/
def Plan.starved (ws : List Work) (x : Work) : Bool :=
  let before := ws.filter (fun w => w.section_ != 0x02 || decide (w.idx < x.idx))
  x.section_ == 0x02 && decide (x.wait < 768) && decide (x.value < 2 ^ 31) && decide (incsOf before x.wait < x.value)

def orderBreaches (img : Bytes) (p : Plan) (r : RoundHdr) : List (Nat × Nat) :=
  let ws := p.worksOf r
  (ws.filter (fun x => Plan.starved ws x || (p.judged r x && !p.workOrdered r ws x))).map
    (fun x => (x.section_, recAt img x.section_ x.idx + waitField x.section_))

def orderFail (img : Bytes) (p : Plan) : Option Fail := failAt 0x0A ((p.rounds.map (orderBreaches img p)).flatten)

/-! ### RESOURCE (spec 06, R174, R193; spec 05, R151) -/

/-- The contexts that a round's streams need on a core. -/
def Plan.contextsOn (p : Plan) (r : RoundHdr) (core : Nat) : Nat :=
  ((p.streamsOf r).filter (fun d => !d.isFlue && d.homeCore == core)).length

def resourceFail (img : Bytes) (p : Plan) : Option Fail :=
  (recs img 0x01).findSome? (fun r =>
    r.fails 0x0D 0x01 [((List.range 8).any (fun k => decide (480 < p.contextsOn (parseRound r) k)), 0x1E)])

end Sys2Proof.Machine
end

