-- ==== Sys2Proof/Machine/ValidateStreams.lean ====
section
/-! DEFINITION. Validation of STREAMS: fail_section 0x07 (spec 06, R174 to R190, R193). -/
namespace Sys2Proof.Machine

/-- The rounds that arm stream i. -/
def Plan.roundsOfStream (p : Plan) (i : Nat) : List RoundHdr :=
  p.rounds.filter (fun r => decide (r.firstStream ≤ i) && decide (i < r.firstStream + r.streamCount))

/-- DESC_FORMAT (spec 06, R175 to R177, R179). -/
def streamFormat (r : ImgRec) (d : StreamDesc) (i : Nat) : List (Bool × Nat × Nat) :=
  let w := r.u 0x04 2
  let e := r.u 0x06 2
  let half := d.esize == 1
  let strideBad (s : Int) (k : Nat) (used : Bool) : Bool :=
    (d.ext k == 1 && s != 0 && !(half && k == 0)) || (half && used && (if k = 0 then s != 1 else s % 2 != 0))
  [(d.streamId != i, 0x0701, 0x00),
   ((streamKindOf (bits w 15 12)).isNone || decide (5 < d.unitDim) || (d.ringUnits == 0 && d.unitDim != 0), 0x0701, 0x04),
   (decide (3 < bits e 15 13) || bits e 12 0 != 0 || ((d.kind == .index || d.kind.accumulates) && d.esize != 8), 0x0701, 0x06),
   (d.kind == .index && d.dstBase != 0, 0x0701, 0x10),
   (decide (2 ^ 40 < d.positions) || (half && d.ext 0 % 2 != 0), 0x0701, 0x20)]
  ++ (List.range 6).map (fun k => (d.ext k == 0, 0x0701, 0x20 + 4 * k))
  ++ (List.range 6).map (fun k => (strideBad (d.srcStr k) k true, 0x0701, 0x38 + 5 * k))
  ++ (List.range 6).map (fun k => (strideBad (d.dstStr k) k (d.kind != .index), 0x0701, 0x56 + 5 * k))
  ++ [(!d.kind.indexed && d.indexLimit != 0, 0x0701, 0x74), (!d.remote && d.dstPosition != 0xFFFF, 0x0701, 0x7E)]

/-- A side with a record of another element size. -/
def esizeBad (i esize : Nat) (a : Option Alloc) : Bool :=
  i != 0xFFFF && (match a with | some a => 4 * esize != a.fw.fmt.width | none => false)

/-- RANGE (spec 06, R193; spec 05, R142). -/
def streamRange (h : Hbm) (d : StreamDesc) (src dst : Option Alloc) : List (Bool × Nat × Nat) :=
  let none (i : Nat) (a : Option Alloc) : Bool := i != 0xFFFF && a.isNone
  [(esizeBad d.srcRec d.esize src || (d.kind != .index && esizeBad d.dstRec d.esize dst), 0x0702, 0x06),
   (!none d.srcRec src && d.kind != .gather && !h.sideOk d.srcRec src d.esize d.srcExtent, 0x0702, 0x08),
   (!none d.dstRec dst && d.kind != .index && !d.kind.scatters && !d.remote && !h.sideOk d.dstRec dst d.esize d.dstExtent, 0x0702, 0x10),
   (none d.srcRec src, 0x0702, 0x18), (d.kind != .index && none d.dstRec dst, 0x0702, 0x1A)]

/-- The index stream of a data stream in a round: kind, home core, count, and no second data stream that it serves. -/
def Plan.indexStreamOk (p : Plan) (d : StreamDesc) (i : Nat) (r : RoundHdr) : Bool :=
  match (p.streamsOf r)[d.indexStream]? with
  | some x => x.kind == .index && x.homeCore == d.homeCore && x.positions == d.indexCount
      && !((p.streamsOf r).zipIdx.any (fun y => r.firstStream + y.2 != i && y.1.kind.indexed && y.1.indexStream == d.indexStream))
  | none => false

/-- INDEX (spec 06, R182, R183). -/
def Plan.streamIndex (p : Plan) (h : Hbm) (d : StreamDesc) (i : Nat) (src dst : Option Alloc) : List (Bool × Nat × Nat) :=
  if d.kind.indexed then
    let bad := d.indexedBad h src dst
    [(d.kind == .gather && bad, 0x0704, 0x08), (d.kind != .gather && bad, 0x0704, 0x10)]
    ++ [2, 3, 4, 5].map (fun k => (if d.kind = .gather then d.srcStr k != 0 else d.dstStr k != 0, 0x0704,
        (if d.kind = .gather then 0x38 else 0x56) + 5 * k))
    ++ [(d.indexLimit == 0, 0x0704, 0x74),
        (d.indexStream == 0xFFFF || (p.roundsOfStream i).any (fun r => !p.indexStreamOk d i r), 0x0704, 0x78)]
  else [(d.indexStream != 0xFFFF, 0x0704, 0x78)]

/-- RING (spec 06, R186). -/
def streamRing (d : StreamDesc) : List (Bool × Nat × Nat) :=
  if d.ringUnits = 0 then []
  else [(d.remote, 0x0705, 0x04), (d.dstHost, 0x0705, 0x10), (d.waitValue != 0, 0x0705, 0x1C)]
    ++ (List.range 6).map (fun k => (decide (d.unitDim < k) && d.dstStr k != 0, 0x0705, 0x56 + 5 * k))

/-- The HBM of a module, whatever its partition (spec 05, R141, R144). -/
def hbmSpan : Span := ⟨0, 192 * 3 * gib⟩

/-- The extents of BANK and SNAPSHOT records. -/
def Plan.protectedSpans (p : Plan) : List Span :=
  ((p.allocs.filter (fun e => e.2.pclass == .bank || e.2.pclass == .snapshot)).map (fun e => e.2.spans)).flatten

/-- CLASS (spec 04, R119; spec 06, R184, R189). -/
def Plan.streamClass (p : Plan) (d : StreamDesc) (i : Nat) (src dst : Option Alloc) : List (Bool × Nat × Nat) :=
  let acc := d.kind.accumulates
  let notFp32 (a : Option Alloc) : Bool := match a with | some a => a.fw.fmt != .fp32 | none => false
  let apart (r : RoundHdr) : Bool := !r.fabric || !((match p.setOf r with | some x => x.members | none => []).contains d.dstPosition)
  let peer := decide (0 ≤ d.dstExtent.1) && (hbmSpan :: (List.range 8).map poolSpan).any (toSpan d.dstExtent).within
  [(d.remote && !(d.kind == .copy || d.kind == .gather), 0x0706, 0x04),
   ((if d.remote then !peer else (acc && d.dstHost) || (d.kind != .index && anyMeet [d.dstSpan] p.protectedSpans)), 0x0706, 0x10),
   (acc && notFp32 src, 0x0706, 0x18), (acc && notFp32 dst, 0x0706, 0x1A),
   (d.remote && (p.roundsOfStream i).any apart, 0x0706, 0x7E)]

/-- HOST (spec 06, R193). -/
def Mod.streamHost (m : Mod) (d : StreamDesc) : List (Bool × Nat × Nat) :=
  [(d.srcHost && !m.hostRangeOk d.srcSpan false, 0x0707, 0x08), (d.dstHost && !m.hostRangeOk d.dstSpan true, 0x0707, 0x10)]

/-- OVERLAP with a stream of lower index, an entry's output or a combine destination; ORDER has judged the reads. -/
def Plan.streamOverlap (p : Plan) (d : StreamDesc) (i : Nat) : Bool :=
  (p.roundsOfStream i).any (fun r =>
    anyMeet d.io.writes
      (((((p.streamsOf r).take (i - r.firstStream)).map (fun x => x.io.writes)).flatten)
        ++ (((p.outputsOf r).map (fun o => o.spans)).flatten)))

/-- FLAG (spec 06, R187). -/
def streamFlags (d : StreamDesc) : List (Bool × Nat × Nat) :=
  [(flagBad d.doneFlag || ((d.dstHost || d.remote) && d.doneFlag != 0xFFFF), 0x0709, 0x7A), (flagBad d.creditFlag, 0x0709, 0x7C)]

def Mod.streamFail (m : Mod) (p : Plan) (r : ImgRec) (i : Nat) : Option Fail :=
  let d := parseStream r.bytes
  let src := if d.srcRec = 0xFFFF then none else p.alloc d.srcRec
  let dst := if d.dstRec = 0xFFFF then none else p.alloc d.dstRec
  r.failsSub 0x07 (streamFormat r d i ++ streamRange m.hbm d src dst ++ [(d.aliasBad, 0x0703, 0x56)] ++ p.streamIndex m.hbm d i src dst
    ++ streamRing d ++ p.streamClass d i src dst ++ m.streamHost d ++ [(p.streamOverlap d i, 0x0708, 0x10)] ++ streamFlags d)

def Mod.streamsFail (m : Mod) (img : Bytes) (p : Plan) : Option Fail := (recsI img 0x07).findSome? (fun x => m.streamFail p x.1 x.2)

end Sys2Proof.Machine
end

