-- ==== Sys2Proof/Machine/ValidateTensors.lean ====
section
/-! DEFINITION. Validation of TENSORS: fail_section 0x06 (spec 05, R160 to R167, R170, R171; spec 08, R257). -/
namespace Sys2Proof.Machine

/-! ### Allocation records (spec 05, R160 to R165) -/

/-- REC_FORMAT of an allocation record. -/
def allocFormat (r : ImgRec) (a : Alloc) : List (Bool × Nat × Nat) :=
  let w := r.u 0x02 2
  [(r.rsv 0x01 1, 0x0601, 0x01), (decide (3 < bits w 11 8) || a.rank == 0 || decide (6 < a.rank) || bits w 4 0 != 0, 0x0601, 0x02),
   (decide (2 ^ a.fw.fmt.width ≤ a.padBits), 0x0601, 0x1C), (r.rsv 0x6C 20, 0x0601, 0x6C)]

def allocAlign (a : Alloc) : List (Bool × Nat × Nat) :=
  [(a.base % 64 != 0, 0x0602, 0x08), (a.str 1 % 64 != 0, 0x0602, 0x38),
   (a.fw.fmt == .fp4b && a.scaleBase % 64 != 0, 0x0602, 0x60)]

/-- The zones that a space names, for a base. -/
def Hbm.zonesOf (h : Hbm) (a : Alloc) : List Span :=
  match a.space with
  | .hbmWide => [⟨0, h.wideEnd⟩]
  | .hbmNear => (List.range 8).map h.nearZone
  | .pool => (List.range 8).map poolSpan
  | .host => if isHost a.base then [hostSpan (hostRegion a.base)] else []

/-- A stride against the rank and the dimension below it. -/
def Alloc.strideBad (a : Alloc) (d : Nat) : Bool :=
  if d < a.rank then (if d = 1 then decide (a.str 1 < a.rowBytes) else decide (a.str d < a.str (d - 1) * a.ext (d - 1)))
  else a.str d != 0

def allocExtent (h : Hbm) (a : Alloc) : List (Bool × Nat × Nat) :=
  let zone := (h.zonesOf a).find? a.span.within
  let fp4 := a.fw.fmt == .fp4b
  (zone.isNone, 0x0603, 0x08)
  :: (List.range 6).map (fun d => (if d < a.rank then a.ext d == 0 else a.ext d != 1, 0x0603, 0x20 + 4 * d))
  ++ (List.range 5).map (fun d => (a.strideBad (d + 1), 0x0603, 0x38 + 8 * d))
  ++ [(if fp4 then (match zone with | some z => !a.scaleSpan.within z | none => true) else a.scaleBase != 0, 0x0603, 0x60),
      (if fp4 then decide (a.scalePitch < a.s0 / 32) else a.scalePitch != 0, 0x0603, 0x68)]

/-- RESERVED: the plan area, the settle buffer, the bank region. -/
def allocReserved (h : Hbm) (a : Alloc) : List (Bool × Nat × Nat) :=
  let bad (s : Span) : Bool := if a.pclass = .bank then !s.within h.bankRegion else anyMeet [s] h.reserved
  [(bad a.span, 0x0604, 0x08), (a.fw.fmt == .fp4b && bad a.scaleSpan, 0x0604, 0x60)]

/-- OVERLAP with a record of lower index. -/
def allocOverlap (before : List Alloc) (a : Alloc) : List (Bool × Nat × Nat) :=
  let hits (s : Span) : Bool := before.any (fun b => anyMeet b.spans [s])
  [(hits a.span, 0x0605, 0x08), (a.fw.fmt == .fp4b && hits a.scaleSpan, 0x0605, 0x60)]

/-- A positive finite normal FP32 code. -/
def normalCode (x : F32) : Bool := bits x.toNat 31 31 == 0 && bits x.toNat 30 23 != 0 && bits x.toNat 30 23 != 255

def allocScale (a : Alloc) : List (Bool × Nat × Nat) :=
  let bad (x : F32) : Bool :=
    match a.fw.fmt with
    | .int8 => !normalCode x
    | .uint8 => !normalCode x
    | .fp8e4 => !normalCode x
    | .fp8e5 => !normalCode x
    | _ => x != 0x3F800000#32
  [(bad a.scale, 0x0606, 0x14), (bad a.invScale, 0x0606, 0x18)]

/-! ### Pools (spec 05, R164, R171; spec 08, R257) -/

def Span.size (s : Span) : Nat := s.hi - s.lo

/-- Bytes of the POOL records of a list that lie in a core's pool. -/
def poolBytes (as : List Alloc) (core : Nat) : Nat :=
  ((as.filter (fun a => a.space == .pool && a.span.within (poolSpan core))).map (fun a => (a.spans.map Span.size).sum)).sum

/-- The spill areas of a core's pool. -/
def Plan.spillSpan (p : Plan) (core : Nat) : Span :=
  ⟨(poolSpan core).hi - min poolSize (36 * spillArea p), (poolSpan core).hi⟩

/-- POOL: with the records of lower index and the spill areas, beyond 48 MiB, or on a spill area. -/
def Plan.allocPool (p : Plan) (before : List Alloc) (a : Alloc) : List (Bool × Nat × Nat) :=
  let overful := (List.range 8).any (fun c => a.space == .pool && a.span.within (poolSpan c)
    && (decide (poolSize < poolBytes (a :: before) c + 36 * spillArea p) || anyMeet a.spans [p.spillSpan c]))
  [(overful, 0x0609, 0x08)]

/-- S: the smallest rest of a pool. -/
def Plan.staging (p : Plan) : Nat :=
  ((List.range 8).map (fun c => poolSize - poolBytes (p.allocs.map (fun e => e.2)) c - 36 * spillArea p)).foldl min poolSize

/-! ### Tiling records (spec 05, R170, R171) -/

/-- REC_FORMAT of a tiling record. -/
def tilingFormat (r : ImgRec) : List (Bool × Nat × Nat) :=
  (r.rsv 0x1C 4, 0x0601, 0x1C)
  :: ((List.range 4).map (fun i =>
      let o := 0x20 + 16 * i
      let flags := r.u (o + 0xD) 1
      [(if i = 1 then bits flags 7 1 != 0 else flags != 0, 0x0601, o + 0xD), (r.rsv (o + 0xE) 2, 0x0601, o + 0xE)])).flatten
  ++ [(r.rsv 0x60 32, 0x0601, 0x60)]

/-- Element bytes of an operand in 32nds. -/
def Alloc.size32 (a : Alloc) : Nat := if a.fw.fmt = .fp4b then 17 else 4 * a.fw.fmt.width

/-- A level against the one above it: at most as large, and dividing it. -/
def TileLevel.nestBad (below above : Nat) : Bool := below == 0 || above % below != 0

/-- Bytes of the operand blocks of a level in 32nds. -/
def TileLevel.operands (l : TileLevel) (ea eb : Nat) : Nat := l.tileM * l.tileK * ea + l.tileK * l.tileN * eb

/-- TILING by R171. -/
def Plan.tilingBad (p : Plan) (before : List Tiling) (r : ImgRec) (t : Tiling) : List (Bool × Nat × Nat) :=
  let none (id : Nat) : Bool := (p.allocById id).isNone
  let lv (i : Nat) : TileLevel := t.levels.getD i ⟨0, 0, 0, 0, false⟩
  let size (id : Nat) : Nat := match p.allocById id with | some (_, a) => a.size32 | _ => 0
  let ea := size t.tensorA
  let eb := size t.tensorB
  let parts := if (lv 0).tileK = 0 then 0 else ceilDiv t.k (lv 0).tileK
  let nest (i o : Nat) : List (Bool × Nat × Nat) :=
    let up := if i = 0 then lv 0 else lv (i - 1)
    [(TileLevel.nestBad (lv i).tileM up.tileM, 0x0608, o), (TileLevel.nestBad (lv i).tileN up.tileN, 0x0608, o + 4),
     (TileLevel.nestBad (lv i).tileK up.tileK, 0x0608, o + 8), (decide (5 < (lv i).order), 0x0608, o + 12)]
  let pool := if (lv 1).staged then decide (t.gang * t.gang * p.staging * 32 < 2 * (lv 1).operands ea eb * 256)
    else (lv 1).tileM != (lv 0).tileM || (lv 1).tileN != (lv 0).tileN || (lv 1).tileK != (lv 0).tileK || (lv 1).order != (lv 0).order
  let tile := (lv 2).tileK % 32 != 0
    || decide (t.gang * t.gang * 524288 * 32 < 2 * (lv 2).operands ea eb + (lv 2).tileM * (lv 2).tileN * 4 * 32)
  let reg := (lv 3).tileN != 32 * t.gang || (lv 3).tileK != 32 * t.gang || (lv 3).tileM % 32 != 0
  [(decide (2 < r.u 0x01 1), 0x0608, 0x01), (before.any (fun b => b.tilingId == t.tilingId), 0x0608, 0x02),
   (none t.tensorA, 0x0608, 0x04), (none t.tensorB, 0x0608, 0x08), (none t.tensorC, 0x0608, 0x0C),
   (parts == 0 || decide (64 < parts), 0x0608, 0x18)]
  ++ nest 0 0x20 ++ nest 1 0x30 ++ [(pool, 0x0608, 0x30)] ++ nest 2 0x40 ++ [(tile, 0x0608, 0x40)] ++ nest 3 0x50 ++ [(reg, 0x0608, 0x50)]

/-! ### The section -/

def tensorFail (h : Hbm) (p : Plan) (r : ImgRec) (i : Nat) : Option Fail :=
  let kind := r.u 0 1
  if kind ≠ 1 ∧ kind ≠ 2 then some ⟨0x0E, 0x06, 0x0601, r.off⟩
  else match parseTensor r with
    | .alloc a =>
      let before := (p.allocs.filter (fun e => decide (e.1 < i))).map (fun e => e.2)
      r.failsSub 0x06 (allocFormat r a ++ allocAlign a ++ allocExtent h a ++ allocReserved h a ++ allocOverlap before a ++ allocScale a
        ++ [(a.tensorId == 0xFFFFFFFF || before.any (fun b => b.tensorId == a.tensorId), 0x0607, 0x04)] ++ p.allocPool before a)
    | .tiling t =>
      let before := (p.tensors.take i).filterMap (fun x => match x with | .tiling b => some b | .alloc _ => none)
      r.failsSub 0x06 (tilingFormat r ++ p.tilingBad before r t)

def tensorsFail (img : Bytes) (h : Hbm) (p : Plan) : Option Fail := (recsI img 0x06).findSome? (fun x => tensorFail h p x.1 x.2)

end Sys2Proof.Machine
end

