-- ==== Sys2Proof/Machine/ValidateSets.lean ====
section
/-! DEFINITION. Validation of SETTLE_SETS: fail_section 0x08 (spec 04, R119 to R126; spec 03, R107, R558). SET_FABRIC names no
path that another section does not check. -/
namespace Sys2Proof.Machine

/-! ### The records (spec 04, R124, R125) -/

/-- Places of a member list that break R125: order, reserved bits, this module missing; (bad, index of the word). -/
def memberBad (own : Nat) (l : List Nat) : Option Nat :=
  match (l.zip (0 :: l)).zipIdx.find? (fun x => decide (2047 < x.1.1) || (decide (0 < x.2) && decide (x.1.1 ≤ x.1.2))) with
  | some x => some x.2
  | none => if l.contains own then none else some 0

def setFail (img : Bytes) (h : Hbm) (p : Plan) (r : ImgRec) (i : Nat) : Option Fail :=
  let s := parseSet img r
  let kind := r.u 0x02 1
  let count := r.u 0x04 2
  let off := r.u 0x08 4
  let lastByte := (secOf img 0x08).offset + off + 2 * count
  let format := r.failsSub 0x08
    [(r.u 0x00 2 != i, 0x0801, 0x00), (decide (1 < kind), 0x0801, 0x02), (bits (r.u 0x03 1) 7 2 != 0, 0x0801, 0x03),
     ((if kind = 0 then count != 1 else decide (count < 2) || decide (2048 < count)), 0x0801, 0x04), (r.rsv 0x06 2, 0x0801, 0x06),
     (off % 64 != 0 || decide (imgSize img < lastByte), 0x0801, 0x08),
     (decide (s.timeoutUs < 10) || decide (1000000 < s.timeoutUs), 0x0801, 0x0C), (s.stageBytes % 64 != 0, 0x0801, 0x10),
     (r.rsv 0x1C 4, 0x0801, 0x1C)]
  match format with
  | some f => some f
  | none =>
    match memberBad Config.position s.members with
    | some k => some ⟨0x0E, 0x08, 0x0802, (secOf img 0x08).offset + off + 2 * k⟩
    | none => r.failsSub 0x08
        [(decide (h.settleBuffer.size < s.stageBytes), 0x0803, 0x10),
         ((if s.gateFinite then decide (p.colls.length ≤ s.finiteCollective) else s.finiteCollective != 0xFFFFFFFF), 0x0807, 0x18)]

/-! ### Deferred bytes of a round (spec 04, R121, R122) -/

/-- The ranges whose writes the round defers, host regions apart. -/
def Plan.deferredZones (p : Plan) (r : RoundHdr) : List Span :=
  let ds := p.deferredOf r
  ((p.allocs.filter (fun e => e.2.pclass == .state || e.2.pclass == .version || ds.contains e.1)).map (fun e => e.2.spans)).flatten

/-- Deferred bytes of a list of writes. -/
def stagedBytes (zones l : List Span) : Nat :=
  (l.map (fun s => if isHost s.lo then s.size
    else ((zones.filter (fun z => z.meets s)).map (fun z => min s.hi z.hi - max s.lo z.lo)).sum)).sum

/-- Deferred bytes of a round; a stream writes at most its positions' bytes. -/
def Plan.roundStage (p : Plan) (r : RoundHdr) : Nat :=
  let zones := p.deferredZones r
  let other := (p.entriesOf r).map (fun e => (p.entryIo r e).writes) ++ [p.groupWrites r]
    ++ ((p.worksOf r).filter (fun w => w.section_ != 0x02 && w.section_ != 0x07)).map (fun w => w.io.writes)
  stagedBytes zones other.flatten
  + ((p.streamsOf r).map (fun d => min (stagedBytes zones d.io.writes) (ceilDiv (d.positions * d.esize) 2))).sum

/-! ### SCRATCH reads (spec 04, R120, R126) -/

/-- What a range leaves of another. -/
def Span.cut (w s : Span) : List Span :=
  if w.meets s then
    (if s.lo < w.lo then [⟨s.lo, w.lo⟩] else []) ++ (if w.hi < s.hi then [⟨w.hi, s.hi⟩] else [])
  else [s]

/-- A range lies inside the union of others. -/
def coveredBy (ws : List Span) (s : Span) : Bool :=
  (ws.foldl (fun rest w => (rest.map (Span.cut w)).flatten) [s]).isEmpty

/-- A work reads SCRATCH that no earlier entry, and no other work of the round, writes. Exact reads need every byte; a range of which
the data fix a part needs a writer. The source of a digest's ALL_GATHER is the last rule shard's work (spec 13, R429). -/
def Plan.scratchRead (p : Plan) (r : RoundHdr) (ws : List Work) (x : Work) : Bool :=
  let digest := x.section_ == 0x0C && (p.digestOf r).map (fun d => d.1) == some x.idx
  let io := if x.section_ = 0x02 then (match p.woodpile[x.idx]? with | some e => p.entryIo r e | none => PlanIo.none) else x.io
  let writes := ((ws.filter (fun w => !x.same w && (x.section_ != 0x02 || w.section_ != 0x02 || decide (w.idx < x.idx)))).map
    (fun w => if w.section_ = 0x02 then (match p.woodpile[w.idx]? with | some e => (p.entryIo r e).writes | none => []) else w.io.writes)).flatten
  !digest && ((p.within [.scratch] io.reads).any (fun s => !coveredBy writes s)
    || (p.within [.scratch] io.loose).any (fun s => !anyMeet [s] writes))

/-! ### The section: the records, then what the rounds and the other records break, by sub-code -/

def setsFail (img : Bytes) (h : Hbm) (p : Plan) : Option Fail :=
  let rounds := recsI img 0x01
  let fail (sub : Nat) (o : Option (Nat × Nat)) : Option Fail := o.map (fun x => ⟨0x0E, 0x08, sub, x.2⟩)
  let hdr (bad : RoundHdr → Bool) : Option (Nat × Nat) :=
    (rounds.find? (fun x => bad (parseRound x.1))).map (fun x => (0x01, x.1.off + 0x1A))
  let place (bad : RoundHdr → List Work → Work → Bool) : List (Nat × Nat) :=
    (p.rounds.map (fun r => let ws := p.worksOf r; (ws.filter (bad r ws)).map (fun w => (w.section_, recAt img w.section_ w.idx)))).flatten
  let illegal := ((recs img 0x06).filter (fun r => r.u 0 1 == 1 && decide (5 < bits (r.u 0x02 2) 15 12))).map (fun r => (0x06, r.off + 0x02))
  let prot := p.protectedSpans
  let groups := (p.combines.zipIdx.filter (fun x => anyMeet (p.groupDest x.1) prot)).map (fun x => (0x03, recAt img 0x03 x.2))
  [(recsI img 0x08).findSome? (fun x => setFail img h p x.1 x.2),
   fail 0x0801 (hdr (fun r => decide (p.sets.length ≤ r.settleSet))),
   fail 0x0803 (hdr (fun r => match p.setOf r with | some s => decide (s.stageBytes < p.roundStage r) | none => false)),
   fail 0x0805 (firstPlace (illegal ++ groups ++ place (fun _ _ w => anyMeet w.io.writes prot))),
   fail 0x0806 (firstPlace (place p.scratchRead))].findSome? id

end Sys2Proof.Machine
end

