-- ==== Sys2Proof/Machine/ValidateFabric.lean ====
section
/-! DEFINITION. Validation of SLOT_TABLES and DETOURS: fail_section 0x09 and 0x0A (spec 10, R326, R330 to R333, R341, R350). -/
namespace Sys2Proof.Machine

/-! ### What a round sends, and where (spec 10, R324) -/

/-- Remote traffic of a round: kind of R331, index in its section, whether it is a flue stream, destinations. -/
structure Traffic where
  kind : Nat
  ref : Nat
  flue : Bool
  dsts : List Nat

/-- The members that a collective of this module sends to: its peers at every stage (spec 11, R358). -/
def Plan.collPeers (p : Plan) (c : Coll) : List Nat :=
  let q := p.rankIn c
  (c.stages.map (fun s => (List.range (c.size s)).map (fun k => p.wordOf c (c.peer s q k)))).flatten

def Plan.trafficOf (p : Plan) (r : RoundHdr) : List Traffic :=
  ((p.streamsOf r).zipIdx.filter (fun x => x.1.remote)).map (fun x => ⟨1, r.firstStream + x.2, x.1.isFlue, [x.1.dstPosition]⟩)
  ++ (p.routesOf r).filterMap (fun x => match x.2 with | .route d => some ⟨2, x.1, false, d.group⟩ | _ => none)
  ++ (p.collsOf r).map (fun x => ⟨3, x.1, false, p.collPeers x.2⟩)

/-- A window admits a piece of traffic (spec 10, R333). -/
def SlotWindow.admits (w : SlotWindow) (t : Traffic) : Bool := w.kind == 5 || (w.kind == t.kind && w.ref == t.ref) || (w.kind == 0 && t.flue)

/-- Some destination's first hop has no admitting window on either twin. -/
def Traffic.shut (ws : List SlotWindow) (t : Traffic) : Bool :=
  t.dsts.any (fun d => match firstHops d with
    | [] => false
    | hops => !ws.any (fun w => hops.contains w.role && w.admits t))

/-! ### SLOT_TABLES (spec 10, R330 to R332) -/

/-- The rounds that use slot table i. -/
def Plan.roundsOfTable (p : Plan) (i : Nat) : List RoundHdr := p.rounds.filter (fun r => r.slotTable == i)

/-- A traffic_ref outside the section that its kind names. -/
def Plan.refBad (p : Plan) (kind ref : Nat) : Bool :=
  match kind with
  | 1 => decide (p.streams.length ≤ ref)
  | 2 => decide (p.routes.length ≤ ref)
  | 3 => decide (p.colls.length ≤ ref)
  | _ => ref != 0xFFFFFFFF

/-- The failure at the first bad field of a list of entries in the section: (bad, sub-code, image offset). -/
def slotAt (l : List (Bool × Nat × Nat)) : Option Fail := (l.find? (fun x => x.1)).map (fun x => ⟨0x0E, 0x09, x.2.1, x.2.2⟩)

/-- A window entry against the one before it. -/
def windowFormat (prev : Option SlotWindow) (x : ImgRec) : List (Bool × Nat × Nat) :=
  let w := parseWindow x.bytes
  [(decide (0x15 < w.role) || (match prev with | some v => decide (w.role < v.role) | none => false), 0x0901, x.off),
   (decide (5 < w.kind), 0x0901, x.off + 1), (x.rsv 2 2, 0x0901, x.off + 2),
   ((match prev with | some v => v.role == w.role && decide (w.startNs < v.startNs) | none => false), 0x0901, x.off + 8),
   (decide (w.lengthNs < 100) || decide (10000000 < w.lengthNs), 0x0901, x.off + 12)]

def signalFormat (x : ImgRec) : List (Bool × Nat × Nat) :=
  [(x.u 0 1 != 1 && x.u 0 1 != 3, 0x0901, x.off), (x.rsv 1 1, 0x0901, x.off + 1), (x.rsv 0xA 6, 0x0901, x.off + 0xA)]

/-- A window in the rounds that use its table. -/
def windowGuard (rounds : List RoundHdr) (guard : Nat) (prev : Option SlotWindow) (x : ImgRec) : List (Bool × Nat × Nat) :=
  let w := parseWindow x.bytes
  [((match prev with | some v => v.role == w.role && decide (w.startNs < v.startNs + v.lengthNs + guard) | none => false), 0x0902, x.off + 8),
   (rounds.any (fun r => decide (r.budgetNs < w.startNs + w.lengthNs)), 0x0902, x.off + 12)]

def Plan.signalRef (p : Plan) (rounds : List RoundHdr) (x : ImgRec) : List (Bool × Nat × Nat) :=
  let s := parseSignal x.bytes
  let stranger (r : RoundHdr) : Bool := !((match p.setOf r with | some s => s.members | none => []).contains s.member)
  [(decide (2047 < s.member) || rounds.any stranger, 0x0903, x.off + 2), (p.refBad s.kind s.ref, 0x0903, x.off + 4),
   (decide (s.flag < 768) || decide (1023 < s.flag), 0x0903, x.off + 8)]

def tableFail (img : Bytes) (p : Plan) (r : ImgRec) (i : Nat) : Option Fail :=
  let base := (secOf img 0x09).offset
  let ws := slotList img (r.u 0x04 4) (r.u 0x02 2)
  let ss := slotList img (r.u 0x10 4) (r.u 0x0C 2)
  let windows := ws.map (fun x => parseWindow x.bytes)
  let prev := Option.none :: windows.map some
  let rounds := p.roundsOfTable i
  let outside (off n : Nat) : Bool := off % 64 != 0 || decide (imgSize img < base + off + 16 * n)
  let own := [(r.rsv 0x01 1, 0x0901, r.off + 0x01), (outside (r.u 0x04 4) ws.length, 0x0901, r.off + 0x04),
    (decide (1024 < ss.length), 0x0901, r.off + 0x0C), (r.rsv 0x0E 2, 0x0901, r.off + 0x0E),
    (outside (r.u 0x10 4) ss.length, 0x0901, r.off + 0x10), (r.rsv 0x14 44, 0x0901, r.off + 0x14)]
  let format := ((prev.zip ws).map (fun x => windowFormat x.1 x.2)).flatten ++ (ss.map signalFormat).flatten
  let guard := (decide (r.u 0x08 4 < 640) || decide (100000 < r.u 0x08 4), 0x0902, r.off + 0x08)
    :: ((prev.zip ws).map (fun x => windowGuard rounds (r.u 0x08 4) x.1 x.2)).flatten
  let refs := (ws.map (fun x => (p.refBad (x.u 1 1) (x.u 4 4), 0x0903, x.off + 4)))
    ++ (ss.map (p.signalRef rounds)).flatten
    ++ [(rounds.any (fun h => (p.trafficOf h).any (Traffic.shut windows)), 0x0903, r.off + 0x02)]
  slotAt (own ++ format ++ guard ++ refs)

def memberSetFail (img : Bytes) (r : ImgRec) : Option Fail :=
  let off := r.u 0x04 4
  let count := r.u 0x02 2
  let list := (secOf img 0x09).offset + off
  let own := slotAt
    [(r.rsv 0x01 1, 0x0901, r.off + 0x01), (decide (count < 2) || decide (2048 < count), 0x0901, r.off + 0x02),
     (off % 64 != 0, 0x0901, r.off + 0x04), (r.rsv 0x08 56, 0x0901, r.off + 0x08),
     (decide (imgSize img < list + 2 * count), 0x0904, r.off + 0x04)]
  match own with
  | some f => some f
  | none => (memberBad Config.position (memberWords img list count)).map (fun k => ⟨0x0E, 0x09, 0x0904, list + 2 * k⟩)

def slotFail (img : Bytes) (p : Plan) (r : ImgRec) (i : Nat) : Option Fail :=
  match r.u 0 1 with
  | 1 => tableFail img p r i
  | 2 => memberSetFail img r
  | _ => some ⟨0x0E, 0x09, 0x0901, r.off⟩

def slotsFail (img : Bytes) (p : Plan) : Option Fail := (recsI img 0x09).findSome? (fun x => slotFail img p x.1 x.2)

/-! ### DETOURS (spec 10, R326, R341) -/

/-- The hop of R326 from one member to another, as a role of twin a. -/
def hopFrom (src dst : Nat) : Option Nat :=
  let rack := (dst / 64 + 32 - src / 64 % 32) % 32
  let tray := (dst / 8 % 8 + 8 - src / 8 % 8) % 8
  let slot := (dst % 8 + 8 - src % 8) % 8
  if rack ≠ 0 then some (if rack ≤ 16 then 0x12 else 0x14)
  else if tray ≠ 0 then some (if tray ≤ 4 then 0x0E else 0x10)
  else if slot ≠ 0 then some (2 * (slot - 1))
  else none

/-- The member at the far end of a tray or rail role of a member. -/
def peerFrom (src role : Nat) : Nat :=
  let rack := src / 64
  let tray := src / 8 % 8
  let slot := src % 8
  if role < 0x0E then rack * 64 + tray * 8 + (slot + role / 2 + 1) % 8
  else if role < 0x10 then rack * 64 + (tray + 1) % 8 * 8 + slot
  else if role < 0x12 then rack * 64 + (tray + 7) % 8 * 8 + slot
  else if role < 0x14 then (rack + 1) % 32 * 64 + tray * 8 + slot
  else (rack + 31) % 32 * 64 + tray * 8 + slot

/-- The path of R326 from a member comes back to this module and leaves it in the direction of a lost role. -/
def usesRole (lost : Nat) : Nat → Nat → Nat → Bool
  | 0, _, _ => false
  | n + 1, src, dst =>
    match hopFrom src dst with
    | none => false
    | some hop => (src == Config.position && hop / 2 == lost / 2) || usesRole lost n (peerFrom src hop) dst

/-- DETOUR_PATH of an alternate (33 + 5 hops reach any member). -/
def altPathBad (role : Nat) (a : DetourAlt) : Bool × Bool :=
  let bad := a.firstRole == role || decide (0x15 < a.firstRole)
  let via := if a.via = 0xFFFF then rolePeer a.firstRole != rolePeer role
    else decide (2047 < a.via) || usesRole role 40 (rolePeer a.firstRole) a.via
  (bad, via)

def detourFail (r : ImgRec) (i : Nat) : Option Fail :=
  let d := parseDetour r
  let n := r.u 0x01 1
  let alts := d.alts.zipIdx
  r.failsSub 0x0A
    ([(r.u 0x00 1 != i || decide (0x15 < r.u 0x00 1), 0x0A01, 0x00), (n == 0 || decide (4 < n), 0x0A01, 0x01), (r.rsv 0x02 6, 0x0A01, 0x02)]
    ++ alts.map (fun x => (x.1.share == 0, 0x0A01, 0x09 + 8 * x.2))
    ++ [(r.rsv (0x08 + 8 * n) (0x40 - (0x08 + 8 * n)), 0x0A01, 0x08 + 8 * n)]
    ++ (alts.map (fun x => [((altPathBad i x.1).1, 0x0A02, 0x08 + 8 * x.2), ((altPathBad i x.1).2, 0x0A02, 0x0A + 8 * x.2)])).flatten)

/-- DETOURS: every role has its record where the section stands, or a round uses the fabric. -/
def detoursFail (img : Bytes) (p : Plan) : Option Fail :=
  let there := (imgSections img).any (fun s => s.kind == 0x0A)
  let n := p.detours.length
  match (recsI img 0x0A).findSome? (fun x => detourFail x.1 x.2) with
  | some f => some f
  | none =>
    if there ∧ n < 22 then some ⟨0x0E, 0x0A, 0x0A01, recAt img 0x0A n⟩
    else if ¬ there ∧ p.rounds.any (fun r => r.fabric) then some ⟨0x0E, 0x0A, 0x0A01, 0x0A⟩
    else none

end Sys2Proof.Machine
end

