-- ==== Sys2Proof/Machine/ValidateItems.lean ====
section
/-! DEFINITION. Validation of work items: fail_section 0x05 (spec 07, R225 to R231, R238 to R240; spec 08, R259 to R273, R275; spec 05,
R171). -/
namespace Sys2Proof.Machine

/-- A record of WORK_ITEMS with an entry that names it: the item's record, the entry, its record, its round. -/
structure ItemUse where
  item : ImgRec
  e : WpEntry
  entry : ImgRec
  idx : Nat
  round : RoundHdr

/-- A failing field: of the item, or of the entry. -/
inductive Blame where
  | item (off : Nat)
  | entry (off : Nat)

def ItemUse.at_ (u : ItemUse) : Blame → Nat
  | .item o => u.item.off + o
  | .entry o => u.entry.off + o

/-- Clock of the plan's operating point in MHz (spec 16, R509). -/
def Plan.mhz (p : Plan) : Nat := ((opPoints[p.opPoint]?).map (fun x => x.1)).getD 1

/-- Nanoseconds of busy cycles, rounded up. -/
def Plan.nsOf (p : Plan) (cycles : Nat) : Nat := ceilDiv (cycles * 1000) p.mhz

/-- est_ns below a time, or the time above 10,000 ns. -/
def Plan.timeBad (p : Plan) (e : WpEntry) (cycles : Nat) : Bool :=
  decide (e.estNs < p.nsOf cycles) || decide (10000 < p.nsOf cycles)

/-! ### Dense items (spec 07, R227) -/

/-- The record whose outer extents an item follows: C, or a member's destination. -/
def Plan.shapeRec (p : Plan) (u : ItemUse) (d : DenseItem) : Option Alloc :=
  match p.groupOf u.round u.e with
  | some g => (p.allocById g.tensorId).map (·.2)
  | none => p.alloc d.cRec

def Alloc.outerExt (a : Alloc) : List Nat := a.extent.drop 2

/-- Logical extents that an item's rows, columns and depth index. -/
def DenseItem.mExt (d : DenseItem) (a : Alloc) : Nat := if d.aT then a.ext 0 else a.ext 1
def DenseItem.nExt (d : DenseItem) (b : Alloc) : Nat := if d.bT then b.ext 1 else b.ext 0
def DenseItem.kExtA (d : DenseItem) (a : Alloc) : Nat := if d.op = .nm then 2 * a.ext 0 else if d.aT then a.ext 1 else a.ext 0
def DenseItem.kExtB (d : DenseItem) (b : Alloc) : Nat := if d.bT then b.ext 0 else b.ext 1

/-- N of C: twice its columns in 2:4 form. -/
def DenseItem.cCols (d : DenseItem) (c : Alloc) : Nat := if d.nmOut then 2 * c.ext 0 else c.ext 0

/-- Whether a record is there and satisfies a test; `dflt` where it is not there. -/
def onRec (a : Option Alloc) (dflt : Bool) (f : Alloc → Bool) : Bool := match a with | some a => f a | none => dflt

/-- ITEM_RECORDS of an operand: no record, in host memory, or outer extents that do not fit. -/
def operandBad (a shape : Option Alloc) (bcast : Bool) : Bool :=
  onRec a true (fun a => a.space == .host
    || (if bcast then decide (2 < a.rank) else onRec shape false (fun s => a.outerExt != s.outerExt)))

def Plan.itemRecords (p : Plan) (u : ItemUse) (d : DenseItem) : List (Bool × Blame) :=
  let shape := p.shapeRec u d
  let host (i : Nat) : Bool := onRec (p.alloc i) true (fun a => a.space == .host)
  [(d.tiling != 0xFFFF && (p.tiling d.tiling).isNone, .item 0x02), (operandBad (p.alloc d.aRec) shape d.aBcast, .item 0x04),
   (operandBad (p.alloc d.bRec) shape d.bBcast, .item 0x06), (u.e.combineGroup == 0xFFFF && host d.cRec, .item 0x08),
   (d.op == .nm && host d.aMeta, .item 0x0A), (d.nmOut && host d.cMeta, .item 0x0C)]

def Plan.itemShape (p : Plan) (u : ItemUse) (d : DenseItem) : List (Bool × Blame) :=
  let a := p.alloc d.aRec
  let b := p.alloc d.bRec
  let c := if u.e.combineGroup = 0xFFFF then p.alloc d.cRec else none
  let fp4 := ((FmtWord.parse d.outFmt).map (fun w => w.fmt == .fp4b)).getD false
  let outer := onRec (p.shapeRec u d) false (fun s => decide (s.outerExt.prod ≤ d.outer))
  [(d.kb % 32 != 0 || d.kb == 0 || decide (8192 < d.kb), .item 0x0E),
   (onRec a false (fun a => decide (d.mExt a ≤ d.m0)) || onRec c false (fun c => decide (c.ext 1 ≤ d.m0)), .item 0x10),
   (onRec b false (fun b => decide (d.nExt b ≤ d.n0)) || onRec c false (fun c => decide (d.cCols c ≤ d.n0))
     || (fp4 && d.n0 % 32 != 0), .item 0x14),
   (onRec a false (fun a => decide (d.kExtA a ≤ d.k0)), .item 0x18), (outer, .item 0x1C),
   (d.m == 0 || decide (65536 < d.m), .item 0x20),
   (d.n == 0 || decide (8192 < d.n) || (fp4 && (d.n0 + d.n) % 32 != 0 && onRec c true (fun c => d.n0 + d.n != c.ext 0)), .item 0x24),
   (d.k == 0 || decide (1048576 < d.k) || onRec a false (fun a => onRec b false (fun b => d.kExtA a != d.kExtB b)), .item 0x28)]

/-- The product path of an item's records. -/
def Plan.pathOf (p : Plan) (d : DenseItem) : Option ProdPath :=
  match p.alloc d.aRec, p.alloc d.bRec with
  | some a, some b => pathFor a.fw.fmt b.fw.fmt
  | _, _ => none

def Plan.itemEngine (p : Plan) (u : ItemUse) (d : DenseItem) : List (Bool × Blame) :=
  let fp4 := p.pathOf d == some .fp4
  [((d.op == .nm) != (u.e.engine == .nm), .entry 0x04),
   (d.tiling != 0xFFFF && (match p.tiling d.tiling with | some t => t.gang != u.e.gang | none => false), .entry 0x04),
   (fp4 && !(d.op == .bt || (d.op == .acc && d.bT)), .item 0x00), (fp4 && d.k0 % 32 != 0, .item 0x18)]

def outFmtOf (w : Nat) : Option Fmt := (FmtWord.parse w).map (fun x => x.fmt)

def Plan.itemAcc (p : Plan) (d : DenseItem) : List (Bool × Blame) :=
  [(d.op == .acc && onRec (p.alloc d.cRec) true (fun c => c.fw.fmt != .fp32), .item 0x08),
   (d.op == .acc && outFmtOf d.outFmt != some .fp32, .item 0x2C)]

/-- Parts that a tiling record splits k into at the HBM level, and its tile_k. -/
def Plan.splitOf (p : Plan) (d : DenseItem) : Nat × Nat :=
  if d.tiling = 0xFFFF then (1, 0)
  else match p.tiling d.tiling with
    | some t => match t.levels with
      | l :: _ => (if l.tileK = 0 then 1 else ceilDiv t.k l.tileK, l.tileK)
      | [] => (1, 0)
    | none => (1, 0)

def Plan.itemCombine (p : Plan) (u : ItemUse) (d : DenseItem) : List (Bool × Blame) :=
  let split := p.splitOf d
  let plainOut := match FmtWord.parse d.outFmt with | some w => w.fmt == .fp32 && w.rnd == .rne | none => false
  match p.groupOf u.round u.e with
  | none => [(u.e.combineGroup == 0xFFFF && decide (1 < split.1), .entry 0x06)]
  | some g =>
    [(d.op == .acc || d.nmOut || d.ld7, .item 0x00), (d.cRec != 0xFFFF, .item 0x08), (d.cMeta != 0xFFFF, .item 0x0C),
     (onRec (p.shapeRec u d) false (fun s => decide (s.outerExt.prod ≤ d.outer)), .item 0x1C),
     (d.m != g.rows, .item 0x20), (d.n != g.cols, .item 0x24), (!plainOut, .item 0x2C),
     (decide (1 < split.1) && (g.parts != split.1 || u.e.kPart * split.2 != d.k0), .entry 0x08)]

/-- A 2:4 pair of records (spec 07, R228). -/
def nmPairBad (v md : Alloc) : Bool :=
  !([Fmt.bf16, .fp16, .fp8e4, .fp8e5, .int8, .uint8].any (fun f => v.fw.fmt == f)) || md.fw.fmt != .uint8 || md.fw.zeroPoint != 0
  || v.ext 0 % 4 != 0 || md.ext 0 * 4 != v.ext 0 || md.ext 1 != v.ext 1 || md.outerExt != v.outerExt || md.space != v.space
  || md.pclass != v.pclass

def Plan.itemNm (p : Plan) (u : ItemUse) (d : DenseItem) : List (Bool × Blame) :=
  let pair (a b : Nat) : Bool := onRec (p.alloc a) false (fun v => onRec (p.alloc b) false (fun md => nmPairBad v md))
  let outBad := match outFmtOf d.outFmt with | some .fp32 => true | some .fp4b => true | none => true | _ => false
  [(d.op == .nm && pair d.aRec d.aMeta, .item 0x04), (d.nmOut && pair d.cRec d.cMeta, .item 0x08),
   (d.op != .nm && d.aMeta != 0xFFFF, .item 0x0A), (!d.nmOut && d.cMeta != 0xFFFF, .item 0x0C),
   (d.nmOut && d.n0 % 8 != 0, .item 0x14), (d.op == .nm && d.k0 % 8 != 0, .item 0x18), (d.nmOut && d.n % 8 != 0, .item 0x24),
   (d.op == .nm && d.k % 8 != 0, .item 0x28), (d.nmOut && outBad, .item 0x2C), (d.nmOut && u.e.combineGroup != 0xFFFF, .entry 0x06)]

def Plan.itemLd7 (p : Plan) (u : ItemUse) (d : DenseItem) : List (Bool × Blame) :=
  if d.ld7 then
    let a := p.alloc d.aRec
    let b := p.alloc d.bRec
    let c := p.alloc d.cRec
    [(d.op == .nm || d.nmOut, .item 0x00), (u.e.gang != 1, .entry 0x04), (d.m0 % 32 != 0, .item 0x10), (d.n0 % 32 != 0, .item 0x14),
     (d.k0 % 32 != 0, .item 0x18),
     (onRec a false (fun a => decide (d.mExt a < d.m0 + up32 d.m)) || onRec c false (fun c => decide (c.ext 1 < d.m0 + up32 d.m)), .item 0x20),
     (onRec b false (fun b => decide (d.nExt b < d.n0 + up32 d.n)) || onRec c false (fun c => decide (c.ext 0 < d.n0 + up32 d.n)), .item 0x24),
     (onRec a false (fun a => decide (d.kExtA a < d.k0 + up32 d.k)) || onRec b false (fun b => decide (d.kExtB b < d.k0 + up32 d.k)),
       .item 0x28)]
  else []

/-- C_item (spec 07, R239). -/
def Plan.denseCycles (p : Plan) (e : WpEntry) (d : DenseItem) : Nat :=
  let d := d.sized false none
  let path := p.pathOf d
  let perCycle := match path with | some .fixed => 2 | some .fp4 => 4 | _ => 1
  let t := if path = some .three then 3 else 1
  let depth := if d.op = .nm then 64 else 32
  let group := min 128 (match (p.tiling d.tiling).bind (fun t => t.levels[3]?) with | some l => if d.tiling = 0xFFFF then 128 else l.tileM | none => 128)
  let passes := ceilDiv d.n (32 * e.gang) * ceilDiv d.k (depth * e.gang)
  let cost (rows : Nat) : Nat := passes * max (ceilDiv rows perCycle) 32
  let groups := if group = 0 then 0 else d.m / group * cost group + (if d.m % group = 0 then 0 else cost (d.m % group))
  t * groups + 96 + 16 * (e.gang - 1)

/-- The first failing sub-code of a dense item under an entry. -/
def Plan.denseFail (p : Plan) (u : ItemUse) : Option (Nat × Nat) :=
  let w := u.item.u 0 2
  let sub (code : Nat) (l : List (Bool × Blame)) : Option (Nat × Nat) := (l.find? (fun x => x.1)).map (fun x => (code, u.at_ x.2))
  match DenseItem.parse u.item.bytes with
  | none =>
    let head := DenseItem.parse (u.item.bytes.take 0x30 ++ zeros 16)
    sub 0x0501 [(head.isNone || bits w 4 0 != 0, .item 0x00), (true, .item 0x30)]
  | some d =>
    [sub 0x0502 (p.itemRecords u d), sub 0x0503 (p.itemShape u d), sub 0x0504 (p.itemEngine u d), sub 0x0505 (p.itemAcc d),
     sub 0x0506 (p.itemCombine u d), sub 0x0507 (p.itemNm u d), sub 0x0508 (p.itemLd7 u d),
     sub 0x0509 [(p.timeBad u.e (p.denseCycles u.e d), .entry 0x14)]].findSome? id

/-! ### Sparse items (spec 08, R275) -/

/-- An RLZ record (spec 08, R245). -/
def rlzBad (a : Option Alloc) (rows : Nat) : Bool :=
  onRec a true (fun a => a.fw.fmt != .uint8 || a.fw.zeroPoint != 0 || a.rank != 1 || a.space == .host || decide (a.ext 0 < rlzDirBytes rows))

/-- A dense record of a sparse item: two-dimensional, rows by columns. -/
def spDenseBad (a : Option Alloc) (rows : Nat) (cols : Option Nat) : Bool :=
  onRec a true (fun a => a.space == .host || a.outerExt.any (fun e => e != 1) || a.ext 1 != rows || (match cols with | some n => a.ext 0 != n | none => false))

/-- A scale other than 1.0 under a value format that has none. -/
def spScaleBad (a : Option Alloc) (f : Fmt) : Bool :=
  onRec a false (fun a => !(f == .fp8e4 || f == .fp8e5) && a.scale != F32.one)

def SpItem.dotted (x : SpItem) : Bool := x.op == .sddmm || x.op == .spdot

/-- SP_FORMAT beyond the item's own codes. -/
def Plan.spFormat (p : Plan) (x : SpItem) : List (Bool × Blame) :=
  let unlike (i : Nat) (f : Fmt) : Bool := onRec (p.alloc i) false (fun a => a.fw.fmt != f)
  [((x.op == .spmm || x.op == .sddmm) && unlike x.bRec x.bFmt, .item 0x02), (x.op == .sddmm && unlike x.aRec x.aFmt, .item 0x02),
   (!x.dotted && x.maskFmt != .fp32, .item 0x02), (x.dotted && outFmtOf x.outFmt != some x.maskFmt, .item 0x02)]

/-- Columns of C, or of a member's destination. -/
def Plan.spCols (p : Plan) (u : ItemUse) (x : SpItem) : Option Nat :=
  match p.groupOf u.round u.e with
  | some g => (p.allocById g.tensorId).map (fun a => a.2.ext 0)
  | none => (p.alloc x.cRec).map (fun c => c.ext 0)

def Plan.spRecords (p : Plan) (u : ItemUse) (x : SpItem) : List (Bool × Blame) :=
  let a := p.alloc x.aRec
  let b := p.alloc x.bRec
  let c := p.alloc x.cRec
  let mask := p.alloc x.maskRec
  let cols := p.spCols u x
  [((match x.op with
      | .sddmm => spDenseBad a x.rows (some x.k)
      | _ => rlzBad a x.rows || spScaleBad a x.aFmt), .item 0x04),
   ((match x.op with
      | .spmm => spDenseBad b x.k cols
      | .spgemm => rlzBad b x.k || spScaleBad b x.bFmt
      | .sddmm => spDenseBad b x.n (some x.k)
      | .spdot => rlzBad b x.n || spScaleBad b x.bFmt), .item 0x06),
   ((match x.op with
      | .spmm => if u.e.combineGroup = 0xFFFF then spDenseBad c x.rows none else x.cRec != 0xFFFF
      | .spgemm => rlzBad c x.rows
      | _ => rlzBad c x.rows || onRec c true (fun c => onRec mask false (fun k => decide (c.ext 0 < k.ext 0)))), .item 0x08),
   ((if x.dotted then rlzBad mask x.rows else x.maskRec != 0xFFFF), .item 0x0A),
   ((if x.segCap = 0 then x.segRec != 0xFFFF else onRec (p.alloc x.segRec) true (fun a => a.space == .host)), .item 0x0C),
   ((if x.dotted then x.partRec != 0xFFFF
      else x.partRec != 0xFFFF && onRec (p.alloc x.partRec) true (fun a => a.space == .host)), .item 0x0E)]

def Plan.spShape (p : Plan) (u : ItemUse) (x : SpItem) : List (Bool × Blame) :=
  let out (lo hi v : Nat) : Bool := decide (v < lo) || decide (hi < v)
  let cCols := p.spCols u x
  let gemm := x.op == .spgemm
  [(decide (x.rows < x.m0 + x.m), .item 0x14), (out 1 65536 x.m, .item 0x18), (x.op != .spmm && x.n0 != 0, .item 0x1C),
   ((if x.op = .spmm then out 1 8192 x.n || (match cCols with | some n => decide (n < x.n0 + x.n) | none => false)
      else out 1 0xFFFFFFFE x.n), .item 0x20),
   ((match x.op with | .sddmm => out 1 32768 x.k | .spdot => out 1 16384 x.k | _ => out 1 0xFFFFFFFE x.k), .item 0x24),
   ((match outFmtOf x.outFmt with | some f => decide (4 < f.code) | none => true), .item 0x28), (out 1 16777216 x.budget, .item 0x2C),
   (!gemm && x.spillCap != 0, .item 0x38), (gemm != (x.bRowCap != 0), .item 0x3A), (!gemm && x.cRowSlot != 0, .item 0x3C)]

/-- The SPARSE items of a round with their record index. -/
def Plan.spItems (p : Plan) (r : RoundHdr) : List (Nat × SpItem) :=
  (p.entriesOf r).filterMap (fun e =>
    match e.engine, SpRec.parse (p.itemBytes e) with
    | .sparse, some (.item x) => some (e.itemRef / 64, x)
    | _, _ => none)

def Plan.spCapacity (p : Plan) (u : ItemUse) (x : SpItem) : List (Bool × Blame) :=
  let hi := x.segBase + x.segCap
  let overlaps := (p.spItems u.round).any (fun y => 64 * y.1 != u.e.itemRef && y.2.segRec == x.segRec && decide (0 < y.2.segCap)
    && Span.meets ⟨y.2.segBase, y.2.segBase + y.2.segCap⟩ ⟨x.segBase, hi⟩)
  let seg := 0 < x.segCap
  let gemm := x.op == .spgemm
  [(seg && onRec (p.alloc x.segRec) false (fun a => a.pclass != .scratch), .item 0x0C),
   (seg && !x.dotted && onRec (p.alloc x.partRec) true (fun a => a.pclass != .scratch || decide (a.spanBytes < hi * x.partBytes)), .item 0x0E),
   (seg && (overlaps || onRec (p.alloc x.segRec) false (fun a => decide (a.spanBytes < 32 * hi))), .item 0x30),
   (gemm && decide (x.spillCap < ceilDiv (x.t * x.bRowCap) 8), .item 0x38),
   (gemm && (decide (64 * x.cRowSlot < 2 * ceilDiv x.n 256)
     || onRec (p.alloc x.cRec) false (fun c => decide (c.ext 0 < rlzDirBytes x.rows + 64 * (x.rows * x.cRowSlot)))), .item 0x3C)]

/-- The SEGMENT entries of a round that serve a slot of a poster. -/
def Plan.segmentsOf (p : Plan) (r : RoundHdr) (ref slot : Nat) : List WpEntry :=
  (p.entriesOf r).filter (fun e => e.engine == .sparse && (match SpRec.parse (p.itemBytes e) with
    | some (.segment f s) => f == ref && s == slot
    | _ => false))

/-- SP_SEGMENT of a poster: a slot that no SEGMENT item, or more than one, serves. -/
def Plan.spSlots (p : Plan) (u : ItemUse) (x : SpItem) : Bool :=
  (List.range x.segCap).any (fun i => (p.segmentsOf u.round u.e.itemRef (x.segBase + i)).length != 1)

/-- SP_SEGMENT of a SEGMENT item. -/
def Plan.spSegment (p : Plan) (u : ItemUse) (ref slot : Nat) : List (Bool × Blame) :=
  let poster := (p.entriesOf u.round).find? (fun e => e.engine == .sparse && e.itemRef == ref)
  let x := if ref % 64 = 0 then p.posterOf ref else none
  let ws := p.worksOf u.round
  [(poster.isNone || x.isNone, .item 0x08),
   ((match x with | some x => decide (slot < x.segBase) || decide (x.segBase + x.segCap ≤ slot) | none => false), .item 0x10),
   ((match poster with
      | some e => u.e.waitFlag == 0xFFFF || u.e.waitFlag != e.doneFlag || decide (u.e.waitValue + 1 ≤ incsOf ws u.e.waitFlag)
      | none => false), .entry 0x0A)]

/-- The per-element bound u, merge, and the bounds W_item and W_seg (spec 08, R273). -/
def SpItem.unitCost (x : SpItem) : Nat :=
  match x.op with
  | .spmm => ceilDiv x.n 32 | .spgemm => 2 + ceilDiv x.bRowCap 4 | .sddmm => 5 + ceilDiv x.k 32 | .spdot => 4 + ceilDiv (2 * x.k) 8

def log2Up (n : Nat) : Nat := if n ≤ 1 then 0 else Nat.log2 (n - 1) + 1
def mergeCost (n : Nat) : Nat := ceilDiv n 8 * (1 + log2Up (max 1 (ceilDiv n 8)))

def SpItem.itemCycles (x : SpItem) : Nat :=
  32 + ceilDiv x.m 8 + 16 * x.m + x.budget * x.unitCost + x.segCap + (if x.op = .spgemm then mergeCost (x.budget * x.bRowCap) else 0)

def SpItem.segCycles (x : SpItem) : Nat :=
  24 + x.t * x.unitCost + (if x.op = .spmm then 16 + x.segCap * ceilDiv x.n 32 else 0)
  + (if x.op = .spgemm then mergeCost (x.t * x.bRowCap) + mergeCost (x.segCap * x.t * x.bRowCap) else 0)

/-- The first failing sub-code of a sparse item under an entry. -/
def Plan.sparseFail (p : Plan) (u : ItemUse) : Option (Nat × Nat) :=
  let sub (code : Nat) (l : List (Bool × Blame)) : Option (Nat × Nat) := (l.find? (fun x => x.1)).map (fun x => (code, u.at_ x.2))
  let other := (p.enginesOf (u.e.itemRef / 64)).any (fun e => e == .dense || e == .nm)
  let member := u.e.combineGroup != 0xFFFF
  match SpRec.parse u.item.bytes with
  | none =>
    let w := u.item.u 0 2
    sub 0x0521 [(decide (4 < bits w 15 12) || bits w 11 0 != 0, .item 0x00), (true, .item 0x02)]
  | some (.item x) =>
    [sub 0x0521 (p.spFormat x), sub 0x0522 (p.spRecords u x), sub 0x0523 (p.spShape u x), sub 0x0524 (p.spCapacity u x),
     sub 0x0525 [(p.spSlots u x, .item 0x34)], sub 0x0526 [(p.timeBad u.e x.itemCycles, .entry 0x14)],
     sub 0x0527 [(other, .item 0x00), (member && x.op != .spmm, .entry 0x06)]].findSome? id
  | some (.segment ref slot) =>
    [sub 0x0525 (p.spSegment u ref slot),
     sub 0x0526 [((match p.posterOf ref with | some x => p.timeBad u.e x.segCycles | none => false), .entry 0x14)],
     sub 0x0527 [(other, .item 0x00), (member, .entry 0x06)]].findSome? id

/-! ### The section -/

/-- The first round that holds an entry. -/
def Plan.roundOf (p : Plan) (i : Nat) : Option RoundHdr :=
  p.rounds.find? (fun r => decide (r.firstEntry ≤ i) && decide (i < r.firstEntry + r.itemCount))

/-- The entries that name item i; an entry that no round holds has no group. -/
def itemUses (img : Bytes) (p : Plan) (r : ImgRec) (i : Nat) : List ItemUse :=
  (recsI img 0x02).filterMap (fun x =>
    let e := parseEntry x.1
    if e.engine ≠ .update ∧ e.itemRef = 64 * i then
      some ⟨r, e, x.1, x.2, (p.roundOf x.2).getD (parseRound ⟨0, zeros 64⟩)⟩
    else none)

def itemsFail (img : Bytes) (p : Plan) : Option Fail :=
  ((recsI img 0x05).findSome? (fun x => (itemUses img p x.1 x.2).findSome? (fun u =>
    if u.e.engine = .sparse then p.sparseFail u else p.denseFail u))).map (fun x => ⟨0x0E, 0x05, x.1, x.2⟩)

end Sys2Proof.Machine
end

