-- ==== Sys2Proof/Machine/ValidateRoutes.lean ====
section
/-! DEFINITION. Validation of ROUTES: fail_section 0x0B (spec 09, R278 to R305, R309). -/
namespace Sys2Proof.Machine

/-- Members of the settle set of a round. -/
def Plan.settlers (p : Plan) (r : RoundHdr) : List Nat := match p.setOf r with | some s => s.members | none => []

/-- The rounds whose route work includes record i. -/
def Plan.roundsOfRoute (p : Plan) (i : Nat) : List RoundHdr := p.rounds.filter (fun r => (p.routesOf r).any (fun x => x.1 == i))

/-- A chain starts at record i and no record from there on ends it. -/
def Plan.openChain (p : Plan) (i : Nat) : Bool :=
  p.rounds.any (fun r => r.firstRoute == i) && !(p.routes.drop i).any (fun x => match x with
    | .route d => d.last
    | .mask g => g.last
    | .binding _ _ => false)

/-! ### ROUTE_FORMAT (spec 09, R281 to R283, R299, R303) -/

def routeFormat (h : Hbm) (p : Plan) (r : ImgRec) (d : RouteDesc) (i : Nat) : List (Bool × Nat × Nat) :=
  let w := r.u 0x02 2
  let mode := r.u 0x01 1
  let bindings := p.routes.drop d.firstBinding |>.take d.bindingCount
  let bindBad := if d.firstBinding = 0xFFFF then d.bindingCount != 0
    else bindings.length != d.bindingCount || bindings.any (fun b => match b with | .binding t _ => t != i | _ => true)
  let used := 2 * d.group.length
  [(decide (2 < mode), 0x0B01, 0x01),
   (bits w 9 8 == 3 || bit w 0 || (mode == 0 && (d.k != 1 || d.weightMode != .unit)) || decide (d.experts < d.k) || p.openChain i, 0x0B01, 0x02),
   (d.tokens == 0 || decide (4194304 < d.tokens), 0x0B01, 0x04),
   (d.countAddr != 0 && (d.countAddr % 4 != 0 || !h.mapped.any (Span.within ⟨d.countAddr, d.countAddr + 4⟩)), 0x0B01, 0x08),
   (mode != 0 && d.salt != 0, 0x0B01, 0x10), (mode != 0 && d.keyRec != 0xFFFF, 0x0B01, 0x18), (mode != 1 && d.scoreRec != 0xFFFF, 0x0B01, 0x1A),
   (mode != 2 && d.sourceRoute != 0xFFFF, 0x0B01, 0x2C), (d.capacity == 0, 0x0B01, 0x2E), (bindBad, 0x0B01, 0x30),
   (decide (d.timeoutUs < 10) || decide (1000000 < d.timeoutUs), 0x0B01, 0x40), (r.rsv 0x46 2, 0x0B01, 0x46),
   (d.startFlag == 0xFFFF && d.startValue != 0, 0x0B01, 0x48), (r.rsv 0x4C 4, 0x0B01, 0x4C),
   (r.rsv (0x50 + used) (16 - used), 0x0B01, 0x50 + used), (r.rsv 0x60 32, 0x0B01, 0x60)]

def bindingFormat (p : Plan) (r : ImgRec) : List (Bool × Nat × Nat) :=
  let n := r.u 0x01 1
  let h := match p.routes[r.u 0x02 2]? with | some (.route d) => d.h | _ => 0
  let used := 8 * min 14 n
  let each (k : Nat) : List (Bool × Nat × Nat) :=
    let o := 0x10 + 8 * k
    [(r.u (o + 4) 2 == 0, 0x0B01, o + 4), (decide (h ≤ r.u (o + 6) 1) && r.u (o + 6) 1 != 0xFF, 0x0B01, o + 6),
     (bits (r.u (o + 7) 1) 7 1 != 0, 0x0B01, o + 7)]
  [(n == 0 || decide (14 < n), 0x0B01, 0x01), (h == 0, 0x0B01, 0x02), (r.rsv 0x04 12, 0x0B01, 0x04)]
  ++ ((List.range (min 14 n)).map each).flatten ++ [(r.rsv (0x10 + used) (112 - used), 0x0B01, 0x10 + used)]

def maskFormat (p : Plan) (r : ImgRec) (g : MaskGen) (i : Nat) : List (Bool × Nat × Nat) :=
  let doc := decide (2 ≤ r.u 0x01 1)
  [(decide (3 < r.u 0x01 1), 0x0B01, 0x01), (decide (4 < g.vfmt) || bits (r.u 0x02 2) 10 0 != 0 || p.openChain i, 0x0B01, 0x02),
   (g.rowCount == 0 || decide (65536 < g.rowCount), 0x0B01, 0x08), (g.colCount == 0 || decide (4194304 < g.colCount), 0x0B01, 0x14),
   (!doc && g.segRec != 0xFFFF, 0x0B01, 0x20), (r.rsv 0x26 2, 0x0B01, 0x26), (r.rsv 0x2C 84, 0x0B01, 0x2C)]

/-! ### ROUTE_GROUP (spec 09, R283) -/

def routeGroup (p : Plan) (d : RouteDesc) (rounds : List RoundHdr) : List (Bool × Nat × Nat) :=
  let g := d.group
  let strangers := rounds.any (fun r => g.any (fun x => !(p.settlers r).contains x))
  let apart := g.any (fun x => x / 8 != g.headD 0 / 8)
  [(rounds.any (fun r => !r.fabric) && decide (1 < g.length), 0x0B02, 0x02), ((memberBad Config.position g).isSome || apart || strangers, 0x0B02, 0x50)]

/-! ### ROUTE_RECORDS (spec 09, R281, R285 to R297) -/

/-- A record that a route may not use. -/
def usable (a : Alloc) : Bool := a.space != .host && a.pclass != .bank && a.pclass != .snapshot

/-- No usable record, or one that fails a test. -/
def recBad (a : Option Alloc) (f : Alloc → Bool) : Bool := onRec a true (fun a => !usable a || f a)

/-- A byte record of at least n bytes. -/
def byteRecBad (a : Option Alloc) (n : Nat) : Bool := recBad a (fun a => a.fw.fmt != .uint8 || a.rank != 1 || decide (a.ext 0 < n))

/-- A matrix record of c columns and r rows. -/
def matRecBad (a : Option Alloc) (c r : Nat) : Bool := recBad a (fun a => decide (2 < a.rank) || a.ext 0 != c || a.ext 1 != r)

def classOut (a : Option Alloc) (l : List PClass) : Bool := onRec a false (fun a => !l.contains a.pclass)

def routeRecords (p : Plan) (d : RouteDesc) (rounds : List RoundHdr) : List (Bool × Nat × Nat) :=
  let inA := p.alloc d.inRec
  let width (a : Option Alloc) : Nat := (a.map (fun a => a.ext 0)).getD 0
  let fmt (a : Option Alloc) : Option Fmt := a.map (fun a => a.fw.fmt)
  let ret := p.alloc d.retRec
  let queues (f : Nat → Bool) : Bool := (List.range d.h).any f
  let late (i : Nat) : Bool := classOut (p.alloc i) [.scratch] && rounds.any (fun r => (p.deferredOf r).contains i)
  let hdrBad (x : Nat) : Bool := byteRecBad (p.alloc (d.qhdrRec + x)) (16 * d.capacity) || classOut (p.alloc (d.qhdrRec + x)) [.scratch]
  let vecBad (x : Nat) : Bool :=
    let a := p.alloc (d.qvecRec + x)
    recBad a (fun a => decide (2 < a.rank) || a.ext 0 != width inA || decide (a.ext 1 < d.capacity))
      || classOut a [.scratch, .working] || late (d.qvecRec + x) || (!d.scaleDispatch && fmt a != fmt inA)
  let outBad (x : Nat) : Bool :=
    let a := p.alloc (d.qoutRec + x)
    recBad a (fun a => decide (2 < a.rank) || a.ext 0 != width ret || decide (a.ext 1 < d.capacity)) || classOut a [.scratch] || fmt a != fmt ret
  [(d.mode == .hash && byteRecBad (p.alloc d.keyRec) (8 * d.tokens), 0x0B03, 0x18),
   (d.mode == .topk && (matRecBad (p.alloc d.scoreRec) d.experts d.tokens || !(fmt (p.alloc d.scoreRec) == some .fp32 || fmt (p.alloc d.scoreRec) == some .bf16)),
     0x0B03, 0x1A),
   (byteRecBad (p.alloc d.tableRec) (8 * d.k * d.tokens) || classOut (p.alloc d.tableRec) [.working], 0x0B03, 0x1C),
   (byteRecBad (p.alloc d.maskRec) 0 || width (p.alloc d.maskRec) != d.tokens || classOut (p.alloc d.maskRec) [.working], 0x0B03, 0x1E),
   (matRecBad inA (width inA) d.tokens, 0x0B03, 0x20),
   (matRecBad (p.alloc d.outRec) (width ret) d.tokens || classOut (p.alloc d.outRec) [.scratch, .working], 0x0B03, 0x22),
   (matRecBad ret (width ret) (d.k * d.tokens) || classOut ret [.scratch], 0x0B03, 0x24),
   (queues hdrBad, 0x0B03, 0x26), (queues vecBad, 0x0B03, 0x28), (queues outBad, 0x0B03, 0x2A)]

/-- Records of a mask generator. -/
def maskRecords (p : Plan) (g : MaskGen) : List (Bool × Nat × Nat) :=
  let out := p.alloc g.outRec
  [((g.pattern == .document || g.pattern == .documentCausal) && byteRecBad (p.alloc g.segRec) 0, 0x0B03, 0x20),
   (byteRecBad out (rlzDirBytes g.rowCount + 64 * (g.rowCount * g.rowSlot)) || onRec out false (fun a => a.fw.zeroPoint != 0), 0x0B03, 0x22)]

/-! ### ROUTE_FLAGS -/

/-- The flags that a route, or a mask generator, has for itself in a round. -/
def RouteRec.ownFlags : RouteRec → List Nat
  | .route d => [d.dispatchFlag, d.returnFlag, d.outFlag, d.combineFlag]
  | .mask g => [g.doneFlag]
  | .binding _ _ => []

/-- A flag that another route of one of the rounds uses too. -/
def Plan.flagShared (p : Plan) (rounds : List RoundHdr) (i f : Nat) : Bool :=
  f != 0xFFFF && rounds.any (fun r => (p.routesOf r).any (fun x => x.1 != i && x.2.ownFlags.contains f))

def routeFlags (p : Plan) (d : RouteDesc) (rounds : List RoundHdr) (i : Nat) : List (Bool × Nat × Nat) :=
  let remote (f : Nat) : Bool := decide (f < 768) || decide (1023 < f)
  let shared := p.flagShared rounds i
  [(remote d.dispatchFlag || shared d.dispatchFlag, 0x0B04, 0x34), (remote d.returnFlag || shared d.returnFlag, 0x0B04, 0x36),
   (decide (767 < d.outFlag) || shared d.outFlag, 0x0B04, 0x38), (flagBad d.combineFlag || shared d.combineFlag, 0x0B04, 0x3A),
   (flagBad d.startFlag, 0x0B04, 0x44)]

/-! ### ROUTE_REUSE (spec 09, R298) -/

def routeReuse (p : Plan) (d : RouteDesc) (rounds : List RoundHdr) : List (Bool × Nat × Nat) :=
  if d.mode = .reuse then
    match p.routes[d.sourceRoute]? with
    | some (.route s) =>
      let early := rounds.any (fun r => !(p.roundsOfRoute d.sourceRoute).any (fun q => decide (q.roundNo < r.roundNo)))
      [(d.countAddr != 0, 0x0B05, 0x08), (d.tableRec != s.tableRec, 0x0B05, 0x1C), (d.maskRec != s.maskRec, 0x0B05, 0x1E),
       (early || d.tokens != s.tokens || d.k != s.k || d.h != s.h || d.group != s.group || d.capacity != s.capacity, 0x0B05, 0x2C)]
    | _ => [(true, 0x0B05, 0x2C)]
  else []

/-! ### ROUTE_BINDING (spec 09, R300) -/

/-- A wait that the dispatch_flag at the member count, or a flag behind it, releases. -/
def behind (ws : List Work) (flag value : Nat) : Nat → Nat → Nat → Bool
  | 0, _, _ => false
  | n + 1, wait, v =>
    (wait == flag && decide (value ≤ v) && decide (v < 2 ^ 31))
    || ws.any (fun w => w.done == wait && wait != 0xFFFF && decide (incsOf ws wait - w.incs < v) && decide (v < 2 ^ 31)
        && behind ws flag value n w.wait w.value)

/-- How many binding entries of a round's route work cover an item. -/
def Plan.boundTimes (p : Plan) (r : RoundHdr) (item : Nat) : Nat :=
  ((p.routes.map (fun x => match x with
    | .binding t es => if (p.routesOf r).any (fun y => y.1 == t)
        then (es.filter (fun b => decide (b.firstItem ≤ item) && decide (item < b.firstItem + b.itemCount))).length else 0
    | _ => 0)).sum)

def bindingBad (p : Plan) (t : Nat) (d : RouteDesc) (b : BindEntry) : Bool :=
  (p.roundsOfRoute t).any (fun r =>
    let ws := p.worksOf r
    let es := p.entriesOf r
    decide (es.length < b.firstItem + b.itemCount)
    || (((es.zipIdx.drop b.firstItem).take b.itemCount).any (fun e =>
        !(e.1.engine == .dense || e.1.engine == .nm) || decide (1 < p.boundTimes r e.2)
        || !behind ws d.dispatchFlag d.group.length (ws.length + 1) e.1.waitFlag e.1.waitValue)))

def routeBindings (p : Plan) (t : Nat) (es : List BindEntry) : List (Bool × Nat × Nat) :=
  match p.routes[t]? with
  | some (.route d) => es.zipIdx.map (fun x => (bindingBad p t d x.1, 0x0B06, 0x10 + 8 * x.2))
  | _ => [(true, 0x0B06, 0x02)]

/-! ### MASK_FORMAT (spec 09, R304, R305) -/

def maskRules (p : Plan) (g : MaskGen) (rounds : List RoundHdr) : List (Bool × Nat × Nat) :=
  let lastP := g.qOffset + g.row0 + g.rowCount
  let lastJ := g.col0 + g.colCount
  let doc := g.pattern == .document || g.pattern == .documentCausal
  let consumers := (rounds.map (fun r => (p.spItems r).filter (fun x => x.2.maskRec == g.outRec))).flatten
  [(consumers.any (fun x => x.2.maskFmt.code != g.vfmt), 0x0B07, 0x02), (decide (4194304 < lastP), 0x0B07, 0x0C), (decide (4194304 < lastJ), 0x0B07, 0x10),
   (doc && onRec (p.alloc g.segRec) false (fun a => decide (a.ext 0 < 4 * max lastP lastJ)), 0x0B07, 0x20),
   (decide (64 * g.rowSlot < 2 * ceilDiv g.colCount 256), 0x0B07, 0x28)]

/-! ### The section -/

def routeFail (h : Hbm) (p : Plan) (r : ImgRec) (i : Nat) : Option Fail :=
  let rounds := p.roundsOfRoute i
  match r.u 0 1, parseRouteRec r with
  | 1, .route d =>
    r.failsSub 0x0B (routeFormat h p r d i ++ routeGroup p d rounds ++ routeRecords p d rounds ++ routeFlags p d rounds i ++ routeReuse p d rounds)
  | 2, .binding t es => r.failsSub 0x0B (bindingFormat p r ++ routeBindings p t es)
  | 3, .mask g =>
    r.failsSub 0x0B (maskFormat p r g i ++ maskRecords p g ++ [(flagBad g.doneFlag || p.flagShared rounds i g.doneFlag, 0x0B04, 0x24)] ++ maskRules p g rounds)
  | _, _ => some ⟨0x0E, 0x0B, 0x0B01, r.off⟩

def routesFail (img : Bytes) (h : Hbm) (p : Plan) : Option Fail := (recsI img 0x0B).findSome? (fun x => routeFail h p x.1 x.2)

end Sys2Proof.Machine
end

