-- ==== Sys2Proof/Machine/ValidateColls.lean ====
section
/-! DEFINITION. Validation of COLLECTIVES: fail_section 0x0C (spec 11, R353 to R374). -/
namespace Sys2Proof.Machine

/-- The rounds whose collective work includes descriptor i. -/
def Plan.roundsOfColl (p : Plan) (i : Nat) : List RoundHdr := p.rounds.filter (fun r => (p.collsOf r).any (fun x => x.1 == i))

/-- Local operations (spec 11, R355). -/
def CollOp.isLocal : CollOp → Bool
  | .tieSum => true | .ortho => true | .seed => true | _ => false

/-- The operation reduces. -/
def CollOp.reduces : CollOp → Bool
  | .reduceScatter => true | .allReduce => true | _ => false

/-! ### COLL_FORMAT (spec 11, R353, R354) -/

def collFormat (p : Plan) (r : ImgRec) (c : Coll) (i : Nat) : List (Bool × Nat × Nat) :=
  let w := r.u 0x02 2
  let g := r.u 0x08 2
  let op := r.u 0x00 1
  let own := c.op.isLocal
  let norm := c.op == .normFinite
  let unended := p.rounds.any (fun h => h.firstCollective == i) && !(p.colls.drop i).any (fun x => x.last)
  let isSet := match p.slots[c.memberSet]? with | some (.members _) => true | _ => false
  [(op == 0 || decide (7 < op), 0x0C01, 0x00), (r.rsv 0x01 1, 0x0C01, 0x01),
   (bits w 10 0 != 0 || (c.op != .tieSum && bits w 14 11 != 0) || unended, 0x0C01, 0x02),
   ((if own then c.memberSet != 0xFFFFFFFF else !isSet), 0x0C01, 0x04), ((if own then g != 0 else bits g 4 0 != 0), 0x0C01, 0x08),
   (flagBad c.startFlag, 0x0C01, 0x0A), (c.startFlag == 0xFFFF && c.startValue != 0, 0x0C01, 0x0C),
   ((if own then c.shardElems != 0 else decide (c.shardElems < 896) || decide (14680064 < c.shardElems)), 0x0C01, 0x10),
   ((c.op == .ortho || c.op == .seed || norm) && c.srcRec != 0xFFFF, 0x0C01, 0x14), ((own || norm) && c.stageRec != 0xFFFF, 0x0C01, 0x18),
   (flagBad c.doneFlag, 0x0C01, 0x1A), (decide (c.timeoutUs < 10) || decide (1000000 < c.timeoutUs), 0x0C01, 0x1C),
   ((if c.emptyRoute = 0xFFFF then c.emptyExpert != 0 else decide (15 < c.emptyExpert)), 0x0C01, 0x22), (r.rsv 0x23 1, 0x0C01, 0x23),
   (!norm && c.normFirst != 0xFFFF, 0x0C01, 0x24), (!norm && c.normCount != 0, 0x0C01, 0x26), (r.rsv 0x28 24, 0x0C01, 0x28)]

/-! ### COLL_GRID (spec 11, R356) -/

def collGrid (p : Plan) (c : Coll) (rounds : List RoundHdr) : List (Bool × Nat × Nat) :=
  let l := p.members c.memberSet
  let same (d n : Nat) : Bool := (chunks n l).any (fun g => g.any (fun x => x / d != g.headD 0 / d))
  if c.op.isLocal then []
  else [(rounds.any (fun r => !r.fabric || l.any (fun x => !(p.settlers r).contains x)), 0x0C02, 0x04),
    (l.length != c.p || same 8 c.a || same 64 (c.a * c.b), 0x0C02, 0x08)]

/-! ### COLL_RECORDS, COLL_SIZE (spec 11, R355, R359, R360, R365, R367) -/

/-- No usable FP32 record, or one of another element count. -/
def fp32Bad (a : Option Alloc) (n : Option Nat) : Bool :=
  recBad a (fun a => a.fw.fmt != .fp32 || (match n with | some n => a.elems != n | none => false))

/-- Bytes of the stage buffer. -/
def Coll.stageBytes (c : Coll) (q : Nat) : Nat := (c.stages.map (fun s => c.regionBytes s q)).sum

def collRecords (p : Plan) (c : Coll) : List (Bool × Nat × Nat) :=
  let n := c.p * c.shardElems
  let src := p.alloc c.srcRec
  let dst := p.alloc c.dstRec
  let elems := dst.map (fun a => a.elems)
  let srcBad := match c.op with
    | .reduceScatter => fp32Bad src (some n)
    | .allReduce => fp32Bad src (some n)
    | .allGather => fp32Bad src (some c.shardElems)
    | .tieSum => (List.range c.uses).any (fun u => fp32Bad (p.alloc (c.srcRec + u)) elems)
    | _ => false
  let dstBad := match c.op with
    | .reduceScatter => fp32Bad dst (some c.shardElems)
    | .allReduce => fp32Bad dst (some n)
    | .allGather => fp32Bad dst (some n)
    | .normFinite => byteRecBad dst 0
    | .tieSum => fp32Bad dst none || ((List.range c.uses).any (fun u => decide (0 < u) && c.srcRec + u == c.dstRec))
    | .ortho => recBad dst (fun a => a.fw.fmt != .fp32 || a.rank != 2 || decide (64 < a.ext 0))
    | .seed => fp32Bad dst none
  let staged := c.op.reduces || c.op == .allGather
  [(srcBad, 0x0C03, 0x14), (dstBad, 0x0C03, 0x16),
   (staged && (byteRecBad (p.alloc c.stageRec) (c.stageBytes (p.rankIn c)) || classOut (p.alloc c.stageRec) [.scratch]), 0x0C03, 0x18)]

def collSize (p : Plan) (c : Coll) : List (Bool × Nat × Nat) :=
  let q := p.rankIn c
  let excess := !c.op.isLocal && c.stages.any (fun s => decide (16384 < (c.gets s q).length * c.shardElems / 896))
  [(c.shardElems % 896 != 0 || excess, 0x0C04, 0x10)]

/-! ### COLL_ORDER (spec 11, R371) -/

/-- A wait that orders behind a work, by its own flag or through other work. -/
def behindWork (ws : List Work) (x : Work) : Nat → Nat → Nat → Bool
  | 0, _, _ => false
  | n + 1, wait, v =>
    let needs (w : Work) : Bool := w.done == wait && wait != 0xFFFF && decide (incsOf ws wait - w.incs < v) && decide (v < 2 ^ 31)
    needs x || ws.any (fun w => needs w && behindWork ws x n w.wait w.value)

/-- The collectives that a NORM_FINITE measures, with their index. -/
def Plan.measuredBy (p : Plan) (c : Coll) : List (Nat × Coll) :=
  (List.range c.normCount).filterMap (fun k => (p.colls[c.normFirst + k]?).map (fun x => (c.normFirst + k, x)))

def collOrderBad (p : Plan) (c : Coll) (i : Nat) (r : RoundHdr) : Bool :=
  let ws := p.worksOf r
  let w := p.collWork (i, c)
  if c.op = .normFinite then
    (p.measuredBy c).any (fun x => (p.collsOf r).any (fun y => y.1 == x.1)
      && !behindWork ws (p.collWork x) (ws.length + 1) c.startFlag c.startValue)
  else !p.workOrdered r ws w

/-! ### COLL_EMPTY, COLL_NORM (spec 11, R364, R369) -/

def collEmpty (p : Plan) (c : Coll) (rounds : List RoundHdr) : List (Bool × Nat × Nat) :=
  if c.emptyRoute = 0xFFFF then []
  else match p.routes[c.emptyRoute]? with
    | some (.route d) =>
      let late := rounds.any (fun r => !(p.roundsOfRoute c.emptyRoute).any (fun q => decide (q.roundNo ≤ r.roundNo)))
      [(late, 0x0C06, 0x20), (decide (d.h ≤ c.emptyExpert), 0x0C06, 0x22)]
    | _ => [(true, 0x0C06, 0x20)]

def collNorm (p : Plan) (c : Coll) : List (Bool × Nat × Nat) :=
  if c.op = .normFinite then
    let l := p.measuredBy c
    [(onRec (p.alloc c.dstRec) false (fun a => decide (a.ext 0 < 16)), 0x0C07, 0x16),
     (l.any (fun x => !x.2.op.reduces || x.2.memberSet != c.memberSet), 0x0C07, 0x24),
     (c.normCount == 0 || decide (256 < c.normCount) || l.length != c.normCount, 0x0C07, 0x26)]
  else []

/-! ### The section -/

def collFail (p : Plan) (r : ImgRec) (i : Nat) : Option Fail :=
  let c := parseColl r
  let rounds := p.roundsOfColl i
  r.failsSub 0x0C (collFormat p r c i ++ collGrid p c rounds ++ collRecords p c ++ collSize p c
    ++ [(rounds.any (collOrderBad p c i), 0x0C05, 0x0A)] ++ collEmpty p c rounds ++ collNorm p c)

def collsFail (img : Bytes) (p : Plan) : Option Fail := (recsI img 0x0C).findSome? (fun x => collFail p x.1 x.2)

end Sys2Proof.Machine
end

