-- ==== Sys2Proof/Machine/ValidateUpdates.lean ====
section
/-! DEFINITION. Validation of UPDATES: fail_section 0x0D (spec 12, R384 to R407), with the simulation of the version table (R404). -/
namespace Sys2Proof.Machine

/-- The rounds whose chain includes record i. -/
def Plan.roundsOfUpd (p : Plan) (i : Nat) : List RoundHdr := p.rounds.filter (fun r => (p.chainOf r).any (fun x => x.1 == i))

/-- The UPDATE entries of a round with their woodpile index. -/
def Plan.updEntries (p : Plan) (r : RoundHdr) : List (WpEntry × Nat) :=
  ((p.entriesOf r).zipIdx.filter (fun x => x.1.engine == .update)).map (fun x => (x.1, r.firstEntry + x.2))

/-! ### UPD_FORMAT (spec 12, R384 to R388, R399, R400) -/

/-- Chains without a last record, with a second update descriptor, or with a record of another kind: the record to blame. -/
def Plan.chainBad (p : Plan) (i : Nat) : Bool :=
  p.rounds.any (fun r =>
    let c := p.chainOf r
    let updates := c.filter (fun x => match x.2 with | .update _ => true | _ => false)
    let lastOk := match c.getLast? with
      | some (_, .update u) => u.last
      | some (_, .bind l _) => l
      | _ => true
    (r.updateRef == i && !lastOk)
    || (updates.drop 1).any (fun x => x.1 == i)
    || c.any (fun x => x.1 == i && (match x.2 with | .group _ => true | .vset _ => true | _ => false)))

def updFormat (r : ImgRec) (u : UpdDesc) : List (Bool × Nat × Nat) :=
  let rule := r.u 0x01 1
  let w := r.u 0x02 2
  [(decide (3 < rule), 0x0D01, 0x01), (bits w 13 0 != 0 || (rule != 0 && u.nesterov), 0x0D01, 0x02), (r.rsv 0x16 2, 0x0D01, 0x16),
   (u.rule != .factored && u.rowLen != 0, 0x0D01, 0x24), (r.rsv 0x28 24, 0x0D01, 0x28)]

def bindFormat (r : ImgRec) : List (Bool × Nat × Nat) :=
  let n := r.u 0x01 1
  let used := 8 * min 6 n
  let each (k : Nat) : List (Bool × Nat × Nat) :=
    let o := 0x10 + 8 * k
    [(decide (2 < r.u (o + 3) 1), 0x0D01, o + 3), (r.rsv (o + 5) 3, 0x0D01, o + 5)]
  [(n == 0 || decide (6 < n), 0x0D01, 0x01), (bits (r.u 0x02 2) 14 0 != 0, 0x0D01, 0x02), (r.rsv 0x04 12, 0x0D01, 0x04)]
  ++ ((List.range (min 6 n)).map each).flatten ++ [(r.rsv (0x10 + used) (48 - used), 0x0D01, 0x10 + used)]

/-! ### UPD_RECORDS (spec 12, R385, R386, R399) -/

/-- An FP32 record of n elements and one of some classes. -/
def stateRecBad (p : Plan) (i n : Nat) (l : List PClass) : Bool := fp32Bad (p.alloc i) (some n) || classOut (p.alloc i) l

def updRecords (p : Plan) (u : UpdDesc) : List (Bool × Nat × Nat) :=
  let rows := if u.rowLen = 0 then 0 else u.elems / u.rowLen
  let one := match u.rule with
    | .factored => stateRecBad p u.state1Rec rows [.state]
    | _ => stateRecBad p u.state1Rec u.elems [.state]
  let two := match u.rule with
    | .factored => stateRecBad p u.state2Rec (u.ruleShards * u.rowLen) [.state]
    | .adamw => stateRecBad p u.state2Rec u.elems [.state]
    | _ => u.state2Rec != 0xFFFF
  let copy := match p.vset u.versionSet with
    | none => (u.versionSet == 0xFFFF && u.gatherRec != 0xFFFF, u.versionSet == 0xFFFF && u.fullRec != 0xFFFF)
    | some v =>
      let n := ((p.alloc v.slotRec).map (fun (a : Alloc) => a.elems)).getD 0
      (stateRecBad p u.gatherRec u.elems [.scratch], stateRecBad p u.fullRec n [.scratch])
  [(stateRecBad p u.masterRec u.elems [.state], 0x0D02, 0x08), (stateRecBad p u.gradRec u.elems [.scratch, .working], 0x0D02, 0x0A),
   (one, 0x0D02, 0x0C), (two, 0x0D02, 0x0E), (copy.1, 0x0D02, 0x10), (copy.2, 0x0D02, 0x12),
   (byteRecBad (p.alloc u.ctrRec) 16 || classOut (p.alloc u.ctrRec) [.state], 0x0D02, 0x14)]

/-- The ranges of a set's slot records. -/
def Plan.slotSpans (p : Plan) (v : VersionSet) : List Span := ((List.range v.slotCount).map (fun k => p.recSpans (v.slotRec + k))).flatten

/-- A plan write into a slot record other than by refresh. -/
def Plan.slotWritten (p : Plan) (v : VersionSet) : Bool :=
  let slots := p.slotSpans v
  p.rounds.any (fun r =>
    anyMeet (p.groupWrites r) slots
    || (p.worksOf r).any (fun w =>
      let refresh := w.section_ == 0x02 && (match p.woodpile[w.idx]?, p.updateOf r with
        | some e, some u => e.engine == .update && decide (u.2.ruleShards ≤ e.kPart)
        | _, _ => false)
      !refresh && anyMeet w.io.writes slots))

/-! ### UPD_SHARDS (spec 12, R385, R387) -/

def updShards (p : Plan) (u : UpdDesc) (rounds : List RoundHdr) : List (Bool × Nat × Nat) :=
  let total := u.ruleShards + u.refreshShards
  let per := u.shardElems
  let entriesBad (r : RoundHdr) : Bool :=
    let ks := (p.updEntries r).map (fun x => x.1.kPart)
    ks.any (fun k => decide (total ≤ k)) || !(List.range total).all (fun k => (ks.filter (fun x => x == k)).length == 1)
  let refresh := match p.vset u.versionSet with
    | some _ => ceilDiv (p.fullElems u) per
    | none => if u.versionSet = 0xFFFF then 0 else u.refreshShards
  let split := match (p.vset u.versionSet).bind (fun v => p.alloc v.slotRec) with
    | some a => a.fw.fmt == .fp4b && (List.range u.refreshShards).any (fun s => s * per % max 1 a.cols % 32 != 0)
    | none => false
  let fac := u.rule == .factored
  [(per == 0 || decide (4194304 < per) || (fac && (u.rowLen == 0 || per % u.rowLen != 0)) || split, 0x0D03, 0x18),
   (u.ruleShards != ceilDiv u.elems per || rounds.any entriesBad, 0x0D03, 0x1C), (u.refreshShards != refresh, 0x0D03, 0x1E),
   (fac && u.rowLen != 0 && u.elems % u.rowLen != 0, 0x0D03, 0x20)]

/-! ### UPD_GROUP (spec 12, R388) -/

def Plan.group (p : Plan) (id : Nat) : Option GroupRec :=
  p.updates.findSome? (fun x => match x with | .group g => if g.groupId = id then some g else none | _ => none)

/-- FP32 in [0, 1). -/
def betaOk (x : F32) : Bool := stepValueOk x && decide (x.toNat % 2 ^ 31 < 0x3F800000)

def groupFail (before : List UpdRec) (r : ImgRec) (g : GroupRec) : List (Bool × Nat × Nat) :=
  let again := before.any (fun x => match x with | .group b => b.groupId == g.groupId | _ => false)
  [(r.rsv 0x01 1, 0x0D01, 0x01), (r.rsv 0x18 40, 0x0D01, 0x18), (decide (255 < g.groupId) || again, 0x0D04, 0x02),
   (!stepValueOk g.lrMult, 0x0D04, 0x04), (!stepValueOk g.weightDecay, 0x0D04, 0x08), (!betaOk g.beta1, 0x0D04, 0x0C),
   (!betaOk g.beta2, 0x0D04, 0x10), (!stepValueOk g.eps, 0x0D04, 0x14)]

/-- What a rule asks of its group. -/
def updGroup (p : Plan) (u : UpdDesc) : List (Bool × Nat × Nat) :=
  match p.group u.group with
  | none => [(true, 0x0D04, 0x04)]
  | some g =>
    let zero (x : F32) : Bool := x == F32.zero
    [((match u.rule with
      | .sgdm => !zero g.beta2
      | .factored => !zero g.beta1 || !(bits g.eps.toNat 31 31 == 0 && bits g.eps.toNat 30 23 != 0)
      | _ => false), 0x0D04, 0x04)]

/-! ### UPD_GATE, UPD_TIME (spec 12, R390, R396, R397) -/

/-- Steps completed before a round. -/
def Plan.stepOf (p : Plan) (r : RoundHdr) : Nat := ((p.rounds.take r.roundNo).filter (fun x => x.stepEnd)).length

def Plan.finiteOf (p : Plan) (r : RoundHdr) : Option Nat :=
  match p.setOf r with | some s => if s.gateFinite then some s.finiteCollective else none | none => none

/-- An UPDATE entry does not wait behind the round's own NORM_FINITE. -/
def Plan.normUnwaited (p : Plan) (r : RoundHdr) : Bool :=
  match (p.finiteOf r).bind (fun i => (p.collsOf r).find? (fun c => c.1 == i)) with
  | some c =>
    let ws := p.worksOf r
    (p.updEntries r).any (fun e => !behindWork ws (p.collWork c) (ws.length + 1) e.1.waitFlag e.1.waitValue)
  | none => false

def updGate (p : Plan) (rounds : List RoundHdr) : List (Bool × Nat × Nat) :=
  let clash (r : RoundHdr) : Bool :=
    p.rounds.any (fun q => decide (q.roundNo < r.roundNo) && (p.updateOf q).isSome && p.stepOf q == p.stepOf r && p.finiteOf q != p.finiteOf r)
  [(rounds.any (fun r => (p.finiteOf r).isNone || clash r || p.normUnwaited r), 0x0D05, 0x00)]

/-- Busy cycles of shard s (R396). -/
def Plan.updCycles (p : Plan) (u : UpdDesc) (s : Nat) : Nat :=
  if s < u.ruleShards then
    let len := (shardRange s u.shardElems u.elems).2
    if u.rule = .factored then 64 + 2 * ceilDiv len 32 + len / max 1 u.rowLen else 64 + ceilDiv len 32
  else 64 + ceilDiv (shardRange (s - u.ruleShards) u.shardElems (p.fullElems u)).2 64

/-- UPD_TIME: the entry to blame. -/
def updTime (img : Bytes) (p : Plan) (u : UpdDesc) (rounds : List RoundHdr) : Option Fail :=
  rounds.findSome? (fun r => ((p.updEntries r).find? (fun e => p.timeBad e.1 (p.updCycles u e.1.kPart))).map
    (fun e => ⟨0x0E, 0x0D, 0x0D06, recAt img 0x02 e.2 + 0x14⟩))

/-! ### VER_FORMAT, VER_BIND (spec 12, R399, R400) -/

def vsetFail (p : Plan) (r : ImgRec) (v : VersionSet) : List (Bool × Nat × Nat) :=
  let slots := (List.range v.slotCount).map (fun k => p.alloc (v.slotRec + k))
  let unlike (a : Option Alloc) : Bool :=
    match a, p.alloc v.slotRec with
    | some a, some b => a.pclass != .version || a.fmt != b.fmt || a.extent != b.extent || a.stride != b.stride
    | _, _ => true
  let host := slots.any (fun a => onRec a false (fun a => a.space == .host))
  [(r.rsv 0x0C 52, 0x0D01, 0x0C), (host || p.slotWritten v, 0x0D02, 0x02), (decide (v.slotCount < 2) || decide (4 < v.slotCount), 0x0D07, 0x01),
   (slots.any unlike, 0x0D07, 0x02), (decide (v.waitUs < 10) || decide (1000000 < v.waitUs), 0x0D07, 0x08)]

/-- Entries of the record that name no set, no handle of it, or a handle that a round of the record binds before. -/
def bindFail (p : Plan) (es : List VerBind) (i : Nat) (rounds : List RoundHdr) : List (Bool × Nat × Nat) :=
  let earlier (r : RoundHdr) : List VerBind :=
    (((p.chainOf r).filter (fun x => decide (x.1 < i))).map (fun x => match x.2 with | .bind _ l => l | _ => [])).flatten
  (es.zipIdx.map (fun x =>
    let o := 0x10 + 8 * x.2
    let same (b : VerBind) : Bool := b.set == x.1.set && b.handle == x.1.handle
    let n := ((p.vset x.1.set).map (fun v => v.slotCount)).getD 0
    [((p.vset x.1.set).isNone, 0x0D08, o),
     (decide (n ≤ x.1.handle) || (es.take x.2).any same || rounds.any (fun r => (earlier r).any same), 0x0D08, o + 2)])).flatten

/-! ### VER_SIM (spec 12, R404) -/

/-- A pin register that holds a version: its set, slot and serial. -/
structure PinSim where
  pin : Nat
  set : Nat
  slot : Nat
  serial : Nat
  deriving DecidableEq, Repr

/-- The version table of the simulation: sets other than (set, slot 0, serial 0) as (set, slot, serial). -/
structure VerSim where
  current : List (Nat × Nat × Nat)
  pins : List PinSim
  deriving DecidableEq, Repr

def VerSim.start : VerSim := ⟨[], []⟩
def VerSim.cur (t : VerSim) (set : Nat) : Nat × Nat := ((t.current.find? (fun x => x.1 == set)).map (fun x => x.2)).getD (0, 0)
def VerSim.held (t : VerSim) (pin : Nat) : Option PinSim := t.pins.find? (fun x => x.pin == pin)

/-- A binding that the table refuses; `before` are the round's bindings ahead of it. -/
def VerSim.refuses (t : VerSim) (before : List VerBind) (b : VerBind) : Bool :=
  let again (a : PinAction) : Bool := before.any (fun x => x.pin == b.pin && x.action == a)
  match b.action with
  | .pin => (t.held b.pin).isSome || again .pin
  | a => (match t.held b.pin with | some x => x.set != b.set | none => true) || again .release || (a == .release && again .use)

/-- The target slot of an update. -/
def VerSim.target (t : VerSim) (set : Nat) (v : VersionSet) : Option Nat :=
  (List.range v.slotCount).find? (fun k => k != (t.cur set).1 && !t.pins.any (fun x => x.set == set && x.slot == k))

/-- A round: the record that fails, or the table after settle. -/
def VerSim.round (t : VerSim) (p : Plan) (r : RoundHdr) : Nat ⊕ VerSim :=
  let bs := ((p.chainOf r).map (fun x => match x.2 with | .bind _ l => l.map (fun b => (x.1, b)) | _ => [])).flatten
  match bs.zipIdx.find? (fun x => t.refuses ((bs.take x.2).map (fun y => y.2)) x.1.2) with
  | some x => .inl x.1.1
  | none =>
    let pins := bs.foldl (fun (l : List PinSim) (x : Nat × VerBind) =>
      match x.2.action with
      | .pin => ⟨x.2.pin, x.2.set, (t.cur x.2.set).1, (t.cur x.2.set).2⟩ :: l
      | .release => l.filter (fun y => y.pin != x.2.pin)
      | .use => l) t.pins
    match p.updateOf r, p.updSet r with
    | some u, some (set, v) =>
      match t.target set v with
      | some k => .inr ⟨(set, k, (t.cur set).2 + 1) :: t.current.filter (fun x => x.1 != set), pins⟩
      | none => .inl u.1
    | _, _ => .inr { t with pins := pins }

def VerSim.rounds (p : Plan) : List RoundHdr → VerSim → Nat ⊕ VerSim
  | [], t => .inr t
  | r :: l, t =>
    match t.round p r with
    | .inl i => .inl i
    | .inr t => VerSim.rounds p l t

/-- The pins by register: set, and how many versions behind the current one. -/
def VerSim.occupancy (t : VerSim) : List (Option (Nat × Nat)) :=
  (List.range 256).map (fun k => (t.held k).map (fun x => (x.set, (t.cur x.set).2 - x.serial)))

/-- The record that the simulation blames: the prologue, two passes of the body, and equal occupancy after both. -/
def Plan.versionSim (p : Plan) : Option Nat :=
  let body := p.rounds.drop p.bodyStart
  match VerSim.rounds p (p.rounds.take p.bodyStart) .start with
  | .inl i => some i
  | .inr t =>
    match VerSim.rounds p body t with
    | .inl i => some i
    | .inr t1 =>
      match VerSim.rounds p body t1 with
      | .inl i => some i
      | .inr t2 =>
        if t1.occupancy = t2.occupancy then none
        else some (p.updates.findIdx (fun x => match x with | .bind _ _ => true | _ => false))

/-! ### The section -/

def updFail (img : Bytes) (p : Plan) (r : ImgRec) (i : Nat) : Option Fail :=
  let rounds := p.roundsOfUpd i
  let chain := (p.chainBad i, 0x0D01, 0x00)
  match r.u 0 1, parseUpdRec r with
  | 1, .update u =>
    match r.failsSub 0x0D (chain :: updFormat r u ++ updRecords p u ++ updShards p u rounds ++ updGroup p u ++ updGate p rounds) with
    | some f => some f
    | none =>
      match updTime img p u rounds with
      | some f => some f
      | none => r.failsSub 0x0D [(u.versionSet != 0xFFFF && (p.vset u.versionSet).isNone, 0x0D08, 0x06)]
  | 2, .group g => r.failsSub 0x0D (chain :: groupFail (p.updates.take i) r g)
  | 3, .vset v => r.failsSub 0x0D (chain :: vsetFail p r v)
  | 4, .bind _ es => r.failsSub 0x0D (chain :: bindFormat r ++ bindFail p es i rounds)
  | _, _ => some ⟨0x0E, 0x0D, 0x0D01, r.off⟩

def updatesFail (img : Bytes) (p : Plan) : Option Fail :=
  match (recsI img 0x0D).findSome? (fun x => updFail img p x.1 x.2) with
  | some f => some f
  | none =>
    let stray := p.rounds.findSome? (fun r => if (p.updateOf r).isNone then ((p.updEntries r).head?).map (fun e => e.2) else none)
    match stray with
    | some i => some ⟨0x0E, 0x0D, 0x0D03, recAt img 0x02 i + 0x08⟩
    | none => (p.versionSim).map (fun i => ⟨0x0E, 0x0D, 0x0D09, recAt img 0x0D i⟩)

end Sys2Proof.Machine
end

