-- ==== Sys2Proof/Machine/ValidateTests.lean ====
section
/-! DEFINITION. Validation of TEST_WINDOWS: fail_section 0x0E (spec 13, R418, R428, R435). -/
namespace Sys2Proof.Machine

def Plan.roundsOfTest (p : Plan) (i : Nat) : List RoundHdr := p.rounds.filter (fun r => (p.testsOf r).any (fun x => x.1 == i))

def TestRec.isLast : TestRec → Bool
  | .window l _ _ _ _ => l
  | .digest l _ _ => l

/-- A chain starts at record i and no record from there on ends it. -/
def Plan.openTests (p : Plan) (i : Nat) : Bool :=
  p.rounds.any (fun r => r.testWindow == i) && !(p.tests.drop i).any TestRec.isLast

/-- Two windows have a core and a moment in common. -/
def windowsMeet (s n c : Nat) : TestRec → Bool
  | .window _ _ s2 n2 c2 => c &&& c2 != 0 && Span.meets ⟨s, s + n⟩ ⟨s2, s2 + n2⟩
  | .digest _ _ _ => false

def windowFail (p : Plan) (r : ImgRec) (i kinds start len cores : Nat) : List (Bool × Nat × Nat) :=
  let rounds := p.roundsOfTest i
  let meets := rounds.any (fun q => (p.testsOf q).any (fun x => decide (x.1 < i) && windowsMeet start len cores x.2))
  [(bits kinds 7 5 != 0, 0x0E01, 0x01), (bits (r.u 0x02 2) 14 0 != 0 || p.openTests i, 0x0E01, 0x02), (r.rsv 0x0D 19, 0x0E01, 0x0D),
   (meets, 0x0E02, 0x04), (decide (len < 20000) || decide (10000000 < len) || rounds.any (fun q => decide (q.budgetNs < start + len)), 0x0E02, 0x08)]

/-- The start_flag of the digest's collective counts the done_flag of every rule shard. -/
def Plan.countsShards (p : Plan) (r : RoundHdr) (u : UpdDesc) (c : Coll) : Bool :=
  let ws := p.worksOf r
  (p.updEntries r).all (fun e => decide (u.ruleShards ≤ e.1.kPart)
    || (e.1.doneFlag == c.startFlag && c.startFlag != 0xFFFF && decide (incsOf ws c.startFlag < c.startValue + 1) && decide (c.startValue < 2 ^ 31)))

def digestFail (p : Plan) (r : ImgRec) (i collective updateIndex : Nat) : List (Bool × Nat × Nat) :=
  let rounds := p.roundsOfTest i
  let second := rounds.any (fun q => (p.testsOf q).any (fun x => decide (x.1 < i) && (match x.2 with | .digest _ _ _ => true | _ => false)))
  let collBad := match p.colls[collective]? with
    | some c =>
      let l := p.members c.memberSet
      c.op != .allGather || c.shardElems != 896 || classOut (p.alloc c.srcRec) [.scratch] || classOut (p.alloc c.dstRec) [.scratch]
        || decide (l.length < 2) || decide (8 < l.length)
        || rounds.any (fun q => l.any (fun x => !(p.settlers q).contains x) || !(p.collsOf q).any (fun x => x.1 == collective)
            || (match p.updateOf q with | some u => !p.countsShards q u.2 c | none => false))
    | none => true
  let updBad := rounds.any (fun q => (p.updateOf q).map (fun u => u.1) != some updateIndex)
  let gateBad := rounds.any (fun q => match p.setOf q with | some s => !s.gateDigest | none => false)
  [(r.rsv 0x01 1, 0x0E01, 0x01), (bits (r.u 0x02 2) 14 0 != 0 || p.openTests i, 0x0E01, 0x02), (r.rsv 0x0C 20, 0x0E01, 0x0C),
   (second, 0x0E03, 0x00), (collBad, 0x0E03, 0x04), (updBad, 0x0E03, 0x08), (gateBad, 0x0E04, 0x00)]

def testFail (p : Plan) (r : ImgRec) (i : Nat) : Option Fail :=
  match r.u 0 1, parseTestRec r with
  | 1, .window _ kinds start len cores => r.failsSub 0x0E (windowFail p r i kinds start len cores)
  | 2, .digest _ c u => r.failsSub 0x0E (digestFail p r i c u)
  | _, _ => some ⟨0x0E, 0x0E, 0x0E01, r.off⟩

def testsFail (img : Bytes) (p : Plan) : Option Fail :=
  match (recsI img 0x0E).findSome? (fun x => testFail p x.1 x.2) with
  | some f => some f
  | none =>
    ((recs img 0x01).find? (fun r =>
      let h := parseRound r
      (match p.setOf h with | some s => s.gateDigest | none => false) && (p.digestOf h).isNone)).map
      (fun r => ⟨0x0E, 0x0E, 0x0E04, r.off + 0x1A⟩)

end Sys2Proof.Machine
end

