-- ==== Sys2Proof/Machine/PlanLoad.lean ====
section
/-! DEFINITION. PLAN_LOAD and host errors (spec 03, R90, R91, R93, R111; spec 05, R151; spec 15, R462). -/
namespace Sys2Proof.Machine

/-! ### Validation (spec 03, R111) -/

/-- Checks 0x01 to 0x0E over an image as copied, in order; none when it passes. -/
def Mod.imageFail (m : Mod) (img : Bytes) : Option Fail :=
  let p := parsePlan img
  let area := m.hbm.planArea
  let steps : List (Unit → Option Fail) :=
    [fun _ => headerFail img,
     fun _ => if area.hi - area.lo < imgSize img then some ⟨0x0D, 0, 0, 0x0C⟩ else none,
     fun _ => directoryFail img, fun _ => limitsFail img p m.ctl.generation.toNat, fun _ => roundsFail img p, fun _ => entriesFail img p,
     fun _ => formatFail img p, fun _ => outputFail img p, fun _ => combineFail img p, fun _ => orderFail img p, fun _ => budgetFail img p,
     fun _ => barriersFail img p, fun _ => resourceFail img p, fun _ => itemsFail img p, fun _ => tensorsFail img m.hbm p,
     fun _ => m.streamsFail img p, fun _ => setsFail img m.hbm p, fun _ => slotsFail img p, fun _ => detoursFail img p,
     fun _ => routesFail img m.hbm p, fun _ => collsFail img p, fun _ => updatesFail img p, fun _ => testsFail img p]
  steps.findSome? (fun f => f ())

/-- The completion's result (spec 15, R486). -/
def Fail.result (f : Fail) : Bytes := [BitVec.ofNat 8 f.check, 0] ++ leBytes 2 f.section_ ++ leBytes 4 f.sub ++ leBytes 8 f.offset

/-! ### PLAN_LOAD -/

/-- Bytes that the command's buffer must cover; the header's 64 bytes at the least. -/
def Mod.imageLength (m : Mod) (header : Bytes) : Nat :=
  let area := m.hbm.planArea
  if area.hi - area.lo < imgSize header then 64 else max 64 (imgSize header)

/-- PLAN_LOAD (spec 03, R91, R93): the header's read, then LOADING. -/
def execPlanLoad (h : Cmd) (header : HostRead) (s : State) : Out :=
  .next (runCmd h
    { opcode := Op.planLoad, ownerOnly := true,
      params := fun m =>
        let len := match header with | .data bs => m.imageLength bs | .error => 64
        if m.bufferOk h len false then none else some Detail.badParam,
      run := fun m =>
        if m.ctl.state ≠ .ready ∨ ¬ (m.plan.st = .none ∨ m.plan.st = .failed) ∨ m.ctl.refLost then Ans.rejected m Detail.badState
        else match header with
          | .error => ⟨Cls.faulted, Detail.hostError, [], m⟩
          | .data bs => Ans.accepted { m with plan := { PlanCtl.reset with
              st := .loading, loading := some ⟨h.port, h.tag⟩, header := fitBytes 64 bs,
              opened := m.plan.opened, settled := m.plan.settled, stepSerial := m.plan.stepSerial,
              worstRun := m.plan.worstRun, worstRound := m.plan.worstRound, unload := m.plan.unload } } } s)

/-- The copy and the validation end: the image stands in the plan area with its measurement; an image that the area cannot hold is
not copied (spec 05, R151). -/
def Mod.planLoaded (m : Mod) (t : Ticket) (image : Bytes) : Mod :=
  let area := m.hbm.planArea
  let fits := decide (imgSize m.plan.header ≤ area.hi - area.lo)
  let img := if fits then fitBytes (m.imageLength m.plan.header) image else m.plan.header
  let m := if fits then m.wr area.lo img else m
  let base := { m.plan with loading := none, header := img.take 64, measurement := if fits then digest64 img else [] }
  match m.imageFail img with
  | some f =>
    ({ m with plan := { base with
        st := .failed, failCheck := f.check, failSection := f.section_, failSub := f.sub, failOffset := f.offset } }).complete
      t Op.planLoad Cls.rejected Detail.validationFail f.result
  | none =>
    let p := parsePlan img
    ({ m with plan := { base with st := .loaded, plan := some p, deferred := p.deferredExtents } }).complete
      t Op.planLoad Cls.ok Detail.none (zeros 16)

/-- PLAN_LOAD_COMPLETE (spec 03, R93): `image` is what the host memory gave. -/
def execPlanLoadComplete (image : Bytes) (s : State) : Out :=
  .next (s.event (fun m => match m.plan.loading with | some t => m.planLoaded t image | none => m))

/-! ### Host errors (spec 15, R462) -/

/-- A read of host memory fails: a copy ends; a stream stops its accesses until STREAM_HOLD fixes its resume index. A firmware slot
that the copy has begun to overwrite holds no image that R515 passes (spec 17, R517). -/
def Mod.hostError (m : Mod) (reader : HostReader) : Mod :=
  let faulted (m : Mod) (t : Ticket) (op : Nat) : Mod := m.complete t op Cls.faulted Detail.hostError []
  match reader with
  | .planImage =>
    match m.plan.loading with
    | some t => faulted { m with plan := { m.plan with st := .failed, failCheck := 0, loading := none } } t Op.planLoad
    | none => m
  | .firmware =>
    match m.fw.staging with
    | some t => faulted { m with fw := { (m.fw.setOther Slot.blank) with staged := false, staging := none } } t Op.fwStage
    | none => m
  | .package =>
    match m.tests.install with
    | some t => faulted { m with tests := { m.tests with install := none } } t.1 Op.patternInstall
    | none => m
  | .relight =>
    match m.bank.relight with
    | some r => if r.source = 1 then m.relightEnds r Cls.faulted Detail.hostError else m
    | none => m
  | .stream handle _ =>
    match m.ctx handle with
    | some c => if c.st = .active ∧ c.desc.srcHost ∧ c.cause = 0 then m.setCtx handle (some { c with cause := 3 }) else m
    | none => m

/-- HOST_ERROR (spec 15, R462). -/
def execHostError (reader : HostReader) (s : State) : Out := .next (s.event (fun m => m.hostError reader))

end Sys2Proof.Machine
end

