-- ==== Sys2Proof/Machine/Poison.lean ====
section
/-! DEFINITION. Poisoned reads (spec 05, R154, R155, R157; spec 03, R109; spec 06, R203; spec 14, R449, R452, R455). -/
namespace Sys2Proof.Machine

/-- A poisoned line of a core pool (spec 05, R157): a FENCE record of cause POISON (spec 13, R410). -/
def Mod.poolPoison (m : Mod) : Mod :=
  m.reportFault { cls := Rec.fence, attn := Attn.fault, detail := Detail.sramUncorrected, scope := Scope.outOfBound,
                  payload := fencePayload 0xFFFF 6 0 0 }

/-- An item met a poisoned codeword (spec 05, R154): it goes back; ember output that had left, or a second read of the codeword
in the attempt, marks the round. -/
def Mod.itemPoison (m : Mod) (n cw : Nat) : Mod :=
  let e := m.ent n
  if m.run.phase = .run ∧ (e.st = .running ∨ e.st = .rerun) then
    let again := decide (cw ∈ m.run.poisonHits)
    let m := (m.returnEntry n)
    let m := { m with run := { m.run with poisonHits := m.run.poisonHits ++ [cw] } }
    if again ∨ e.signalled then m.markDouse Douse.fence else m
  else m

/-- The image update ends (spec 14, R449). -/
def Mod.updatePoison (m : Mod) : Mod := (m.endUpdate 5 true).tryOpen

/-- A served image ends (spec 14, R452, R455): ACK POISON to the module that pulls it, the completion of a BANK_SERVE. -/
def Mod.servePoison (m : Mod) : Mod :=
  let nack (m : Mod) (dst : Nat) (step : Word) : Mod := m.send (.ack dst .poison 0 step.toNat 0)
  match m.bank.pulled, m.bank.serves.find? (fun x => x.active) with
  | some p, _ => nack { m with bank := { m.bank with pulled := none } } p.1 (m.bank.held p.2).step
  | none, some x =>
    let m := if x.target = 0xFFFF then m else nack m x.target x.step
    (m.dropServe x).complete x.ticket Op.bankServe Cls.faulted Detail.bankPoison []
  | none, none => m

/-- What the reader does with poison. -/
def Mod.readerPoison (m : Mod) (reader : PoisonReader) (cw : Nat) : Mod :=
  match reader with
  | .item n => m.itemPoison n cw
  | .combine _ => m.markDouse Douse.fence
  | .planStream _ => m.markDouse Douse.fence
  | .context h p => m.streamHold h .poison p []
  | .bankUpdate => m.updatePoison
  | .bankServe => m.servePoison

/-- A codeword of HBM is read: a corrected symbol is counted; two or more, or a codeword that is poisoned already, reach the
reader as poison. -/
def Mod.hbmRead (m : Mod) (a : Nat) (symbols : List Nat) (reader : PoisonReader) : Mod :=
  let cw := a / 64 * 64
  let seen := if 2 ≤ symbols.length then symbols else SMap.get [] m.hbm.poison cw
  if seen = [] then (if symbols = [] then m else m.corrected a symbols)
  else ((m.setPoison a seen).poisonMet a seen).readerPoison reader cw

/-- A line of a core pool with an uncorrectable word is read. -/
def Mod.poolRead (m : Mod) (a : Nat) (symbols : List Nat) (reader : PoisonReader) : Mod :=
  ((m.setPoison a symbols).poolPoison).readerPoison reader (a / 64 * 64)

/-- HBM_POISON_READ (spec 05, R154). An address outside HBM and the core pools has no codeword. -/
def execHbmPoisonRead (address : Nat) (symbols : List Nat) (reader : PoisonReader) (s : State) : Out :=
  if address < hbmEnd then
    .next (s.event (fun m =>
      if !m.dataPlane ∨ (m.stack (m.hbm.decode address).1).ps ≠ 2 then m else m.hbmRead address symbols reader))
  else if (List.range 8).any (fun c => decide (poolBase c ≤ address) && decide (address < poolBase c + poolSize)) then
    .next (s.event (fun m => if m.dataPlane then m.poolRead address symbols reader else m))
  else .fault .unmappedAccess

end Sys2Proof.Machine
end

