-- ==== Sys2Proof/Machine/Registers.lean ====
section
/-! DEFINITION. The port register writes (spec 15, R464 to R469). While the port's link or the module is off nothing is
there to write to (spec 15, R485). While enable is 0 the values of CMD_DOORBELL and REPLY_CONSUMED are stored without
the range test, since R465 has the host write them before it sets enable (assumption log 9). -/
namespace Sys2Proof.Machine

/-- Whether the register block of a port can be written: the module is not OFF and the link is on. -/
def State.serves (s : State) (port : Nat) : Bool :=
  decide (port < 2) && s.m.ctl.state != .off && (if port = 0 then s.m.link0.on else s.m.link1.on)

/-- A change of one port's registers. -/
def State.setPort (s : State) (port : Nat) (x : Port) : State := { s with io := s.io.setPort port x }

/-- A value out of range (spec 15, R467, R469): counted, ATTN_LOG on that port. -/
def State.badSerial (s : State) (port : Nat) : State :=
  s.event (fun m => (m.attentionAt port Attn.log).count Cnt.doorbellBad 1)

/-- CMD_DOORBELL (spec 15, R467). -/
def execCmdDoorbell (port : Nat) (value : Word) (s : State) : Out :=
  .next (
    if s.serves port then
      let x := s.io.port port
      if !x.enable || x.doorbellOk value then s.setPort port { x with producer := value }
      else s.badSerial port
    else s)

/-- RING_CTRL with enable 1 (spec 15, R465). Nothing while enable is already 1. -/
def execRingEnable (port : Nat) (s : State) : Out :=
  .next (
    if s.serves port then
      let x := s.io.port port
      if x.enable then s else s.setPort port x.start
    else s)

/-- RING_CTRL with enable 0 (spec 15, R465): owed completions are dropped and counted. -/
def execRingDisable (port : Nat) (s : State) : Out :=
  .next (
    if s.serves port then
      s.event (fun m => { m with out := { m.out with ringsOff := m.out.ringsOff ++ [port] } })
    else s)

/-- REPLY_CONSUMED (spec 15, R469). A bad value is ignored and counted; R478 names CNT_DOORBELL_BAD events as sources of
ATTN_LOG. -/
def execReplyConsumed (port : Nat) (value : Word) (s : State) : Out :=
  .next (
    if s.serves port then
      let x := s.io.port port
      if !x.enable || x.replyConsumedOk value then s.setPort port { x with replyConsumed := value }
      else s.badSerial port
    else s)

/-- A write to any other offset (spec 15, R464, R465; spec 00, R21): the ring bases take it while the rings do not run;
read-only, unlisted and reserved offsets ignore it. The four offsets with a row of their own are not written here. -/
def execRegisterWrite (port offset : Nat) (value : Dword) (s : State) : Out :=
  .next (
    if s.serves port then
      let x := s.io.port port
      if x.running then s
      else if offset = 0x08 then s.setPort port { x with cmdBase := value }
      else if offset = 0x10 then s.setPort port { x with replyBase := value }
      else s
    else s)

end Sys2Proof.Machine
end

