-- ==== Sys2Proof/Machine/Sideband.lean ====
section
/-! DEFINITION. The I3C Basic sideband (spec 18, R552, R553) and the bench readout (R551). -/
namespace Sys2Proof.Machine

/-- Packet bytes that an opcode's parameters use, as (offset, size) (spec 15, R486; the chapters it names). -/
def paramFields (op : Nat) : List (Nat × Nat) :=
  if op = Op.attnAck then [(8, 1)]
  else if op = Op.counterRead then [(8, 5)]
  else if op = Op.pstateSet then [(8, 4)]
  else if op = Op.oppointRead ∨ op = Op.testWindowForce ∨ op = Op.marginTestRun ∨ op = Op.kindlingEnter
    ∨ op = Op.kindlingExit ∨ op = Op.bankNow then [(8, 1)]
  else if op = Op.regionRegister then [(8, 3), (0x10, 16)]
  else if op = Op.regionRevoke ∨ op = Op.regionQuery ∨ op = Op.digestPolicySet ∨ op = Op.unitEnable
    ∨ op = Op.channelDisable then [(8, 2)]
  else if op = Op.hbmPartition then [(8, 6)]
  else if op = Op.streamArm then [(8, 4), (0x10, 16)]
  else if op = Op.streamResume ∨ op = Op.streamRetire then [(8, 4)]
  else if op = Op.stepBegin then [(8, 16)]
  else if op = Op.groupSet then [(8, 2), (0xC, 8)]
  else if op = Op.snapshotExport ∨ op = Op.unitDisable then [(8, 3)]
  else if op = Op.bankConfigure then [(8, 5), (0x10, 8)]
  else if op = Op.relight then [(8, 1), (0xC, 12)]
  else if op = Op.bankServe then [(8, 2), (0xC, 6)]
  else if op = Op.faultLogRead then [(8, 6)]
  else if op = Op.fabricConfigure then [(8, 18)]
  else if op = Op.attestQuote then [(8, 32)]
  else if op = Op.ashRead then [(8, 8)]
  else if op = Op.ashNote then [(8, 40)]
  else if op = Op.diagRun then [(8, 4)]
  else []

/-- The reserved bytes of a packet that are not zero (spec 15, R472; spec 00, R20): 1 for some, 0 for none. -/
def packetRsv (p : Bytes) : Dword :=
  let used := paramFields (fieldAt p 0 2)
  let bad := (List.range 0x2E).any (fun i =>
    (slice p (8 + i) 1) != [0] && !used.any (fun f => decide (f.1 ≤ 8 + i) && decide (8 + i < f.1 + f.2)))
  if bad || !allZero (slice p 2 2) then 1 else 0

/-- A packet of the sideband as a command (spec 15, R472). -/
def sideCmd (p : Bytes) : Cmd :=
  ⟨2, BitVec.ofNat 32 (fieldAt p 4 4), packetRsv p, BitVec.ofNat 16 (fieldAt p 0x36 2),
   BitVec.ofNat 64 (fieldAt p 0x38 8)⟩

/-- The commands that the sideband accepts (spec 18, R553); any other known opcode is refused with NOT_OWNER. -/
def sideSpec (h : Cmd) (p : Bytes) : CmdSpec :=
  let op := fieldAt p 0 2
  if op = Op.nop then nopSpec h
  else if op = Op.identify then identifySpec h
  else if op = Op.statusRead then statusReadSpec h
  else if op = Op.counterRead then
    counterReadSpec h (BitVec.ofNat 16 (fieldAt p 8 2)) (BitVec.ofNat 16 (fieldAt p 0xA 2)) (BitVec.ofNat 8 (fieldAt p 0xC 1))
  else if op = Op.pstateQuery then pstateQuerySpec h
  else if op = Op.oppointRead then oppointReadSpec h (BitVec.ofNat 8 (fieldAt p 8 1))
  else if op = Op.railStatus then railStatusSpec h
  else if op = Op.faultLogRead then
    faultLogReadSpec h (BitVec.ofNat 32 (fieldAt p 8 4)) (BitVec.ofNat 16 (fieldAt p 0xC 2))
  else if op = Op.ashRead then ashReadSpec h (BitVec.ofNat 32 (fieldAt p 8 4)) (BitVec.ofNat 32 (fieldAt p 0xC 4))
  else if op = Op.ashStatus then ashStatusSpec h
  else if op = Op.identityRead then identityReadSpec h
  else { opcode := op, ownerOnly := true, params := fun _ => none, run := fun m => Ans.rejected m Detail.notOwner }

/-- What a sideband packet answers (spec 15, R474, check 1; spec 18, R553). -/
def Mod.sideJudge (m : Mod) (p : Bytes) : Ans :=
  let h := sideCmd p
  if Op.known (fieldAt p 0 2) then (sideSpec h p).judge h m else Ans.rejected m Detail.badOpcode

/-- A sideband command runs (spec 18, R553): its reply carries the OR of both attention bytes and the sideband's own
serial. -/
def State.sideCommand (s : State) (p : Bytes) : State :=
  let a := s.m.fresh.sideJudge p
  let io := s.io.attend a.m.out
  let serial := a.m.side.serial + 1
  let bs := replyBytes serial (BitVec.ofNat 32 (fieldAt p 4 4)) (io.p0.attn ||| io.p1.attn) a.cls a.detail
    (fieldAt p 0 2) 0 a.result
  let m := { a.m with side := { a.m.side with reply := bs, serial := serial }, out := Outbox.empty }
  { s with io := io, m := if a.cls = Cls.rejected then m.count Cnt.cmdRejected 1 else m }

/-- SIDEBAND_COMMAND (spec 18, R553). While the hearth controller is down nothing runs. -/
def execSidebandCommand (packet : Bytes) (s : State) : Out :=
  .next (if s.powered && s.m.ctl.restart.isNone then s.sideCommand packet else s)

/-- A change of what the I3C target holds while the standby supply is up (spec 18, R552). -/
def State.i3c (s : State) (f : Side → Side) : State :=
  if s.powered then { s with m := { s.m with side := f s.m.side } } else s

/-- SIDEBAND_BUFFER_READ (spec 18, R553): at most 20,480 bytes from the offset on. -/
def execSidebandBufferRead (offset : Half) (length : Nat) (s : State) : Out :=
  .next (s.i3c (fun x =>
    { x with offset := offset.toNat,
             i3cOut := ((fitBytes 20480 x.buffer).drop offset.toNat).take (min length 20480) }))

/-- ENTDAA (spec 18, R552). -/
def execEntdaa (address : Nat) (s : State) : Out := .next (s.i3c (fun x => { x with dynAddr := some address }))

/-- SETDASA (spec 18, R552). -/
def execSetdasa (address : Nat) (s : State) : Out := .next (s.i3c (fun x => { x with dynAddr := some address }))

/-- The static address (spec 18, R552). -/
def staticAddr : Nat := 0x50 + Config.position % 8

/-- SETAASA (spec 18, R552). -/
def execSetaasa (s : State) : Out := .next (s.i3c (fun x => { x with dynAddr := some staticAddr }))

/-- RSTDAA (spec 18, R552). -/
def execRstdaa (s : State) : Out := .next (s.i3c (fun x => { x with dynAddr := none }))

/-- The common commands that return a characteristic (spec 18, R552) put a free constant on the bus: the spec names
them and gives no value (assumption log 3). -/
def execGetpid (s : State) : Out := .next (s.i3c (fun x => { x with i3cOut := Config.i3cAnswer 0 }))
def execGetbcr (s : State) : Out := .next (s.i3c (fun x => { x with i3cOut := Config.i3cAnswer 1 }))
def execGetdcr (s : State) : Out := .next (s.i3c (fun x => { x with i3cOut := Config.i3cAnswer 2 }))
def execGetstatus (s : State) : Out := .next (s.i3c (fun x => { x with i3cOut := Config.i3cAnswer 3 }))
def execGetmwl (s : State) : Out := .next (s.i3c (fun x => { x with i3cOut := Config.i3cAnswer 4 }))
def execGetmrl (s : State) : Out := .next (s.i3c (fun x => { x with i3cOut := Config.i3cAnswer 5 }))

/-! ### Bench (spec 18, R551) -/

/-- Byte of the ash MRAM. -/
def Ash.byte (a : Ash) (addr : Nat) : Byte :=
  ((fitBytes 64 (SMap.get [] a.slots (addr / 64 % ashSlots))).drop (addr % 64)).headD 0

/-- What the bench port shifts out, and the session flag of R550. -/
def State.bench (s : State) (bs : Bytes) : State :=
  { s with m := { s.m with side := { s.m.side with benchOut := bs }, ash := { s.m.ash with bench := true } } }

/-- BENCH_READ (spec 18, R551): an address with bits [31:26] set is no command that the module answers; while the
standby supply is up SVC_MISO stays low. -/
def execBenchRead (address : Word) (length : Nat) (s : State) : Out :=
  .next (
    if 2 ^ 26 ≤ address.toNat then s
    else if s.powered then s.bench (zeros length)
    else s.bench ((List.range length).map (fun i => s.m.ash.byte (address.toNat + i))))

/-- BENCH_STATUS_READ (spec 18, R551). -/
def execBenchStatusRead (s : State) : Out := .next (s.bench (if s.powered then [0] else [1]))

end Sys2Proof.Machine
end

