-- ==== Sys2Proof/Machine/Dispatch.lean ====
section
/-! DEFINITION. The dispatch: one arm per command, each one call of its meaning. -/
namespace Sys2Proof.Machine

def exec (i : Instr) (s : State) : Host.Outcome State Fault Refusal :=
  match i with
  | .nop h => Sys2Proof.Machine.execNop h s
  | .identify h => Sys2Proof.Machine.execIdentify h s
  | .statusRead h => Sys2Proof.Machine.execStatusRead h s
  | .attnAck h mask => Sys2Proof.Machine.execAttnAck h mask s
  | .ownerClaim h => Sys2Proof.Machine.execOwnerClaim h s
  | .ownerYield h => Sys2Proof.Machine.execOwnerYield h s
  | .counterRead h firstId count flags => Sys2Proof.Machine.execCounterRead h firstId count flags s
  | .moduleReset h => Sys2Proof.Machine.execModuleReset h s
  | .moduleResetComplete => Sys2Proof.Machine.execModuleResetComplete s
  | .distanceRead h => Sys2Proof.Machine.execDistanceRead h s
  | .pstateSet h kind index state opPoint => Sys2Proof.Machine.execPstateSet h kind index state opPoint s
  | .pstateChangeComplete kind index => Sys2Proof.Machine.execPstateChangeComplete kind index s
  | .pstateQuery h => Sys2Proof.Machine.execPstateQuery h s
  | .oppointRead h core => Sys2Proof.Machine.execOppointRead h core s
  | .railStatus h => Sys2Proof.Machine.execRailStatus h s
  | .regionRegister h id access base size => Sys2Proof.Machine.execRegionRegister h id access base size s
  | .regionRevoke h id => Sys2Proof.Machine.execRegionRevoke h id s
  | .regionRevokeComplete id => Sys2Proof.Machine.execRegionRevokeComplete id s
  | .regionQuery h id => Sys2Proof.Machine.execRegionQuery h id s
  | .hbmPartition h wide planGib settleGib bankGib => Sys2Proof.Machine.execHbmPartition h wide planGib settleGib bankGib s
  | .hbmPartitionComplete => Sys2Proof.Machine.execHbmPartitionComplete s
  | .planLoad h header => Sys2Proof.Machine.execPlanLoad h header s
  | .planLoadComplete image => Sys2Proof.Machine.execPlanLoadComplete image s
  | .planReport h => Sys2Proof.Machine.execPlanReport h s
  | .planStart h => Sys2Proof.Machine.execPlanStart h s
  | .planHalt h => Sys2Proof.Machine.execPlanHalt h s
  | .planResume h => Sys2Proof.Machine.execPlanResume h s
  | .planUnload h => Sys2Proof.Machine.execPlanUnload h s
  | .planUnloadComplete => Sys2Proof.Machine.execPlanUnloadComplete s
  | .streamCreate h desc => Sys2Proof.Machine.execStreamCreate h desc s
  | .streamArm h handle src dst => Sys2Proof.Machine.execStreamArm h handle src dst s
  | .commandStreamComplete handle data => Sys2Proof.Machine.execCommandStreamComplete handle data s
  | .streamResume h handle => Sys2Proof.Machine.execStreamResume h handle s
  | .streamRetire h handle => Sys2Proof.Machine.execStreamRetire h handle s
  | .stepBegin h step baseLr clipNorm stepFlags => Sys2Proof.Machine.execStepBegin h step baseLr clipNorm stepFlags s
  | .groupSet h id lrMult weightDecay => Sys2Proof.Machine.execGroupSet h id lrMult weightDecay s
  | .stepStatus h => Sys2Proof.Machine.execStepStatus h s
  | .snapshotExport h set mode => Sys2Proof.Machine.execSnapshotExport h set mode s
  | .snapshotExportComplete handle => Sys2Proof.Machine.execSnapshotExportComplete handle s
  | .bankConfigure h interval slots snapGib pairs p0a p0b p1a p1b => Sys2Proof.Machine.execBankConfigure h interval slots snapGib pairs p0a p0b p1a p1b s
  | .bankNow h mask => Sys2Proof.Machine.execBankNow h mask s
  | .bankStatus h => Sys2Proof.Machine.execBankStatus h s
  | .relight h source step owner holder r0 r1 => Sys2Proof.Machine.execRelight h source step owner holder r0 r1 s
  | .relightComplete data => Sys2Proof.Machine.execRelightComplete data s
  | .relightStallTimeout => Sys2Proof.Machine.execRelightStallTimeout s
  | .bankServe h owner step target => Sys2Proof.Machine.execBankServe h owner step target s
  | .bankServeComplete => Sys2Proof.Machine.execBankServeComplete s
  | .bankGrantExpiry => Sys2Proof.Machine.execBankGrantExpiry s
  | .testWindowForce h core => Sys2Proof.Machine.execTestWindowForce h core s
  | .forcedTestComplete core results => Sys2Proof.Machine.execForcedTestComplete core results s
  | .patternInstall h package => Sys2Proof.Machine.execPatternInstall h package s
  | .patternInstallComplete => Sys2Proof.Machine.execPatternInstallComplete s
  | .testResultRead h => Sys2Proof.Machine.execTestResultRead h s
  | .marginTestRun h core => Sys2Proof.Machine.execMarginTestRun h core s
  | .marginTestComplete core results => Sys2Proof.Machine.execMarginTestComplete core results s
  | .digestPolicySet h interval => Sys2Proof.Machine.execDigestPolicySet h interval s
  | .unitDisable h unit mode => Sys2Proof.Machine.execUnitDisable h unit mode s
  | .unitDrainComplete unit => Sys2Proof.Machine.execUnitDrainComplete unit s
  | .unitEnable h unit => Sys2Proof.Machine.execUnitEnable h unit s
  | .unitEnableTestComplete unit pass => Sys2Proof.Machine.execUnitEnableTestComplete unit pass s
  | .faultLogRead h first maxCount => Sys2Proof.Machine.execFaultLogRead h first maxCount s
  | .fabricConfigure h position timeParent timeAlt reportParent reportAlt epoch hold => Sys2Proof.Machine.execFabricConfigure h position timeParent timeAlt reportParent reportAlt epoch hold s
  | .channelStatus h => Sys2Proof.Machine.execChannelStatus h s
  | .channelDisable h channel mode => Sys2Proof.Machine.execChannelDisable h channel mode s
  | .timebaseStatus h => Sys2Proof.Machine.execTimebaseStatus h s
  | .fwStage h header => Sys2Proof.Machine.execFwStage h header s
  | .fwStageComplete image => Sys2Proof.Machine.execFwStageComplete image s
  | .fwActivate h fuses => Sys2Proof.Machine.execFwActivate h fuses s
  | .attestQuote h nonce => Sys2Proof.Machine.execAttestQuote h nonce s
  | .attestQuoteSigned => Sys2Proof.Machine.execAttestQuoteSigned s
  | .identityRead h => Sys2Proof.Machine.execIdentityRead h s
  | .ashRead h first maxCount => Sys2Proof.Machine.execAshRead h first maxCount s
  | .ashNote h note => Sys2Proof.Machine.execAshNote h note s
  | .ashStatus h => Sys2Proof.Machine.execAshStatus h s
  | .kindlingEnter h core => Sys2Proof.Machine.execKindlingEnter h core s
  | .kindlingEnterComplete core => Sys2Proof.Machine.execKindlingEnterComplete core s
  | .kindlingExit h core => Sys2Proof.Machine.execKindlingExit h core s
  | .diagRun h core diag unit => Sys2Proof.Machine.execDiagRun h core diag unit s
  | .diagRunComplete core results => Sys2Proof.Machine.execDiagRunComplete core results s
  | .cmdDoorbell port value => Sys2Proof.Machine.execCmdDoorbell port value s
  | .ringEnable port => Sys2Proof.Machine.execRingEnable port s
  | .ringDisable port => Sys2Proof.Machine.execRingDisable port s
  | .replyConsumed port value => Sys2Proof.Machine.execReplyConsumed port value s
  | .registerWrite port offset value => Sys2Proof.Machine.execRegisterWrite port offset value s
  | .hearthBeat => Sys2Proof.Machine.execHearthBeat s
  | .hearthLockstepMismatch => Sys2Proof.Machine.execHearthLockstepMismatch s
  | .hearthRestartComplete => Sys2Proof.Machine.execHearthRestartComplete s
  | .ownerLapse => Sys2Proof.Machine.execOwnerLapse s
  | .linkDown port => Sys2Proof.Machine.execLinkDown port s
  | .hotReset port => Sys2Proof.Machine.execHotReset port s
  | .functionLevelReset port => Sys2Proof.Machine.execFunctionLevelReset port s
  | .conventionalReset port => Sys2Proof.Machine.execConventionalReset port s
  | .hostError reader => Sys2Proof.Machine.execHostError reader s
  | .ideFail port => Sys2Proof.Machine.execIdeFail port s
  | .getMeasurements port => Sys2Proof.Machine.execGetMeasurements port s
  | .keyExchange port key => Sys2Proof.Machine.execKeyExchange port key s
  | .ideKmKeyProg port key => Sys2Proof.Machine.execIdeKmKeyProg port key s
  | .kSetGo port => Sys2Proof.Machine.execKSetGo port s
  | .sidebandCommand packet => Sys2Proof.Machine.execSidebandCommand packet s
  | .sidebandBufferRead offset length => Sys2Proof.Machine.execSidebandBufferRead offset length s
  | .entdaa address => Sys2Proof.Machine.execEntdaa address s
  | .setdasa address => Sys2Proof.Machine.execSetdasa address s
  | .setaasa => Sys2Proof.Machine.execSetaasa s
  | .rstdaa => Sys2Proof.Machine.execRstdaa s
  | .getpid => Sys2Proof.Machine.execGetpid s
  | .getbcr => Sys2Proof.Machine.execGetbcr s
  | .getdcr => Sys2Proof.Machine.execGetdcr s
  | .getstatus => Sys2Proof.Machine.execGetstatus s
  | .getmwl => Sys2Proof.Machine.execGetmwl s
  | .getmrl => Sys2Proof.Machine.execGetmrl s
  | .benchRead address length => Sys2Proof.Machine.execBenchRead address length s
  | .benchStatusRead => Sys2Proof.Machine.execBenchStatusRead s
  | .debugToken token => Sys2Proof.Machine.execDebugToken token s
  | .inputPowerUp vin => Sys2Proof.Machine.execInputPowerUp vin s
  | .inputLost vin => Sys2Proof.Machine.execInputLost vin s
  | .tripUndervolt vin => Sys2Proof.Machine.execTripUndervolt vin s
  | .tripOvervolt vin => Sys2Proof.Machine.execTripOvervolt vin s
  | .warnInput vin => Sys2Proof.Machine.execWarnInput vin s
  | .tripCurrent fast iin => Sys2Proof.Machine.execTripCurrent fast iin s
  | .tripThermal sensor temp => Sys2Proof.Machine.execTripThermal sensor temp s
  | .tripSensor sensor temp => Sys2Proof.Machine.execTripSensor sensor temp s
  | .coolOkDeassert => Sys2Proof.Machine.execCoolOkDeassert s
  | .coolOkAssert lowMs => Sys2Proof.Machine.execCoolOkAssert lowMs s
  | .tripFlow => Sys2Proof.Machine.execTripFlow s
  | .tripLeak => Sys2Proof.Machine.execTripLeak s
  | .tripPrecharge => Sys2Proof.Machine.execTripPrecharge s
  | .tripSwitch switchB => Sys2Proof.Machine.execTripSwitch switchB s
  | .tripCauseCleared cause => Sys2Proof.Machine.execTripCauseCleared cause s
  | .trayPresentBreak => Sys2Proof.Machine.execTrayPresentBreak s
  | .trayPresentMake => Sys2Proof.Machine.execTrayPresentMake s
  | .warnThermal sensor temp => Sys2Proof.Machine.execWarnThermal sensor temp s
  | .warnOverload iin pin => Sys2Proof.Machine.execWarnOverload iin pin s
  | .guardSelfTestDone outcome => Sys2Proof.Machine.execGuardSelfTestDone outcome s
  | .phaseLost group phase => Sys2Proof.Machine.execPhaseLost group phase s
  | .railTrip group => Sys2Proof.Machine.execRailTrip group s
  | .coldStartStage stage => Sys2Proof.Machine.execColdStartStage stage s
  | .coldStartComplete => Sys2Proof.Machine.execColdStartComplete s
  | .stackTrainingFail stack => Sys2Proof.Machine.execStackTrainingFail stack s
  | .channelTrainDone channel up => Sys2Proof.Machine.execChannelTrainDone channel up s
  | .pllLockLoss pll => Sys2Proof.Machine.execPllLockLoss pll s
  | .referenceLoss => Sys2Proof.Machine.execReferenceLoss s
  | .referenceRestored => Sys2Proof.Machine.execReferenceRestored s
  | .roundOpen => Sys2Proof.Machine.execRoundOpen s
  | .barrierTimeout => Sys2Proof.Machine.execBarrierTimeout s
  | .woodpileClaim core => Sys2Proof.Machine.execWoodpileClaim core s
  | .denseItemComplete item damage => Sys2Proof.Machine.execDenseItemComplete item damage s
  | .checksumVerdict item place seen => Sys2Proof.Machine.execChecksumVerdict item place seen s
  | .sparseVerdict item seen => Sys2Proof.Machine.execSparseVerdict item seen s
  | .strikeExpiry unit => Sys2Proof.Machine.execStrikeExpiry unit s
  | .sparseItemComplete item damage => Sys2Proof.Machine.execSparseItemComplete item damage s
  | .segmentItemComplete item damage => Sys2Proof.Machine.execSegmentItemComplete item damage s
  | .updateShardComplete item => Sys2Proof.Machine.execUpdateShardComplete item s
  | .itemWatchdog item busyNs => Sys2Proof.Machine.execItemWatchdog item busyNs s
  | .unitFaultDetected unit cause => Sys2Proof.Machine.execUnitFaultDetected unit cause s
  | .sequencerHeartbeatMiss core => Sys2Proof.Machine.execSequencerHeartbeatMiss core s
  | .hbmPoisonRead address symbols reader => Sys2Proof.Machine.execHbmPoisonRead address symbols reader s
  | .hbmPatrol address symbols => Sys2Proof.Machine.execHbmPatrol address symbols s
  | .combineRun group seen => Sys2Proof.Machine.execCombineRun group seen s
  | .streamUnitStart stream => Sys2Proof.Machine.execStreamUnitStart stream s
  | .streamUnitVisible stream data => Sys2Proof.Machine.execStreamUnitVisible stream data s
  | .streamHold handle cause position data => Sys2Proof.Machine.execStreamHold handle cause position data s
  | .flueMessageComplete stream => Sys2Proof.Machine.execFlueMessageComplete stream s
  | .drainComplete handle => Sys2Proof.Machine.execDrainComplete handle s
  | .runPhaseEnd runNs => Sys2Proof.Machine.execRunPhaseEnd runNs s
  | .settleTokenSend => Sys2Proof.Machine.execSettleTokenSend s
  | .settleToken msg => Sys2Proof.Machine.execSettleToken msg s
  | .digestGate => Sys2Proof.Machine.execDigestGate s
  | .roundCommitComplete => Sys2Proof.Machine.execRoundCommitComplete s
  | .settleTimeout => Sys2Proof.Machine.execSettleTimeout s
  | .douseOriginate => Sys2Proof.Machine.execDouseOriginate s
  | .douse msg => Sys2Proof.Machine.execDouse msg s
  | .douseReady msg => Sys2Proof.Machine.execDouseReady msg s
  | .replayRoundStart => Sys2Proof.Machine.execReplayRoundStart s
  | .versionWaitTimeout => Sys2Proof.Machine.execVersionWaitTimeout s
  | .routeStart route => Sys2Proof.Machine.execRouteStart route s
  | .countFrame frame => Sys2Proof.Machine.execCountFrame frame s
  | .grantFrame frame => Sys2Proof.Machine.execGrantFrame frame s
  | .dispatchVisible route home => Sys2Proof.Machine.execDispatchVisible route home s
  | .returnStart route => Sys2Proof.Machine.execReturnStart route s
  | .returnVisible route source => Sys2Proof.Machine.execReturnVisible route source s
  | .combineStart route => Sys2Proof.Machine.execCombineStart route s
  | .routeCombineComplete route => Sys2Proof.Machine.execRouteCombineComplete route s
  | .routeTimeout route => Sys2Proof.Machine.execRouteTimeout route s
  | .maskGenerateComplete mask => Sys2Proof.Machine.execMaskGenerateComplete mask s
  | .collectiveStart coll => Sys2Proof.Machine.execCollectiveStart coll s
  | .collectiveComplete coll => Sys2Proof.Machine.execCollectiveComplete coll s
  | .collTimeout coll stage chunk => Sys2Proof.Machine.execCollTimeout coll stage chunk s
  | .testStart window core remainNs => Sys2Proof.Machine.execTestStart window core remainNs s
  | .testComplete core result => Sys2Proof.Machine.execTestComplete core result s
  | .testDue target => Sys2Proof.Machine.execTestDue target s
  | .testOverdue target => Sys2Proof.Machine.execTestOverdue target s
  | .laneFail channel lane loose => Sys2Proof.Machine.execLaneFail channel lane loose s
  | .spareLaneRotate channel => Sys2Proof.Machine.execSpareLaneRotate channel s
  | .flitError channel lastGood => Sys2Proof.Machine.execFlitError channel lastGood s
  | .nak channel ackSeq loose => Sys2Proof.Machine.execNak channel ackSeq loose s
  | .channelDown channel loose => Sys2Proof.Machine.execChannelDown channel loose s
  | .peerSilenceTimeout channel loose => Sys2Proof.Machine.execPeerSilenceTimeout channel loose s
  | .dataPacket packet => Sys2Proof.Machine.execDataPacket packet s
  | .packetForward packet => Sys2Proof.Machine.execPacketForward packet s
  | .sumPacket packet => Sys2Proof.Machine.execSumPacket packet s
  | .timeExchange => Sys2Proof.Machine.execTimeExchange s
  | .timeFlit channel s1 r1 s2 r2 => Sys2Proof.Machine.execTimeFlit channel s1 r1 s2 r2 s
  | .timeUnlocked => Sys2Proof.Machine.execTimeUnlocked s
  | .timebaseStep => Sys2Proof.Machine.execTimebaseStep s
  | .flagInc msg => Sys2Proof.Machine.execFlagInc msg s
  | .barrierArrive msg => Sys2Proof.Machine.execBarrierArrive msg s
  | .barrierRelease msg releaseTime => Sys2Proof.Machine.execBarrierRelease msg releaseTime s
  | .barrierReleaseTime => Sys2Proof.Machine.execBarrierReleaseTime s
  | .report suspect => Sys2Proof.Machine.execReport suspect s
  | .storm suspect => Sys2Proof.Machine.execStorm suspect s
  | .reportHoldExpiry index => Sys2Proof.Machine.execReportHoldExpiry index s
  | .hello q x => Sys2Proof.Machine.execHello q x s
  | .helloTick => Sys2Proof.Machine.execHelloTick s
  | .partnerLost => Sys2Proof.Machine.execPartnerLost s
  | .bankOpen header => Sys2Proof.Machine.execBankOpen header s
  | .bankData area offset data => Sys2Proof.Machine.execBankData area offset data s
  | .seal area header => Sys2Proof.Machine.execSeal area header s
  | .bankAbort area serial => Sys2Proof.Machine.execBankAbort area serial s
  | .ack status area step imageBytes => Sys2Proof.Machine.execAck status area step imageBytes s
  | .pull source owner step => Sys2Proof.Machine.execPull source owner step s
  | .hostCopyComplete => Sys2Proof.Machine.execHostCopyComplete s
  | .standbySupplyLost => Sys2Proof.Machine.execStandbySupplyLost s
  | .streamContextFault handle => Sys2Proof.Machine.execStreamContextFault handle s
  | .nocLinkFault bundle => Sys2Proof.Machine.execNocLinkFault bundle s
  | .dieFault place => Sys2Proof.Machine.execDieFault place s
  | .bankExtentRead entry => Sys2Proof.Machine.execBankExtentRead entry s

end Sys2Proof.Machine
end

