-- ==== Sys2Proof/Safety.lean ====
section
/-! DEFINITION. The terms in which claims are stated: the legal states, when a command of a ring starts, what the host
sees of it, and what it sees of a completion. -/
namespace Sys2Proof.Machine

/-! ### Legal states -/

/-- The register block as R465 leaves it: the rings run only while enable is 1 and error is 0, from ring bases that are
nonzero and 4 KiB aligned; a port whose rings do not run is owed no completion. -/
def Port.Legal (x : Port) : Prop :=
  (x.running = true → x.enable = true ∧ x.error = false ∧ x.basesOk = true) ∧ (x.running = false → x.owed = [])

/-- What holds between steps: nothing waits to be handed over, the bytes written to host memory are in canonical form,
both register blocks are legal. -/
structure State.Settled (s : State) : Prop where
  quiet : s.m.out = Outbox.empty
  host : Memory.wf s.io.mem = true
  port0 : s.io.p0.Legal
  port1 : s.io.p1.Legal

/-- Memory is in canonical form. -/
def Hbm.Canonical (x : Hbm) : Prop := Memory.wf x.mem = true

/-- Nothing waits to be handed over. -/
def State.Quiet (s : State) : Prop := s.m.out = Outbox.empty

/-! ### Commands of a ring -/

/-- The command packets of a port's ring: the packet, its opcode, and whether only the owner may send it (spec 15, R482,
R486). Every other command reaches the module in another way. -/
def ringCommand : Instr → Option (Cmd × Nat × Bool)
  | .nop h => some (h, Op.nop, false)
  | .identify h => some (h, Op.identify, false)
  | .statusRead h => some (h, Op.statusRead, false)
  | .attnAck h _ => some (h, Op.attnAck, false)
  | .ownerClaim h => some (h, Op.ownerClaim, false)
  | .ownerYield h => some (h, Op.ownerYield, true)
  | .counterRead h _ _ _ => some (h, Op.counterRead, false)
  | .moduleReset h => some (h, Op.moduleReset, true)
  | .distanceRead h => some (h, Op.distanceRead, false)
  | .pstateSet h _ _ _ _ => some (h, Op.pstateSet, true)
  | .pstateQuery h => some (h, Op.pstateQuery, false)
  | .oppointRead h _ => some (h, Op.oppointRead, false)
  | .railStatus h => some (h, Op.railStatus, false)
  | .regionRegister h _ _ _ _ => some (h, Op.regionRegister, false)
  | .regionRevoke h _ => some (h, Op.regionRevoke, false)
  | .regionQuery h _ => some (h, Op.regionQuery, false)
  | .hbmPartition h _ _ _ _ => some (h, Op.hbmPartition, true)
  | .planLoad h _ => some (h, Op.planLoad, true)
  | .planReport h => some (h, Op.planReport, false)
  | .planStart h => some (h, Op.planStart, true)
  | .planHalt h => some (h, Op.planHalt, true)
  | .planResume h => some (h, Op.planResume, true)
  | .planUnload h => some (h, Op.planUnload, true)
  | .streamCreate h _ => some (h, Op.streamCreate, false)
  | .streamArm h _ _ _ => some (h, Op.streamArm, false)
  | .streamResume h _ => some (h, Op.streamResume, false)
  | .streamRetire h _ => some (h, Op.streamRetire, false)
  | .stepBegin h _ _ _ _ => some (h, Op.stepBegin, true)
  | .groupSet h _ _ _ => some (h, Op.groupSet, true)
  | .stepStatus h => some (h, Op.stepStatus, false)
  | .snapshotExport h _ _ => some (h, Op.snapshotExport, false)
  | .bankConfigure h _ _ _ _ _ _ _ _ => some (h, Op.bankConfigure, true)
  | .bankNow h _ => some (h, Op.bankNow, true)
  | .bankStatus h => some (h, Op.bankStatus, false)
  | .relight h _ _ _ _ _ _ => some (h, Op.relight, true)
  | .bankServe h _ _ _ => some (h, Op.bankServe, true)
  | .testWindowForce h _ => some (h, Op.testWindowForce, true)
  | .patternInstall h _ => some (h, Op.patternInstall, true)
  | .testResultRead h => some (h, Op.testResultRead, false)
  | .marginTestRun h _ => some (h, Op.marginTestRun, true)
  | .digestPolicySet h _ => some (h, Op.digestPolicySet, true)
  | .unitDisable h _ _ => some (h, Op.unitDisable, true)
  | .unitEnable h _ => some (h, Op.unitEnable, true)
  | .faultLogRead h _ _ => some (h, Op.faultLogRead, false)
  | .fabricConfigure h _ _ _ _ _ _ _ => some (h, Op.fabricConfigure, true)
  | .channelStatus h => some (h, Op.channelStatus, false)
  | .channelDisable h _ _ => some (h, Op.channelDisable, true)
  | .timebaseStatus h => some (h, Op.timebaseStatus, false)
  | .fwStage h _ => some (h, Op.fwStage, true)
  | .fwActivate h _ => some (h, Op.fwActivate, true)
  | .attestQuote h _ => some (h, Op.attestQuote, false)
  | .identityRead h => some (h, Op.identityRead, false)
  | .ashRead h _ _ => some (h, Op.ashRead, false)
  | .ashNote h _ => some (h, Op.ashNote, true)
  | .ashStatus h => some (h, Op.ashStatus, false)
  | .kindlingEnter h _ => some (h, Op.kindlingEnter, true)
  | .kindlingExit h _ => some (h, Op.kindlingExit, true)
  | .diagRun h _ _ _ => some (h, Op.diagRun, true)
  | _ => none

/-- A command of a ring starts (spec 15, R467, R469, R471, R474, R485): its packet can be fetched, the reply ring has room
for it, its reserved bits are zero, and nothing of an earlier step waits to be handed over. -/
structure State.Starts (s : State) (h : Cmd) : Prop where
  fetched : s.fetches h.port = true
  room : (s.io.port h.port).hasRoom = true
  reserved : h.rsv = 0
  quiet : s.Quiet

/-- The module as a starting command finds it: the messages of the last command are gone, and a command of the owner
renews the ownership (spec 15, R482). -/
def State.found (s : State) (h : Cmd) : Mod := s.m.fresh.renew h.port

/-- The state accepts a command, and no repartition holds it back (spec 15, R485; spec 05, R150). -/
def State.accepts (s : State) (op : Nat) : Prop :=
  s.m.ctl.state.accepts op = true ∧ (waitsForPartition op = true → s.m.hbm.repart = none)

/-- The host's side after a command (spec 15, R467, R470, R475, R478): the attention bits a reach both copies, the buffer
writes and then the reply stand in host memory, CMD_CONSUMED and REPLY_PRODUCED advance by one, and a completion is owed
if the class is ACCEPTED. Nothing else changes. -/
def HostIo.answered (io : HostIo) (h : Cmd) (a : Byte) (writes : List HostWrite) (op cls detail : Nat) (result : Bytes) :
    HostIo :=
  let io := (io.attend { Outbox.empty with attn := a }).store writes
  let x := io.port h.port
  let slot := x.replyBase.toNat + 32 * (x.replyProduced.toNat % 4096)
  let bs := replyBytes x.replyProduced h.tag x.attn cls detail op 0 result
  let io := { io with mem := putBytes io.mem (hostKey h.port slot) bs }
  io.setPort h.port
    { x with consumed := x.consumed + 1, replyProduced := x.replyProduced + 1,
             owed := if cls = Cls.accepted then x.owed ++ [⟨h.tag, op⟩] else x.owed }

/-- What the host sees of a command: its reply, and then the completions ks that the command writes at once (spec 15,
R470, R476). The queue is left as it was. -/
def Answered (s t : State) (h : Cmd) (a : Byte) (writes : List HostWrite) (op cls detail : Nat) (result : Bytes)
    (ks : List Reply := []) : Prop :=
  t.pending = s.pending ∧ t.io = ks.foldl HostIo.putCompletion (s.io.answered h a writes op cls detail result)

/-- The write of a command's buffer (spec 15, R470). -/
def Mod.bufferWrite (m : Mod) (h : Cmd) (bs : Bytes) : List HostWrite :=
  let r := SMap.get Region.free m.regions h.bufRegion.toNat
  [⟨r.port, r.base + h.bufOffset.toNat, bs⟩]

/-- The command answers a next state, of which P holds. -/
def Completes (i : Instr) (s : State) (P : State → Prop) : Prop := ∃ t, exec i s = .next t ∧ P t

/-- A command that is REJECTED with a detail: the reply, and nothing of the module but the count of rejected commands and the
owner's renewal (spec 15, R474, R482). -/
def Rejects (i : Instr) (s : State) (h : Cmd) (op detail : Nat) : Prop :=
  Completes i s (fun t => Answered s t h 0 [] op Cls.rejected detail [] ∧ t.m = (s.found h).count Cnt.cmdRejected 1)

/-- The command answers a next state in which the host sees its reply (attention bits a, buffer writes, opcode, class,
result) and the completions ks, and the module is m. -/
def Replies (i : Instr) (s : State) (h : Cmd) (a : Byte) (writes : List HostWrite) (op cls : Nat) (result : Bytes) (m : Mod)
    (ks : List Reply := []) : Prop :=
  Completes i s (fun t => Answered s t h a writes op cls Detail.none result ks ∧ t.m = m)

/-- What the host sees of an event (spec 15, R470, R476, R478): the attention bits a, the writes to host memory, the
completions ks, each written only if its port is owed it. Nothing else of the host's side changes, and the queue is left
as it was. -/
def Observed (s t : State) (a : Byte) (writes : List HostWrite) (ks : List Reply) : Prop :=
  t.pending = s.pending
    ∧ t.io = ks.foldl HostIo.putCompletion ((s.io.attend { Outbox.empty with attn := a }).store writes)

/-- The event answers a next state in which the host sees the attention bits a and the completions ks, and the module is
m. -/
def Happens (i : Instr) (s : State) (a : Byte) (ks : List Reply) (m : Mod) : Prop :=
  Completes i s (fun t => Observed s t a [] ks ∧ t.m = m)

/-- The step from s to t appends an entry to the ash record: kind, source and body (spec 18, R544, R546). -/
def AshEntered (s t : State) (kind : Nat) (src : AshSrc) (body : Bytes) : Prop :=
  t.m.ash.next = s.m.ash.next + 1
    ∧ SMap.get [] t.m.ash.slots (s.m.ash.next.toNat % ashSlots)
        = ashEntry s.m.ash.next kind src.code s.m.ctl.bootCount s.m.powerOnS body

end Sys2Proof.Machine
end

