-- ==== Sys2Proof/Certificates/Slice0/Obligations.lean ====
section
/-! DEFINITION. The statements for the provers. Each is stated for every state; a command of a ring is stated under
`State.Starts`, the conditions of R467, R469, R471 and R485 under which it is fetched and answered. -/

open Sys2Proof Sys2Proof.Machine

/-! ### Commands of a ring: status, tables, records -/

/-- NOP, STATUS_READ, ASH_STATUS (R468, R487, R550) complete: each writes its reply with class OK and its result, and
changes nothing else of the module. ASH_STATUS answers the newest and oldest ash_seq, the entries held, the torn entries
and the flags that R550 lists. -/
def Obligations.StatusCommandsReply : Prop :=
  ∀ (s : State) (h : Cmd), s.Starts h → noBuffer h = true →
    (s.accepts Op.nop → Replies (.nop h) s h 0 [] Op.nop Cls.ok [] (s.found h))
    ∧ (s.accepts Op.statusRead →
        Replies (.statusRead h) s h 0 [] Op.statusRead Cls.ok ((s.found h).status h.port) (s.found h))
    ∧ (s.accepts Op.ashStatus →
        Replies (.ashStatus h) s h 0 [] Op.ashStatus Cls.ok
          (leBytes 4 (s.m.ash.next - 1).toNat ++ leBytes 4 (s.m.ash.next - BitVec.ofNat 32 s.m.ash.held).toNat
            ++ leBytes 4 s.m.ash.held ++ leBytes 2 (min 0xFFFF s.m.ash.torn)
            ++ [BitVec.ofNat 8 (b2n s.m.ash.wrapped + 2 * b2n s.m.ash.bench), 0]) (s.found h))

/-- DISTANCE_READ, PSTATE_QUERY, OPPOINT_READ, PLAN_REPORT, STEP_STATUS, BANK_STATUS, TEST_RESULT_READ, IDENTITY_READ
(R50, R508, R510, R113, R398, R458, R427, R521) complete: each writes its table to the command's buffer and then its
reply with class OK, and changes nothing of the module. Rests on the model's readings of assumption logs 22, 33, 58. -/
def Obligations.TableCommandsWriteBuffer : Prop :=
  ∀ (s : State) (h : Cmd), s.Starts h →
    let m := s.found h
    (s.accepts Op.distanceRead → m.bufferOk h 24944 true = true →
      Replies (.distanceRead h) s h 0 (m.bufferWrite h (distanceTable s.m.ctl.generation)) Op.distanceRead Cls.ok
        (leBytes 4 s.m.ctl.generation.toNat) m)
    ∧ (s.accepts Op.pstateQuery → m.bufferOk h 216 true = true → ∃ bs,
        Replies (.pstateQuery h) s h 0 (m.bufferWrite h bs) Op.pstateQuery Cls.ok [] m
        ∧ bs.take 16 = [BitVec.ofNat 8 s.m.ctl.state.code, BitVec.ofNat 8 (b2n s.m.pwr.guard.coolOk)] ++ zeros 14)
    ∧ (∀ core : Byte, core.toNat ≤ 7 → s.accepts Op.oppointRead → m.bufferOk h 160 true = true →
        Replies (.oppointRead h core) s h 0
          (m.bufferWrite h ([core, BitVec.ofNat 8 (if (s.m.core core.toNat).ps = .run then (s.m.core core.toNat).op else 0xFF)]
            ++ zeros 14 ++ opPointEntries core.toNat)) Op.oppointRead Cls.ok [] m)
    ∧ (s.accepts Op.planReport → m.bufferOk h 256 true = true →
        Replies (.planReport h) s h 0 (m.bufferWrite h m.planReport) Op.planReport Cls.ok [] m)
    ∧ (s.accepts Op.stepStatus → m.bufferOk h 64 true = true →
        Replies (.stepStatus h) s h 0 (m.bufferWrite h m.stepStatus) Op.stepStatus Cls.ok [] m)
    ∧ (s.accepts Op.bankStatus → m.bufferOk h 160 true = true →
        Replies (.bankStatus h) s h 0 (m.bufferWrite h m.bankStatus) Op.bankStatus Cls.ok [] m)
    ∧ (s.accepts Op.testResultRead → m.bufferOk h 56784 true = true →
        Replies (.testResultRead h) s h 0 (m.bufferWrite h m.testResults) Op.testResultRead Cls.ok [] m)
    ∧ (s.accepts Op.identityRead → m.bufferOk h 18304 true = true →
        Replies (.identityRead h) s h 0 (m.bufferWrite h identityBlock) Op.identityRead Cls.ok [] m)

/-- COUNTER_READ (R492), FAULT_LOG_READ (R412), ASH_READ (R548), RAIL_STATUS (R543), REGION_QUERY (R194), CHANNEL_STATUS
(R349) complete: each writes its entries to the command's buffer (REGION_QUERY without a buffer writes none) and then
its reply; COUNTER_READ with clear, which the owner alone may send, empties the counters read; FAULT_LOG_READ marks its
records returned; RAIL_STATUS restarts the peak current. IDENTIFY (R486) and TIMEBASE_STATUS (R328) reply. Free readings
are drawn by RAIL_STATUS, CHANNEL_STATUS and, for the rounding of θ, TIMEBASE_STATUS (assumption log 3); the usable
clusters of IDENTIFY are the reading of log 23. -/
def Obligations.RecordCommandsWriteBuffer : Prop :=
  ∀ (s : State) (h : Cmd), s.Starts h →
    let m := s.found h
    (∀ (first count : Half) (flags : Byte), s.accepts Op.counterRead → 0 < count.toNat → count.toNat ≤ 256 →
      first.toNat + count.toNat ≤ 0x10000 → flags.toNat ≤ 1 → (flags.toNat = 1 → s.m.ctl.owner = some h.port) →
      m.bufferOk h (16 * count.toNat) true = true →
      Replies (.counterRead h first count flags) s h 0
        (m.bufferWrite h ((List.range count.toNat).map (fun i => s.m.counterEntry (first.toNat + i))).flatten)
        Op.counterRead Cls.ok (leBytes 2 count.toNat)
        (if flags.toNat = 1 then m.clearCounters first.toNat count.toNat else m))
    ∧ (∀ (first : Word) (n : Half), s.accepts Op.faultLogRead → 0 < n.toNat → n.toNat ≤ 4096 →
        m.bufferOk h (64 * n.toNat) true = true →
        let sel := s.m.log.select first n.toNat
        Replies (.faultLogRead h first n) s h 0 (m.bufferWrite h (sel.map FaultRec.bytes).flatten) Op.faultLogRead Cls.ok
          (leBytes 2 sel.length ++ zeros 2
            ++ leBytes 4 (match s.m.log.recs with | r :: _ => r.serial | [] => s.m.log.next).toNat)
          { m with log := s.m.log.mark (sel.map (·.serial)) })
    ∧ (∀ first n : Word, s.accepts Op.ashRead → 0 < n.toNat → n.toNat ≤ 65536 → m.bufferOk h (64 * n.toNat) true = true →
        let sel := s.m.ash.select first n.toNat
        Replies (.ashRead h first n) s h 0 (m.bufferWrite h sel.flatten) Op.ashRead Cls.ok
          (leBytes 4 sel.length ++ leBytes 4 s.m.ash.oldest.toNat ++ leBytes 4 s.m.ash.newest.toNat) m)
    ∧ (s.accepts Op.railStatus → m.bufferOk h 560 true = true →
        Replies (.railStatus h) s h 0 (m.bufferWrite h (m.railStatus s.m.free)) Op.railStatus Cls.ok []
          { m with free := s.m.free + 256,
                   pwr := { s.m.pwr with guard := { s.m.pwr.guard with iinPeak := s.m.pwr.guard.iin } } })
    ∧ (∀ id : Half, s.accepts Op.regionQuery → id.toNat ≤ 4095 → noBuffer h = true →
        Replies (.regionQuery h id) s h 0 [] Op.regionQuery Cls.ok
          ((s.m.regionBytes id.toNat).take 8 ++ (s.m.regionBytes id.toNat).drop 0x18) m)
    ∧ (∀ id : Half, s.accepts Op.regionQuery → id.toNat ≤ 4095 → m.bufferOk h 32 true = true →
        Replies (.regionQuery h id) s h 0 (m.bufferWrite h (s.m.regionBytes id.toNat)) Op.regionQuery Cls.ok
          ((s.m.regionBytes id.toNat).take 8 ++ (s.m.regionBytes id.toNat).drop 0x18) m)
    ∧ (s.accepts Op.channelStatus → m.bufferOk h 896 true = true →
        Replies (.channelStatus h) s h 0 (m.bufferWrite h ((List.range 28).map m.countFec.channelEntry).flatten)
          Op.channelStatus Cls.ok [] m.countFec)
    ∧ (s.accepts Op.identify → noBuffer h = true →
        Replies (.identify h) s h 0 [] Op.identify Cls.ok
          (leBytes 2 0x240C ++ leBytes 2 Config.position ++ leBytes 4 s.m.fw.running.version
            ++ (List.range 8).map (fun c => BitVec.ofNat 8 (s.m.usable c))) m)
    ∧ (s.accepts Op.timebaseStatus → noBuffer h = true →
        Replies (.timebaseStatus h) s h 0 [] Op.timebaseStatus Cls.ok
          ([BitVec.ofNat 8 (TimeSt.code s.m.fab.timeState), BitVec.ofNat 8 s.m.fab.parentRole] ++ zeros 2
            ++ leBytes 4 (unsigned 32 m.thetaNs.1) ++ leBytes 8 s.m.fab.time) m.thetaNs.2)

/-! ### Ownership, attention, regions, port registers -/

/-- OWNER_CLAIM, OWNER_YIELD, OWNER_LAPSE (R482): a claim of a module without owner, or whose owner has lapsed, and a
yield change the owner, count the change and set ATTN_OWNER in both copies; a claim by the owner changes nothing; an
owner idle for 2,000 ms lapses. -/
def Obligations.OwnershipChangesHands : Prop :=
  ∀ (s : State) (h : Cmd), s.Starts h → noBuffer h = true →
    let m := s.found h
    (s.accepts Op.ownerClaim → s.m.ctl.owner ≠ some h.port → (s.m.ctl.owner = none ∨ s.m.ctl.lapsed = true) →
      Replies (.ownerClaim h) s h Attn.owner [] Op.ownerClaim Cls.ok [BitVec.ofNat 8 h.port]
        (({ m with ctl := { m.ctl with owner := some h.port, lapsed := false, ownerIdleMs := 0 } }).count Cnt.ownerChange 1))
    ∧ (s.accepts Op.ownerClaim → s.m.ctl.owner = some h.port →
        Replies (.ownerClaim h) s h 0 [] Op.ownerClaim Cls.ok [BitVec.ofNat 8 h.port] m)
    ∧ (s.accepts Op.ownerYield → s.m.ctl.owner = some h.port →
        Replies (.ownerYield h) s h Attn.owner [] Op.ownerYield Cls.ok []
          (({ m with ctl := { m.ctl with owner := none, lapsed := false, ownerIdleMs := 0 } }).count Cnt.ownerChange 1))
    ∧ (s.m.ctl.owner ≠ none → s.m.ctl.lapsed = false → 2000 ≤ s.m.ctl.ownerIdleMs →
        Happens .ownerLapse s Attn.owner [] { s.m.fresh with ctl := { s.m.ctl with lapsed := true } })

/-- ATTN_ACK (R479): the bits of the mask are clear in the issuing port's copy and in no other; the reply carries the
attention bits after the clear, and its result byte is 0, since no event shares a step with the clear; the module is as
it was. -/
def Obligations.AttnAckClearsOneCopy : Prop :=
  ∀ (s : State) (h : Cmd) (mask : Byte), s.Starts h → noBuffer h = true → s.accepts Op.attnAck →
    let x := s.io.port h.port
    Completes (.attnAck h mask) s (fun t =>
      Answered { s with io := s.io.setPort h.port { x with attn := x.attn &&& ~~~mask } } t h 0 [] Op.attnAck Cls.ok
        Detail.none [0]
      ∧ (t.io.port h.port).attn = x.attn &&& ~~~mask
      ∧ t.io.port (1 - h.port) = s.io.port (1 - h.port)
      ∧ t.m = s.found h)

/-- REGION_REGISTER, REGION_REVOKE and its completion (R195, R196): a FREE entry becomes ACTIVE for the issuing port
with its generation advanced, and keeps drained_serial; an id above 4,095, a base or size that is illegal, or no access
is REJECTED BAD_PARAM, an id that is not FREE REJECTED BAD_STATE; a revoke by the holding port moves an ACTIVE entry to
REVOKING and is owed a completion; when the accesses have ended the entry is FREE, keeps generation and drained_serial,
and the completion, if one is owed, is written. -/
def Obligations.RegionsRegisterAndRevoke : Prop :=
  ∀ (s : State) (h : Cmd) (id : Half),
    (∀ (access : Byte) (base size : Dword), s.Starts h → noBuffer h = true → s.accepts Op.regionRegister →
      access.toNat ≤ 3 →
      (4095 < id.toNat ∨ base.toNat % 4096 ≠ 0 ∨ size.toNat % 4096 ≠ 0 ∨ size.toNat < 4096 ∨ 2 ^ 40 < size.toNat
        ∨ 2 ^ 64 < base.toNat + size.toNat ∨ access.toNat = 0) →
      Rejects (.regionRegister h id access base size) s h Op.regionRegister Detail.badParam)
    ∧ (∀ (access : Byte) (base size : Dword), s.Starts h → noBuffer h = true → s.accepts Op.regionRegister →
      access.toNat ≤ 3 → regionIllegal id.toNat access.toNat base.toNat size.toNat = false →
      (s.m.region id.toNat).state ≠ .free →
      Rejects (.regionRegister h id access base size) s h Op.regionRegister Detail.badState)
    ∧ (∀ (access : Byte) (base size : Dword), s.Starts h → noBuffer h = true → s.accepts Op.regionRegister →
      access.toNat ≤ 3 → regionIllegal id.toNat access.toNat base.toNat size.toNat = false →
      (s.m.region id.toNat).state = .free →
      Replies (.regionRegister h id access base size) s h 0 [] Op.regionRegister Cls.ok []
        ((s.found h).setRegion id.toNat
          { s.m.region id.toNat with
            state := .active, port := h.port, read := bit access.toNat 0, write := bit access.toNat 1,
            gen := (s.m.region id.toNat).gen + 1, base := base.toNat, size := size.toNat, ticket := none }))
    ∧ (s.Starts h → noBuffer h = true → s.accepts Op.regionRevoke → id.toNat ≤ 4095 →
        (s.m.region id.toNat).state = .active → (s.m.region id.toNat).port = h.port →
        Replies (.regionRevoke h id) s h 0 [] Op.regionRevoke Cls.accepted []
          ((s.found h).setRegion id.toNat
            { s.m.region id.toNat with state := .revoking, ticket := some ⟨h.port, h.tag⟩ }))
    ∧ (∀ n k, s.Quiet → (s.m.region n).state = .revoking → (s.m.region n).ticket = some k →
        Happens (.regionRevokeComplete n) s 0 [⟨k.port, k.tag, Op.regionRevoke, Cls.ok, Detail.none, []⟩]
          (s.m.fresh.setRegion n { Region.free with gen := (s.m.region n).gen, drained := (s.m.region n).drained }))
    ∧ (∀ n, s.Quiet → (s.m.region n).state = .revoking → (s.m.region n).ticket = none →
        Happens (.regionRevokeComplete n) s 0 []
          (s.m.fresh.setRegion n { Region.free with gen := (s.m.region n).gen, drained := (s.m.region n).drained }))

/-- RING_CTRL (R465): enable 1 with ring bases that are nonzero and 4 KiB aligned starts the rings at zero serials; with
others it sets error and the rings do not run; enable 0 stops the rings and drops the completions owed, which are
counted. Nothing else of either port changes. -/
def Obligations.RingControl : Prop :=
  ∀ (s : State) (p : Nat), s.serves p = true →
    let x := s.io.port p
    (x.enable = false → x.basesOk = true →
      exec (.ringEnable p) s = .next { s with
        io := s.io.setPort p { x with enable := true, running := true, error := false, consumed := 0, replyProduced := 0 } })
    ∧ (x.enable = false → x.basesOk = false →
        exec (.ringEnable p) s = .next { s with
          io := s.io.setPort p { x with enable := true, running := false, error := true } })
    ∧ (s.Quiet →
        Completes (.ringDisable p) s (fun t =>
          t.io = s.io.setPort p { x with enable := false, running := false, owed := [] }
          ∧ t.m = (if x.owed = [] then s.m.fresh else s.m.fresh.count Cnt.replyDropped x.owed.length)))

/-- CMD_DOORBELL and REPLY_CONSUMED (R467, R469): a value in range is stored and changes nothing else; one out of range
is ignored, counted, and sets ATTN_LOG in that port's copy. Rests on the model's readings of assumption log 9. -/
def Obligations.SerialRegisters : Prop :=
  ∀ (s : State) (p : Nat) (v : Word), s.serves p = true → (s.io.port p).enable = true →
    let x := s.io.port p
    let bad := fun (t : State) => t.io = s.io.setPort p { x with attn := x.attn ||| Attn.log }
      ∧ t.m = s.m.fresh.count Cnt.doorbellBad 1
    (0 ≤ (v - x.consumed).toInt ∧ (v - x.consumed).toInt ≤ 4096 →
      exec (.cmdDoorbell p v) s = .next { s with io := s.io.setPort p { x with producer := v } })
    ∧ (s.Quiet → ¬ (0 ≤ (v - x.consumed).toInt ∧ (v - x.consumed).toInt ≤ 4096) → Completes (.cmdDoorbell p v) s bad)
    ∧ (0 ≤ (x.replyProduced - v).toInt ∧ (x.replyProduced - v).toInt ≤ 4096 →
        exec (.replyConsumed p v) s = .next { s with io := s.io.setPort p { x with replyConsumed := v } })
    ∧ (s.Quiet → ¬ (0 ≤ (x.replyProduced - v).toInt ∧ (x.replyProduced - v).toInt ≤ 4096) →
        Completes (.replyConsumed p v) s bad)

/-- REGISTER_WRITE (R464, R465, R21): the ring bases take the value while the rings do not run, and ignore it while they
run; a write to an offset without behaviour of its own changes nothing. -/
def Obligations.RegisterWriteStoresBases : Prop :=
  ∀ (s : State) (p : Nat) (v : Dword), s.serves p = true →
    let x := s.io.port p
    (x.running = false →
      exec (.registerWrite p 0x08 v) s = .next { s with io := s.io.setPort p { x with cmdBase := v } }
      ∧ exec (.registerWrite p 0x10 v) s = .next { s with io := s.io.setPort p { x with replyBase := v } })
    ∧ (x.running = true → ∀ o, exec (.registerWrite p o v) s = .next s)
    ∧ (∀ o, o ≠ 0x08 → o ≠ 0x10 → exec (.registerWrite p o v) s = .next s)

/-! ### The hearth controller, links, security, sideband -/

/-- MODULE_RESET (R496): the reply is written first; then the module is in STANDBY without owner, regions, plan, streams
or fault records, both register blocks are at their reset values, and the hearth controller is down until
MODULE_RESET_COMPLETE. What non-volatile memory keeps stays: units' clinker and disabled bits, test rows, firmware.
Rests on the model's readings of assumption logs 1, 24. -/
def Obligations.ModuleResetClears : Prop :=
  (∀ (s : State) (h : Cmd), s.Starts h → noBuffer h = true → s.accepts Op.moduleReset → s.m.ctl.owner = some h.port →
    Completes (.moduleReset h) s (fun t =>
      t.io.mem = (s.io.answered h 0 [] Op.moduleReset Cls.ok Detail.none []).mem
      ∧ t.io.p0 = Port.reset ∧ t.io.p1 = Port.reset
      ∧ t.m.ctl.state = .standby ∧ t.m.ctl.owner = none ∧ t.m.ctl.restart = some .reset
      ∧ t.m.regions = [] ∧ t.m.plan = PlanCtl.reset ∧ t.m.run = Run.idle ∧ t.m.ctxs = [] ∧ t.m.log.recs = []
      ∧ t.m.step = StepCtl.reset ∧ t.m.bank = Bank.reset ∧ t.m.hbm = Hbm.reset
      ∧ t.m.units = { s.m.units with
          recs := SMap.mapVals UnitRec.healthy s.m.units.recs (fun r => { r with draining := none, testing := none }) }
      ∧ t.m.tests.rows = s.m.tests.rows ∧ t.m.fw.slotA = s.m.fw.slotA ∧ t.m.fw.slotB = s.m.fw.slotB
      ∧ t.m.fw.fuses = s.m.fw.fuses))
  ∧ ∀ s : State, s.Quiet → s.m.ctl.restart = some .reset →
      Happens .moduleResetComplete s 0 [] { s.m.fresh with ctl := { s.m.ctl with restart := none } }

/-- HEARTH_BEAT (R464), HEARTH_LOCKSTEP_MISMATCH and HEARTH_RESTART_COMPLETE (R471): a millisecond advances power-on
time and, while the controller runs, HEARTH_BEAT; a mismatch stops both ports' rings, whose completions are dropped; a
restart brings the controller back, is counted and sets ATTN_FAULT; the restart of an activation (R518) is not counted
and writes no record. Rests on the model's readings of assumption logs 7, 10. -/
def Obligations.HearthControllerRestarts : Prop :=
  ∀ s : State, s.Quiet →
    (s.m.ctl.state ≠ .off →
      Happens .hearthBeat s 0 []
        { s.m.fresh with ctl := { s.m.ctl with
            powerOnMs := s.m.ctl.powerOnMs + 1,
            ownerIdleMs := if s.m.ctl.owner.isSome then s.m.ctl.ownerIdleMs + 1 else s.m.ctl.ownerIdleMs,
            beat := if s.m.ctl.restart.isNone then s.m.ctl.beat + 1 else s.m.ctl.beat } })
    ∧ (s.m.ctl.state ≠ .off → s.m.ctl.restart = none →
        Completes .hearthLockstepMismatch s (fun t =>
          t.io = { s.io with p0 := s.io.p0.stop, p1 := s.io.p1.stop }
          ∧ t.m.ctl = { s.m.ctl with restart := some .lockstep } ∧ t.m.plan = s.m.plan ∧ t.m.run = s.m.run
          ∧ t.m.ctxs = s.m.ctxs ∧ t.m.hbm = s.m.hbm))
    ∧ (s.m.ctl.restart = some .lockstep →
        Completes .hearthRestartComplete s (fun t =>
          Observed s t Attn.fault [] []
          ∧ t.m.ctl = { s.m.ctl with restart := none, restarts := min 0xFFFFFFFF (s.m.ctl.restarts + 1) }
          ∧ t.m.plan = s.m.plan ∧ t.m.run = s.m.run ∧ t.m.ctxs = s.m.ctxs ∧ t.m.hbm = s.m.hbm))
    ∧ (s.m.ctl.restart = some .activate →
        Happens .hearthRestartComplete s 0 [] { s.m.fresh with ctl := { s.m.ctl with restart := none } })

/-- LINK_DOWN, HOT_RESET, FUNCTION_LEVEL_RESET, CONVENTIONAL_RESET (R463) and IDE_FAIL (R527): the port's rings stop and
what it is owed is dropped, its attention byte clears, the other port sees ATTN_OWNER (and ATTN_FAULT for IDE_FAIL),
every ACTIVE region of the port is REVOKING without a ticket, its ownership lapses, its IDE session is gone; the
module's plan and memory stay. -/
def Obligations.LinkEventsEndAPort : Prop :=
  ∀ (s : State) (p : Nat), s.Quiet → s.m.ctl.state ≠ .off → p < 2 →
    let ended := fun (a : Byte) (t : State) =>
      t.io.port p = { (s.io.port p).stop with attn := 0 }
      ∧ t.io.port (1 - p) = { s.io.port (1 - p) with attn := (s.io.port (1 - p)).attn ||| a }
      ∧ t.io.mem = s.io.mem
      ∧ t.m.regions = (s.m.revokePort p).regions
      ∧ t.m.ctl = (if s.m.ctl.owner = some p then { s.m.ctl with lapsed := true } else s.m.ctl)
      ∧ (t.m.link p).session = none ∧ (t.m.link p).activeKey = none ∧ t.m.link (1 - p) = s.m.link (1 - p)
      ∧ t.m.plan = s.m.plan ∧ t.m.run = s.m.run ∧ t.m.hbm = s.m.hbm
    Completes (.linkDown p) s (ended Attn.owner) ∧ Completes (.hotReset p) s (ended Attn.owner)
    ∧ Completes (.functionLevelReset p) s (ended Attn.owner) ∧ Completes (.conventionalReset p) s (ended Attn.owner)
    ∧ Completes (.ideFail p) s (ended (Attn.owner ||| Attn.fault))

/-- GET_MEASUREMENTS, KEY_EXCHANGE, IDE_KM_KEY_PROG, K_SET_GO (R526): the measurements are the answer of the mailbox; a
session is established with the identity key's signature, a free value (assumption log 3); a key is programmed inside a
session, and becomes the active one at K_SET_GO. Rests on the model's readings of assumption logs 3, 26. -/
def Obligations.SpdmSessionsAndKeys : Prop :=
  ∀ (s : State) (p : Nat), s.Quiet → s.m.ctl.state ≠ .off → p < 2 →
    Happens (.getMeasurements p) s 0 [] { s.m.fresh with side := { s.m.side with doeOut := s.m.measurements } }
    ∧ (∀ key, s.m.side.scopes = 0 →
        Happens (.keyExchange p key) s 0 []
          { s.m.fresh.setLink p (fun l => { l with session := some key }) with
            free := s.m.free + 1, side := { s.m.side with doeOut := signature s.m.free (leBytes 64 key) } })
    ∧ (∀ key k, (s.m.link p).session = some k →
        Happens (.ideKmKeyProg p key) s 0 [] (s.m.fresh.setLink p (fun l => { l with progKey := some key })))
    ∧ (∀ k, (s.m.link p).progKey = some k →
        Happens (.kSetGo p) s 0 [] (s.m.fresh.setLink p (fun l => { l with activeKey := some k, progKey := none })))

/-- ENTDAA, SETDASA, SETAASA, RSTDAA, the characteristics, SIDEBAND_BUFFER_READ (R552, R553): while the standby supply
is up each sets or drops the dynamic address, or puts bytes on the bus, and changes nothing else. The characteristics'
values are free constants (assumption log 3). Rests on the model's readings of assumption logs 1, 3, 25. -/
def Obligations.SidebandAddressesAndReads : Prop :=
  ∀ s : State, s.m.ctl.state ≠ .off →
    let puts := fun (i : Instr) (x : Side) => exec i s = .next { s with m := { s.m with side := x } }
    (∀ a, puts (.entdaa a) { s.m.side with dynAddr := some a }) ∧ (∀ a, puts (.setdasa a) { s.m.side with dynAddr := some a })
    ∧ puts .setaasa { s.m.side with dynAddr := some (0x50 + Config.position % 8) }
    ∧ puts .rstdaa { s.m.side with dynAddr := none }
    ∧ puts .getpid { s.m.side with i3cOut := Config.i3cAnswer 0 } ∧ puts .getbcr { s.m.side with i3cOut := Config.i3cAnswer 1 }
    ∧ puts .getdcr { s.m.side with i3cOut := Config.i3cAnswer 2 }
    ∧ puts .getstatus { s.m.side with i3cOut := Config.i3cAnswer 3 }
    ∧ puts .getmwl { s.m.side with i3cOut := Config.i3cAnswer 4 } ∧ puts .getmrl { s.m.side with i3cOut := Config.i3cAnswer 5 }
    ∧ ∀ (o : Half) (n : Nat), puts (.sidebandBufferRead o n)
        { s.m.side with offset := o.toNat,
                        i3cOut := ((fitBytes 20480 s.m.side.buffer).drop o.toNat).take (min n 20480) }

/-- SIDEBAND_COMMAND (R553): a NOP and a STATUS_READ of the sideband are answered in the target's reply register with
the sideband's own serial and the OR of both attention bytes; no ring is touched. Rests on the model's readings of
assumption log 25. -/
def Obligations.SidebandCommandReplies : Prop :=
  ∀ (s : State) (p : Bytes), s.Quiet → s.m.ctl.state ≠ .off → s.m.ctl.restart = none → packetRsv p = 0 →
    noBuffer (sideCmd p) = true →
    let answer := fun (op : Nat) (result : Bytes) =>
      exec (.sidebandCommand p) s = .next { s with
        m := { s.m.fresh with side := { s.m.side with
          serial := s.m.side.serial + 1,
          reply := replyBytes (s.m.side.serial + 1) (BitVec.ofNat 32 (fieldAt p 4 4)) (s.io.p0.attn ||| s.io.p1.attn) Cls.ok
            Detail.none op 0 result } } }
    (fieldAt p 0 2 = Op.nop → answer Op.nop [])
    ∧ (fieldAt p 0 2 = Op.statusRead → answer Op.statusRead (s.m.status 2))

/-- BENCH_READ and BENCH_STATUS_READ (R551): with the standby supply down the ash memory is shifted out byte by byte and
the status byte is 1; with the supply up the line stays low. Each sets the session flag of R550. Rests on the model's
readings of assumption log 25. -/
def Obligations.BenchReadsAsh : Prop :=
  ∀ s : State,
    let shifts := fun (i : Instr) (bs : Bytes) =>
      exec i s = .next { s with m := { s.m with side := { s.m.side with benchOut := bs }, ash := { s.m.ash with bench := true } } }
    (∀ (a : Word) (n : Nat), a.toNat < 2 ^ 26 →
      (s.m.ctl.state = .off →
        shifts (.benchRead a n) ((List.range n).map (fun i => s.m.ash.byte (a.toNat + i))))
      ∧ (s.m.ctl.state ≠ .off → shifts (.benchRead a n) (zeros n)))
    ∧ (s.m.ctl.state = .off → shifts .benchStatusRead [1]) ∧ (s.m.ctl.state ≠ .off → shifts .benchStatusRead [0])

/-! ### The guard logic -/

/-- Every trip (R495, R530, R535, R538) with rails up: the module is TRIPPED, last_trip names the cause, a cause that
does not clear by itself is held, both switches are open (a shorted switch conducts on), plan, round, contexts and
memory are gone. Rests on the model's readings of assumption log 28. -/
def Obligations.TripsOpenTheRails : Prop :=
  ∀ s : State, s.m.railsUp = true →
    let tripped := fun (c : Trip) (a b : Bool) (t : State) =>
      t.m.ctl.state = .tripped ∧ t.m.pwr.guard.lastTrip = Trip.code c ∧ (Trip.brief c = false → c ∈ t.m.pwr.guard.causes)
      ∧ t.m.pwr.guard.swA = a ∧ t.m.pwr.guard.swB = b ∧ t.m.plan.st = .none ∧ t.m.plan.plan = none
      ∧ t.m.run = Run.idle ∧ t.m.ctxs = [] ∧ t.m.hbm.mem = []
    let held := s.m.pwr.guard.causes
    (∀ v, .undervolt ∉ held → Completes (.tripUndervolt v) s (tripped .undervolt false false))
    ∧ (∀ v, .overvolt ∉ held → Completes (.tripOvervolt v) s (tripped .overvolt false false))
    ∧ (∀ fast iin, .current ∉ held → Completes (.tripCurrent fast iin) s (tripped .current false false))
    ∧ (∀ x temp, .thermal ∉ held → Completes (.tripThermal x temp) s (tripped .thermal false false))
    ∧ (∀ x temp, .sensor ∉ held → Completes (.tripSensor x temp) s (tripped .sensor false false))
    ∧ (s.m.pwr.guard.coolOk = false → .flow ∉ held → Completes .tripFlow s (tripped .flow false false))
    ∧ (.leak ∉ held → Completes .tripLeak s (tripped .leak false false))
    ∧ (.precharge ∉ held → Completes .tripPrecharge s (tripped .precharge false false))
    ∧ (∀ b, .switch ∉ held → Completes (.tripSwitch b) s (tripped .switch (!b) b))

/-- A trip in STANDBY (R535, R538): no rail is up and the state stays; last_trip and the TRIP entry are recorded and
ATTN_SAFETY is set in both copies. Rests on the model's readings of assumption log 28. -/
def Obligations.TripInStandbyIsRecorded : Prop :=
  ∀ s : State, s.Quiet → s.m.ctl.state = .standby →
    let noted := fun (c : Trip) (body : Bytes) (t : State) =>
      Observed s t Attn.safety [] [] ∧ t.m.ctl = s.m.ctl ∧ t.m.pwr.guard.lastTrip = Trip.code c
      ∧ AshEntered s t 0x03 .guardLogic body
    (.leak ∉ s.m.pwr.guard.causes →
      Completes .tripLeak s (noted .leak (s.m.guardBody Detail.tripLeak 0xFF 1)))
    ∧ (∀ v, .overvolt ∉ s.m.pwr.guard.causes →
        Completes (.tripOvervolt v) s
          (noted .overvolt ((s.m.setGuard (fun g => { g with vin := v })).guardBody Detail.tripOvervolt 0xFF 1)))

/-- WARN_INPUT, WARN_THERMAL, WARN_OVERLOAD and a COOL_OK drop shorter than 100 ms (R530, R535, R539): a WARN entry, the
attention bit, the sensed values; the module's state and its rails stay. COOL_OK_DEASSERT alone only notes the level.
Rests on the model's readings of assumption log 7. -/
def Obligations.WarningsAreRecorded : Prop :=
  ∀ s : State, s.Quiet →
    let warned := fun (a : Byte) (g : Guard) (detail index : Nat) (t : State) =>
      Observed s t a [] [] ∧ t.m.ctl = s.m.ctl ∧ t.m.pwr = { s.m.pwr with guard := g } ∧ t.m.plan = s.m.plan
      ∧ AshEntered s t 0x04 .guardLogic
          (({ s.m with pwr := { s.m.pwr with guard := g } } : Mod).guardBody detail index s.m.ctl.state.code)
    let g := s.m.pwr.guard
    (∀ v, s.m.railsUp = true →
      Completes (.warnInput v) s (warned Attn.safety { g with vin := v } Detail.warnInput 0xFF))
    ∧ (∀ x temp, s.m.ctl.state ≠ .off →
        Completes (.warnThermal x temp) s
          (warned Attn.thermal (g.sense x temp) Detail.warnThermal (if x < 0x1C then x else 0xFF)))
    ∧ (∀ iin pin, s.m.railsUp = true →
        Completes (.warnOverload iin pin) s
          (warned Attn.safety { g with iin := iin, pin := pin, iinPeak := max g.iinPeak iin } Detail.warnOverload 0xFF))
    ∧ (∀ ms, g.coolOk = false → ms < 100 → s.m.ctl.state ≠ .off →
        Completes (.coolOkAssert ms) s (warned Attn.safety { g with coolOk := true } Detail.warnFlow 0xFF))
    ∧ Happens .coolOkDeassert s 0 [] { s.m.fresh with pwr := { s.m.pwr with guard := { g with coolOk := false } } }

/-- Into and out of OFF (R494, R530, R533, R534, R536, R541): the loss of the input, of the standby supply or of the
tray signal takes the module to OFF, opens both switches and resets both register blocks; 52 V or more with tray-present
made and firmware that passes brings it to STANDBY with boot_count advanced; tray-present made again clears the lockout;
a cause that has cleared is held no longer, except a switch fault. Rests on the model's readings of assumption logs 1,
24. -/
def Obligations.PowerComesAndGoes : Prop :=
  ∀ s : State, s.Quiet →
    let dark := fun (t : State) =>
      t.m.ctl.state = .off ∧ t.io.p0 = Port.reset ∧ t.io.p1 = Port.reset ∧ t.m.pwr.guard.swA = false
      ∧ t.m.pwr.guard.swB = false ∧ t.m.pwr.guard.standby = false ∧ t.m.plan.st = .none ∧ t.m.hbm.mem = []
      ∧ t.m.ctl.owner = none ∧ t.m.log.recs = []
    let g := s.m.pwr.guard
    (∀ v, s.m.ctl.state ≠ .off → Completes (.inputLost v) s dark)
    ∧ (s.m.ctl.state ≠ .off → Completes .standbySupplyLost s dark)
    ∧ (s.m.ctl.state ≠ .off → Completes .trayPresentBreak s (fun t => dark t ∧ t.m.pwr.guard.present = false))
    ∧ (∀ v f, s.m.ctl.state = .off → 5200 ≤ v → g.present = true → s.m.fw.boot = some f →
        Completes (.inputPowerUp v) s (fun t =>
          t.m.ctl.state = .standby ∧ t.m.pwr.guard.standby = true ∧ t.m.pwr.guard.vin = v ∧ t.m.fw = f
          ∧ t.m.ctl.bootCount = min 0xFFFF (s.m.ctl.bootCount + 1) ∧ t.m.ash.bench = false))
    ∧ (g.present = false →
        Happens .trayPresentMake s 0 []
          { s.m.fresh with pwr := { s.m.pwr with guard := { g with present := true, lockout := false } } })
    ∧ (∀ c : Trip, c ≠ .switch →
        Happens (.tripCauseCleared c) s 0 []
          { s.m.fresh with pwr := { s.m.pwr with guard := { g with causes := g.causes.filter (fun x => x != c) } } })
    ∧ Happens (.tripCauseCleared .switch) s 0 [] s.m.fresh

/-- PHASE_LOST and RAIL_TRIP of a core group (R41): a lost phase leaves the group with the rest and is counted, with a
record and ATTN_SAFETY; a core group with four healthy phases or fewer trips its rail, and its core is OFF. Rests on the
model's readings of assumption log 29. Rests on the model's readings of assumption log 29. -/
def Obligations.RegulatorPhasesAndCoreRails : Prop :=
  ∀ (s : State) (g : Nat), s.Quiet → s.m.railsUp = true →
    (∀ ph, g < 24 → ph < 6 → bit (s.m.group g).mask ph = true →
      Completes (.phaseLost g ph) s (fun t =>
        Observed s t Attn.safety [] []
        ∧ t.m.pwr = { s.m.pwr with
            groups := SMap.upd Group.whole s.m.pwr.groups g (fun x => { x with mask := (s.m.group g).mask - 2 ^ ph }) }
        ∧ t.m.ctl = s.m.ctl ∧ t.m.plan = s.m.plan))
    ∧ (g < 16 → healthyPhases (s.m.group g).mask ≤ 4 → s.m.rail (g / 2) ≠ 3 → s.m.tests.margin = none →
        Completes (.railTrip g) s (fun t =>
          t.m.pwr.cores = SMap.upd CoreRec.off s.m.pwr.cores (g / 2)
            (fun r => { r with ps := .off, op := 0, kindling := false, changing := false, kindleWait := none, kindleDone := none })
          ∧ t.m.rail (g / 2) = 3 ∧ t.m.pwr.guard.lastTrip = Detail.railTrip
          ∧ t.m.ctl.state = s.m.ctl.state))

/-! ### Start-up and power states -/

/-- A cold start (R497, R498, R537) goes stage by stage, in this order: the guard self-test and the rails, kindling
mode, built-in test, clusters from the spare map, HBM (all zero, partition 64/4/16/0, all stacks ON), channels; then the
module is READY, no port owns it (R482) and the command completes OK. A self-test that fails opens the rails and
completes it FAULTED. Rests on the model's readings of assumption log 7. Rests on the model's readings of assumption log
7. -/
def Obligations.ColdStartGoesStageByStage : Prop :=
  ∀ (s : State) (c : Cold), s.Quiet → s.m.pwr.cold = some c →
    let done := fun (n : Nat) (t : State) => t.m.pwr.cold = some ⟨c.ticket, n⟩ ∧ t.m.ctl = s.m.ctl ∧ t.m.plan = s.m.plan
    let cores := fun (f : CoreRec → CoreRec) =>
      (List.range 8).foldl (fun x k => SMap.upd CoreRec.off x k f) s.m.pwr.cores
    (c.stage = 0 → Completes (.guardSelfTestDone .pass) s (fun t => done 0 t ∧ t.m.pwr.guard.selfTestOk = true))
    ∧ (c.stage = 0 → Completes (.guardSelfTestDone .switchFail) s (fun t =>
        t.m.ctl.state = .standby ∧ t.m.pwr.cold = none ∧ t.m.pwr.guard.swA = false ∧ t.m.pwr.guard.swB = false
        ∧ (s.m.bank.upd = none →
            t.io = s.io.putCompletion ⟨c.ticket.port, c.ticket.tag, Op.pstateSet, Cls.faulted, Detail.tripSwitch, []⟩)))
    ∧ (c.stage = 0 → s.m.pwr.guard.selfTestOk = true → Completes (.coldStartStage .rails) s (fun t =>
        done 1 t ∧ t.m.pwr.rails = (List.range 16).foldl (fun x r => SMap.put 0 x r 2) s.m.pwr.rails))
    ∧ (c.stage = 1 → Completes (.coldStartStage .kindling) s (fun t =>
        done 2 t ∧ t.m.pwr.cores = cores (fun r => { r with ps := .idle, kindling := true })))
    ∧ (c.stage = 2 → ∀ failed seqs, Completes (.coldStartStage (.builtInTest failed seqs)) s (done 3))
    ∧ (c.stage = 3 → Completes (.coldStartStage .spareMap) s (fun t =>
        done 4 t ∧ t.m.pwr.cores = cores (fun r => { r with kindling := false })))
    ∧ (c.stage = 4 → ∀ retries, Completes (.coldStartStage (.hbmTrained retries)) s (fun t =>
        done 5 t ∧ t.m.hbm.w = 64 ∧ t.m.hbm.planGib = 4 ∧ t.m.hbm.settleGib = 16 ∧ t.m.hbm.bankGib = 0
        ∧ t.m.hbm.mem = SMap.keep s.m.hbm.mem (fun a => decide (hbmEnd ≤ a))
        ∧ t.m.pwr.hbmStacks = (List.range 12).map (fun k => (k, ⟨2, 1⟩))))
    ∧ (c.stage = 5 → Completes (.coldStartStage .channels) s (fun t =>
        done 6 t ∧ t.m.fab.chans = (List.range 28).foldl (fun x k => SMap.upd Chan.off x k (fun x =>
          { x with powered := true, st := if x.st = .disabled then .disabled else .training })) s.m.fab.chans))
    ∧ (c.stage = 6 → Completes .coldStartComplete s (fun t =>
        t.m.ctl.state = .ready ∧ t.m.ctl.owner = none ∧ t.m.pwr.cold = none ∧ t.m.link0.on = true ∧ t.m.link1.on = true
        ∧ t.io = (s.io.attend { Outbox.empty with attn := if s.m.ctl.owner = none then 0 else Attn.owner }).putCompletion
            ⟨c.ticket.port, c.ticket.tag, Op.pstateSet, Cls.ok, Detail.none, []⟩))

/-- PSTATE_SET (R503 to R507): a target that is in the commanded state already completes OK at once; module ON from
STANDBY begins a cold start in KINDLING with both switches closed; a core outside RUNNING, a stack or a channel takes
the change and completes later, when PSTATE_CHANGE_COMPLETE completes it OK and counts it. Rests on the model's readings
of assumption log 30. -/
def Obligations.PowerStatesChange : Prop :=
  (∀ (s : State) (h : Cmd) (kind index state op : Byte), s.Starts h → s.accepts Op.pstateSet →
    s.m.ctl.owner = some h.port → noBuffer h = true →
    pstateLegal kind.toNat index.toNat state.toNat op.toNat = true → s.m.ctl.refLost = false →
    s.m.changing kind.toNat index.toNat = false →
    let i := Instr.pstateSet h kind index state op
    (kind.toNat = 4 → state.toNat = 1 → s.m.ctl.state = .standby → s.m.pwr.guard.coolOk = true →
        s.m.pwr.guard.lockout = false →
      Completes i s (fun t =>
        Answered s t h 0 [] Op.pstateSet Cls.accepted Detail.none [] ∧ t.m.ctl.state = .kindling
        ∧ t.m.pwr.cold = some ⟨⟨h.port, h.tag⟩, 0⟩ ∧ t.m.pwr.guard.swA = true ∧ t.m.pwr.guard.swB = true
        ∧ t.m.log.next = 1))
    ∧ (kind.toNat = 0 → s.m.coreMayGo index.toNat state.toNat op.toNat = true → s.m.ctl.state = .ready →
        s.m.pstateSame 0 index.toNat state.toNat op.toNat = false →
      Completes i s (fun t =>
        Answered s t h 0 [] Op.pstateSet Cls.accepted Detail.none []
        ∧ t.m.pwr.cores = SMap.upd CoreRec.off s.m.pwr.cores index.toNat (fun r =>
            { r with ps := CorePs.ofCode state.toNat, op := if state.toNat = 3 then op.toNat else 0, changing := true,
                     kindling := if state.toNat = 0 then false else r.kindling })
        ∧ t.m.ctl.state = .ready))
    ∧ (kind.toNat ≤ 2 → s.m.ctl.state = .ready → s.m.pstateSame kind.toNat index.toNat state.toNat op.toNat = true →
        (kind.toNat = 0 → s.m.coreMayGo index.toNat state.toNat op.toNat = true) →
        (kind.toNat ≠ 0 → s.m.targetMayGo h.port kind.toNat index.toNat state.toNat = true) →
        s.m.bankRuns = false → s.m.streamBusy = false →
      Replies i s h 0 [] Op.pstateSet Cls.accepted [] (s.found h)
        [⟨h.port, h.tag, Op.pstateSet, Cls.ok, Detail.none, []⟩]))
  ∧ (∀ (s : State) (kind index : Nat) (c : Change), s.Quiet →
      s.m.pwr.changes.find? (fun c => c.kind == kind && c.index == index && c.applied) = some c →
      Completes (.pstateChangeComplete kind index) s (fun t =>
        Observed s t 0 [] [⟨c.ticket.port, c.ticket.tag, Op.pstateSet, Cls.ok, Detail.none, []⟩]
        ∧ t.m.pwr.changes = s.m.pwr.changes.filter (fun x => !(x.kind == c.kind && x.index == c.index))
        ∧ t.m.cnt = (s.m.count Cnt.pstateApplied 1).cnt))

/-- STACK_TRAINING_FAIL, CHANNEL_TRAIN_DONE, REFERENCE_LOSS and REFERENCE_RESTORED, PLL_LOCK_LOSS (R46, R47, R315, R497,
R498): a stack that fails four attempts ends the cold start or its STACK ON FAULTED; a channel that trains goes UP, a
spare with no role SHADOW; the channels stop with the reference and train again when it returns; a link without its PLL
is down, and a lost channel PLL loses the channel. Rests on the model's readings of assumption log 32. -/
def Obligations.TrainingAndClocks : Prop :=
  ∀ s : State, s.Quiet →
    (∀ k c, s.m.pwr.cold = some c → c.stage = 4 → k < 12 →
      Completes (.stackTrainingFail k) s (fun t =>
        t.m.ctl.state = .standby ∧ t.m.pwr.cold = none ∧ t.m.pwr.hbmStacks = []
        ∧ (s.m.bank.upd = none → t.io = ((s.io.attend { Outbox.empty with attn := Attn.fault }).putCompletion
            ⟨c.ticket.port, c.ticket.tag, Op.pstateSet, Cls.faulted, Detail.unitFenced, []⟩))))
    ∧ (∀ k, k < 28 → (s.m.chan k).powered = true → (s.m.chan k).st = .training →
        Happens (.channelTrainDone k true) s 0 []
          (s.m.fresh.setChan k (fun x =>
            { x with st := if (spareRole k).isSome && x.taken.isNone then .shadow else .up,
                     acked := 0, recvSeq := 0, tries := 0 })))
    ∧ (∀ k, k < 28 → (s.m.chan k).powered = true → (s.m.chan k).st = .training →
        Completes (.channelTrainDone k false) s (fun t => Observed s t 0 [] [] ∧ t.m.ctl = s.m.ctl
          ∧ t.m.cnt = (s.m.count Cnt.trainRetry 1).cnt))
    ∧ (s.m.ctl.refLost = false → s.m.ctl.state = .ready →
        Completes .referenceLoss s (fun t =>
          Observed s t Attn.fault [] [] ∧ t.m.ctl = { s.m.ctl with refLost := true }
          ∧ t.m.fab.chans = SMap.mapVals Chan.off s.m.fab.chans (fun c =>
              if c.st = .disabled then c else { c with st := .down })
          ∧ t.m.pwr = s.m.pwr ∧ t.m.plan = s.m.plan))
    ∧ (s.m.ctl.refLost = true →
        Completes .referenceRestored s (fun t =>
          Observed s t Attn.fault [] [] ∧ t.m.ctl = { s.m.ctl with refLost := false }
          ∧ t.m.fab.timeState
              = (if s.m.fab.configured = false then .free else if s.m.fab.timeParent = 0xFF then .locked else .acquiring)
          ∧ t.m.pwr = s.m.pwr ∧ t.m.plan = s.m.plan))
    ∧ (∀ n, n < 2 → s.powered = true → Completes (.pllLockLoss (.port n)) s (fun t =>
        t.m.ctl.state = s.m.ctl.state ∧ t.m.plan = s.m.plan ∧ (t.io.port n).running = false))
    ∧ (∀ k, s.m.railsUp = true →
        Completes (.pllLockLoss (.noc k)) s (fun t => Observed s t Attn.fault [] [] ∧ t.m.ctl = s.m.ctl ∧ t.m.fab = s.m.fresh.fab))

/-- KINDLING_ENTER, its completion, KINDLING_EXIT, DIAG_RUN and its completion (R500 to R502): outside RUNNING a core
enters kindling mode at once, in RUNNING it waits for the next round open; it leaves at once; a diagnostic of a core in
kindling mode stands until its results come, which free the core for the next one. Rests on the model's readings of
assumption logs 30, 31. -/
def Obligations.KindlingModeAndDiagnostics : Prop :=
  (∀ (s : State) (h : Cmd) (core : Byte), s.Starts h → s.m.ctl.owner = some h.port → s.m.ctl.refLost = false →
    let k := core.toNat
    let c := s.m.core k
    (k < 8 → noBuffer h = true → s.accepts Op.kindlingEnter → c.ps ≠ .off → c.ps ≠ .gated → c.kindling = false →
        c.kindleWait = none → s.m.noRelief k = false → s.m.corePending k = false →
      Completes (.kindlingEnter h core) s (fun t =>
        Answered s t h 0 [] Op.kindlingEnter Cls.accepted Detail.none []
        ∧ (s.m.plan.st = .running →
            (t.m.core k).kindleWait = some ⟨h.port, h.tag⟩ ∧ (t.m.core k).kindling = false)
        ∧ (s.m.plan.st ≠ .running →
            (t.m.core k).kindling = true ∧ (t.m.core k).kindleDone = some ⟨h.port, h.tag⟩)))
    ∧ (k < 8 → noBuffer h = true → s.accepts Op.kindlingExit → c.kindling = true →
        s.m.pwr.diags.any (fun d => d.core == k) = false →
      Replies (.kindlingExit h core) s h 0 [] Op.kindlingExit Cls.accepted []
        (((s.found h).setCore k (fun r => { r with kindling := false })).formCore k)
        [⟨h.port, h.tag, Op.kindlingExit, Cls.ok, Detail.none, []⟩])
    ∧ (∀ (diag : Byte) (unit : Half), k < 8 → diag.toNat < 3 → unitReserved unit.toNat = false →
        unitIllegal unit.toNat = false → unitCore unit.toNat = k →
        (s.found h).bufferOk h (16 + 16 * (diagUnits unit.toNat).length) true = true → s.accepts Op.diagRun →
        c.kindling = true → s.m.pwr.diags.any (fun d => d.core == k) = false →
      Replies (.diagRun h core diag unit) s h 0 [] Op.diagRun Cls.accepted []
        { s.found h with
          pwr := { s.m.pwr with diags := s.m.pwr.diags
            ++ [⟨k, diag.toNat, unit.toNat, ⟨h.port, h.tag⟩, h.bufRegion.toNat, h.bufOffset.toNat, []⟩] } }))
  ∧ (∀ s : State, s.Quiet →
      (∀ core w, (s.m.core core).kindleDone = some w →
        Happens (.kindlingEnterComplete core) s 0 [⟨w.port, w.tag, Op.kindlingEnter, Cls.ok, Detail.none, []⟩]
          (s.m.fresh.setCore core (fun r => { r with kindleDone := none })))
      ∧ (∀ core d results, s.m.pwr.diags.find? (fun d => d.core == core) = some d →
          Completes (.diagRunComplete core results) s (fun t =>
            t.m.pwr = { s.m.pwr with diags := s.m.pwr.diags.filter (fun x => x.core != d.core) }
            ∧ t.m.ctl = s.m.ctl ∧ t.m.plan = s.m.plan)))

/-- Firmware and evidence (R515, R517, R518, R523, R524, R549): FW_STAGE fills the inactive slot, judges it and enters
the ash record; FW_ACTIVATE raises the fuse counter to the image's version, switches slots, stops both rings; a quote
takes the next serial and goes to its buffer once signed; a good debug token opens its scopes and always spends the
challenge; ASH_NOTE answers its entry's serial. Rests on the model's readings of assumption logs 3, 11, 12, 26, 27. -/
def Obligations.FirmwareQuotesAndNotes : Prop :=
  (∀ (s : State) (h : Cmd), s.Starts h →
    (∀ header, s.m.ctl.owner = some h.port → s.accepts Op.fwStage → s.m.fw.staging = none →
        (s.found h).bufferOk h (fwLength header) false = true →
      Replies (.fwStage h (.data header)) s h 0 [] Op.fwStage Cls.accepted []
        { s.found h with fw := { s.m.fw with staging := some ⟨h.port, h.tag⟩ } })
    ∧ (∀ blown, s.m.ctl.owner = some h.port → s.accepts Op.fwActivate → noBuffer h = true → s.m.fw.staged = true →
        s.m.ctl.state = .standby → s.m.side.scopes = 0 → s.m.fw.staging = none → s.m.bankBusy = false →
        s.m.fw.other.judge s.m.fw.fuses = (Cls.ok, Detail.none) →
        s.m.fw.other.security ≤ max s.m.fw.fuses blown →
      Completes (.fwActivate h blown) s (fun t =>
        t.m.fw = { s.m.fw with
          fuses := max s.m.fw.fuses s.m.fw.other.security, active := 1 - s.m.fw.active, staged := false }
        ∧ t.m.ctl.restart = some .activate ∧ t.io.p0.running = false ∧ t.io.p1.running = false))
    ∧ (∀ nonce, s.accepts Op.attestQuote → (s.found h).bufferOk h 1728 true = true → s.m.fw.quote = none →
        s.m.side.scopes = 0 →
      Completes (.attestQuote h nonce) s (fun t =>
        Answered s t h 0 [] Op.attestQuote Cls.accepted Detail.none []
        ∧ t.m.fw = { s.m.fw with
            quoteSerial := s.m.fw.quoteSerial + 1,
            quote := some ⟨⟨h.port, h.tag⟩, h.bufRegion.toNat, h.bufOffset.toNat,
              s.m.quoteHead nonce (s.m.fw.quoteSerial + 1) (Config.freeNat s.m.free % 1280 + 1)⟩ }))
    ∧ (∀ note, s.m.ctl.owner = some h.port → s.accepts Op.ashNote → noBuffer h = true →
        s.m.ash.noteAt h.port ≠ some s.m.ctl.powerOnMs →
      Completes (.ashNote h note) s (fun t =>
        Answered s t h 0 [] Op.ashNote Cls.ok Detail.none (leBytes 4 s.m.ash.next.toNat)
        ∧ AshEntered s t 0x08 (.host h.port) (leBytes 40 note.toNat))))
  ∧ (∀ s : State, s.Quiet →
      (∀ img w, s.m.fw.staging = some w →
        let r := (Slot.ofImage img).judge s.m.fw.fuses
        Completes (.fwStageComplete img) s (fun t =>
          Observed s t 0 [] [⟨w.port, w.tag, Op.fwStage, r.1, r.2, []⟩]
          ∧ t.m.fw = { s.m.fw.setOther (Slot.ofImage img) with staged := decide (r.1 = Cls.ok), staging := none }))
      ∧ (∀ q, s.m.fw.quote = some q → q.ticket.port ≠ 2 →
          s.m.regionCovers q.ticket.port q.region q.offset 1728 true = true →
          let r := SMap.get Region.free s.m.regions q.region
          Completes .attestQuoteSigned s (fun t =>
            Observed s t 0 [⟨r.port, r.base + q.offset, quoteBytes s.m.free q.head⟩]
              [⟨q.ticket.port, q.ticket.tag, Op.attestQuote, Cls.ok, Detail.none, []⟩]
            ∧ t.m.fw = { s.m.fw with quote := none }))
      ∧ (∀ token, s.powered = true →
          let good := (s.m.tokenFault token).isNone
          Completes (.debugToken token) s (fun t =>
            Observed s t (if good then Attn.log else 0) [] []
            ∧ t.m.side = { s.m.side with
                challenge := s.m.free,
                scopes := if good then s.m.side.scopes ||| fieldAt token 0xA 2 else s.m.side.scopes })))

/-- HOST_ERROR (R462; R93, R517, R426, R453, R197): what reads host memory ends. PLAN_LOAD completes FAULTED and leaves
the plan FAILED; FW_STAGE leaves an invalid inactive slot and no staged image; PATTERN_INSTALL installs nothing; a
RELIGHT from host memory ends; a command stream takes the cause of its hold. Rests on the model's readings of assumption
logs 27, 42, 61, 71. -/
def Obligations.HostErrorsEndReaders : Prop :=
  ∀ s : State, s.Quiet →
    let faulted := fun (t : Ticket) (op : Nat) => (⟨t.port, t.tag, op, Cls.faulted, Detail.hostError, []⟩ : Reply)
    (∀ w, s.m.plan.loading = some w →
      Happens (.hostError .planImage) s 0 [faulted w Op.planLoad]
        { s.m.fresh with plan := { s.m.plan with st := .failed, failCheck := 0, loading := none } })
    ∧ (∀ w, s.m.fw.staging = some w →
      Happens (.hostError .firmware) s 0 [faulted w Op.fwStage]
        { s.m.fresh with fw := { s.m.fw.setOther Slot.blank with staged := false, staging := none } })
    ∧ (∀ w bs, s.m.tests.install = some (w, bs) →
      Happens (.hostError .package) s 0 [faulted w Op.patternInstall]
        { s.m.fresh with tests := { s.m.tests with install := none } })
    ∧ (∀ r, s.m.bank.relight = some r → r.source = 1 →
      Happens (.hostError .relight) s 0 [faulted r.ticket Op.relight]
        { s.m.fresh with bank := { s.m.bank with relight := none, relightFailed := true } })
    ∧ (∀ handle n c, s.m.ctx handle = some c → c.st = .active → c.desc.srcHost = true → c.cause = 0 →
      Happens (.hostError (.stream handle n)) s 0 []
        (s.m.fresh.setCtx handle (some { c with cause := 3 })))

/-- HBM_PARTITION and its completion (R148, R150), HBM_PATROL and HBM_POISON_READ (R152, R154, R155, R157; R141): a
repartition sets the four sizes and zeroes HBM outside a bank region that stays; one bad symbol is corrected and counted
for the hour, two or more poison the codeword, which is reported and keeps its symbols; a poisoned read by an item in
RUN sends the item back, one by a combine marks the round for a douse; an address that no memory decodes faults the
machine. Rests on the model's readings of assumption logs 5, 6, 72. -/
def Obligations.PartitionsAndPoison : Prop :=
  (∀ (s : State) (h : Cmd) (w : Half) (p g : Byte) (b : Half), s.Starts h → s.m.ctl.owner = some h.port →
      s.accepts Op.hbmPartition → noBuffer h = true → 0 < w.toNat → w.toNat ≤ 192 → 0 < p.toNat → p.toNat ≤ 4 →
      0 < g.toNat → g.toNat ≤ 64 → b.toNat ≤ 384 → p.toNat + g.toNat + b.toNat ≤ 3 * w.toNat →
      s.m.ctl.state = .ready → s.m.noPlan = true → s.m.ctl.refLost = false → s.m.stacksOn = true →
      s.m.bankRuns = false → s.m.streamBusy = false →
    Completes (.hbmPartition h w p g b) s (fun t =>
      Answered s t h 0 [] Op.hbmPartition Cls.accepted Detail.none []
      ∧ t.m.hbm.w = w.toNat ∧ t.m.hbm.planGib = p.toNat ∧ t.m.hbm.settleGib = g.toNat ∧ t.m.hbm.bankGib = b.toNat
      ∧ t.m.hbm.repart = some ⟨h.port, h.tag⟩
      ∧ (w.toNat ≠ s.m.hbm.w → t.m.hbm.mem = SMap.keep s.m.hbm.mem (fun a => decide (hbmEnd ≤ a)))))
  ∧ (∀ s : State, s.Quiet →
      (∀ w, s.m.hbm.repart = some w →
        Happens .hbmPartitionComplete s 0 [⟨w.port, w.tag, Op.hbmPartition, Cls.ok, Detail.none, []⟩]
          { s.m.fresh with hbm := { s.m.hbm with repart := none } })
      ∧ (∀ a symbols, hbmEnd ≤ a → exec (.hbmPatrol a symbols) s = .fault .unmappedAccess)
      ∧ (∀ a symbols, a < hbmEnd → s.m.dataPlane = true → (s.m.stack (s.m.hbm.decode a).1).ps = 2 →
          2 ≤ symbols.length →
          Completes (.hbmPatrol a symbols) s (fun t =>
            Observed s t Attn.fault [] [] ∧ SMap.get [] t.m.hbm.poison (a / 64 * 64) = symbols
            ∧ t.m.hbm.poisonSeen.getLast? = some (s.m.ctl.powerOnMs, s.m.hbm.pcOf a) ∧ t.m.hbm.mem = s.m.hbm.mem))
      ∧ (∀ a x reader, a < hbmEnd → s.m.dataPlane = true → (s.m.stack (s.m.hbm.decode a).1).ps = 2 →
          SMap.get [] s.m.hbm.poison (a / 64 * 64) = [] →
          Completes (.hbmPoisonRead a [x] reader) s (fun t =>
            t.m.hbm.mem = s.m.hbm.mem ∧ t.m.hbm.poison = s.m.hbm.poison ∧ t.m.run = s.m.run
            ∧ SMap.get 0 t.m.hbm.fixes (s.m.hbm.pcOf a)
              = (if s.m.powerOnS / 3600 = s.m.hbm.hour then SMap.get 0 s.m.hbm.fixes (s.m.hbm.pcOf a) else 0) + 1))
      ∧ (∀ a symbols n, a < hbmEnd → s.m.dataPlane = true → (s.m.stack (s.m.hbm.decode a).1).ps = 2 →
          2 ≤ symbols.length → s.m.run.phase = .run → (s.m.ent n).st = .running →
          Completes (.hbmPoisonRead a symbols (.item n)) s (fun t =>
            SMap.get [] t.m.hbm.poison (a / 64 * 64) = symbols
            ∧ t.m.run.ents = SMap.upd Ent.free s.m.run.ents n Ent.back))
      ∧ (∀ a symbols n, a < hbmEnd → s.m.dataPlane = true → (s.m.stack (s.m.hbm.decode a).1).ps = 2 →
          2 ≤ symbols.length → s.m.run.phase = .run → s.m.run.mark = none →
          Completes (.hbmPoisonRead a symbols (.combine n)) s (fun t => t.m.run.mark = some Douse.fence))
      ∧ (∀ a symbols reader, hbmEnd ≤ a →
          (List.range 8).any (fun c => decide (poolBase c ≤ a) && decide (a < poolBase c + poolSize)) = false →
          exec (.hbmPoisonRead a symbols reader) s = .fault .unmappedAccess))

/-! ### Plans and command streams -/

/-- PLAN_LOAD and its completion (R91, R93, R111): the load starts in LOADING with the image's header and a fresh
progress; the image that has come is judged: LOADED with the plan it spells, completed OK, or FAILED with the first
failed check, completed REJECTED. Rests on the model's readings of assumption logs 2, 62, 63, 64, 65, 66, 67, 68, 69,
70, 71. -/
def Obligations.PlanLoadJudgesTheImage : Prop :=
  (∀ (s : State) (h : Cmd) (header : Bytes), s.Starts h → s.accepts Op.planLoad → s.m.ctl.owner = some h.port →
      s.m.ctl.state = .ready → (s.m.plan.st = .none ∨ s.m.plan.st = .failed) → s.m.ctl.refLost = false →
      (s.found h).bufferOk h (s.m.imageLength header) false = true →
    Completes (.planLoad h (.data header)) s (fun t =>
      Answered s t h 0 [] Op.planLoad Cls.accepted Detail.none []
      ∧ t.m.plan.st = .loading ∧ t.m.plan.loading = some ⟨h.port, h.tag⟩ ∧ t.m.plan.header = fitBytes 64 header
      ∧ t.m.plan.plan = none ∧ t.m.run = s.m.run ∧ t.m.hbm = s.m.hbm))
  ∧ (∀ (s : State) (image : Bytes) (w : Ticket), s.Quiet → s.m.plan.loading = some w →
      let m := s.m.fresh
      imgSize m.plan.header ≤ m.hbm.planArea.hi - m.hbm.planArea.lo →
      let img := fitBytes (m.imageLength m.plan.header) image
      let stored := m.wr m.hbm.planArea.lo img
      Completes (.planLoadComplete image) s (fun t =>
        t.m.ctl = s.m.ctl ∧ t.m.hbm = stored.hbm ∧ t.m.plan.measurement = digest64 img ∧ t.m.plan.loading = none
        ∧ match stored.imageFail img with
          | none =>
            Observed s t 0 [] [⟨w.port, w.tag, Op.planLoad, Cls.ok, Detail.none, zeros 16⟩]
            ∧ t.m.plan.st = .loaded ∧ t.m.plan.plan = some (parsePlan img)
          | some f =>
            Observed s t 0 [] [⟨w.port, w.tag, Op.planLoad, Cls.rejected, Detail.validationFail, f.result⟩]
            ∧ t.m.plan.st = .failed ∧ t.m.plan.failCheck = f.check ∧ t.m.plan.failSection = f.section_
            ∧ t.m.plan.failSub = f.sub ∧ t.m.plan.failOffset = f.offset ∧ t.m.plan.plan = s.m.plan.plan))

/-- PLAN_START, PLAN_RESUME, PLAN_HALT, PLAN_UNLOAD and its completion (R91, R92, R494): a plan starts from READY and
resumes from HALTED into RUNNING; a PLAN_HALT in a run phase waits, one while a round waits to open halts at once and
completes every pending PLAN_HALT; an unload leaves READY with no plan and completes later. Stated where no packet or
flag message of the round came early. Rests on the model's readings of assumption log 34. -/
def Obligations.PlansStartHaltAndUnload : Prop :=
  ∀ (s : State) (h : Cmd), s.Starts h → s.m.ctl.owner = some h.port → noBuffer h = true →
    let ticket : Ticket := ⟨h.port, h.tag⟩
    let running := fun (t : State) => t.m.ctl.state = .running ∧ t.m.plan.st = .running
    (s.accepts Op.planStart → s.m.ctl.state = .ready → s.m.plan.st = .loaded → s.m.cannotRun = false →
        s.m.bank.relightFailed = false → (s.m.usesFabric = true → s.m.fab.configured = true) →
        s.m.bank.relight = none → s.m.planMetByStream = false → s.m.fab.early = [] → s.m.fab.flagWait = [] →
      Completes (.planStart h) s (fun t =>
        running t ∧ t.m.plan.halts = [] ∧ t.m.plan.plan = s.m.plan.plan
        ∧ ∃ a, Answered s t h a [] Op.planStart Cls.ok Detail.none []))
    ∧ (s.accepts Op.planResume → s.m.ctl.state = .halted → s.m.plan.st = .halted → s.m.cannotRun = false →
        s.m.planMetByStream = false → s.m.hdr.isSome = true → s.m.plan.halts = [] → s.m.fab.early = [] →
        s.m.fab.flagWait = [] →
      Completes (.planResume h) s (fun t =>
        running t ∧ t.m.plan.plan = s.m.plan.plan
        ∧ Answered s t h 0 [] Op.planResume Cls.ok Detail.none []))
    ∧ (s.accepts Op.planHalt → s.m.ctl.state = .running → s.m.run.phase = .run → s.m.lateWait = false →
      Replies (.planHalt h) s h 0 [] Op.planHalt Cls.accepted []
        { s.found h with plan := { s.m.plan with halts := s.m.plan.halts ++ [ticket] } })
    ∧ (s.accepts Op.planHalt → s.m.ctl.state = .running → s.m.run.phase = .waiting →
      Completes (.planHalt h) s (fun t =>
        Answered s t h 0 [] Op.planHalt Cls.accepted Detail.none []
          ((s.m.plan.halts ++ [ticket]).map (fun t => ⟨t.port, t.tag, Op.planHalt, Cls.ok, Detail.none, []⟩))
        ∧ t.m.ctl.state = .halted ∧ t.m.plan.st = .halted ∧ t.m.plan.halts = []
        ∧ t.m.plan.haltKind = (if s.m.plan.reopen then 2 else 1) ∧ t.m.run.phase = .none))
    ∧ (s.accepts Op.planUnload → (s.m.ctl.state = .ready ∨ s.m.ctl.state = .halted ∨ s.m.ctl.state = .expelled) →
        (s.m.plan.st = .loaded ∨ s.m.plan.st = .halted ∨ s.m.plan.st = .failed) →
      Completes (.planUnload h) s (fun t =>
        t.m.ctl.state = .ready ∧ t.m.plan.st = .none ∧ t.m.plan.plan = none ∧ t.m.run = Run.idle
        ∧ t.m.plan.unload = some ticket))
    ∧ (∀ w, s.m.plan.unload = some w →
        Happens .planUnloadComplete s 0 [⟨w.port, w.tag, Op.planUnload, Cls.ok, Detail.none, []⟩]
          { s.m.fresh with plan := { s.m.plan with unload := none } })

/-- Command streams (R199, R200, R204, R206): STREAM_CREATE takes the lowest free context of the home core and answers
its handle; STREAM_ARM starts a generation of an IDLE stream; its completion makes the stream IDLE again, or starts the
pending generation, and completes the command; a HELD stream resumes ACTIVE; retiring an IDLE stream frees its context.
Rests on the model's readings of assumption logs 15, 42. -/
def Obligations.CommandStreams : Prop :=
  (∀ (s : State) (h : Cmd), s.Starts h → s.m.ctl.refLost = false →
    (∀ desc handle rest,
        let bs := fitBytes 128 desc
        let d := parseStream bs
        s.accepts Op.streamCreate → (s.found h).bufferOk h 128 false = true → streamWordsBad bs = false →
        s.m.commandSub d = 0 → s.m.cmdCtxs d.homeCore = handle :: rest →
      Replies (.streamCreate h (.data desc)) s h 0 [] Op.streamCreate Cls.ok (leBytes 4 handle)
        ((s.found h).setCtx handle (some (Ctx.fresh .command .idle 0xFFFFFFFF h.port d))))
    ∧ (∀ (handle : Word) c, handle.toNat ≤ 4095 → noBuffer h = true → s.m.ctx handle.toNat = some c →
        c.use = .command → c.port = h.port →
        (∀ (src dst : Dword),
            let d := { c.desc with srcBase := if src.toNat = 0 then c.desc.srcBase else src.toNat,
                                   dstBase := if dst.toNat = 0 then c.desc.dstBase else dst.toNat }
            s.accepts Op.streamArm → c.st = .idle → s.m.commandSub d = 0 → s.m.keptOut d = false →
          Replies (.streamArm h handle src dst) s h 0 [] Op.streamArm Cls.accepted []
            ((s.found h).setCtx handle.toNat (some (c.generation d.srcBase d.dstBase ⟨h.port, h.tag⟩))))
        ∧ (s.accepts Op.streamResume → c.st = .held → s.m.resumable c = true → c.cause ≠ 4 →
          Replies (.streamResume h handle) s h 0 [] Op.streamResume Cls.ok []
            ((s.found h).setCtx handle.toNat (some { c with st := .active, cause := 0 })))
        ∧ (s.accepts Op.streamRetire → c.st = .idle →
          Replies (.streamRetire h handle) s h 0 [] Op.streamRetire Cls.ok []
            ((s.found h).setCtx handle.toNat none))))
  ∧ (∀ (s : State) handle data c w, s.Quiet → s.m.ctx handle = some c → c.use = .command → c.st = .active →
      c.cause = 0 → s.m.dataPlane = true → c.desc.dataFits none c.resume c.desc.positions data = true →
      s.m.settledOk c c.resume c.desc.positions = true → c.ticket = some w →
      Completes (.commandStreamComplete handle data) s (fun t =>
        (∃ ws, Observed s t 0 ws [⟨w.port, w.tag, Op.streamArm, Cls.ok, Detail.none, []⟩])
        ∧ t.m.ctx handle = some (match c.pend with
            | some g => c.generation g.src g.dst g.ticket
            | none => { c with st := .idle, cause := 0, resume := 0, ticket := none })
        ∧ t.m.ctl = s.m.ctl))

/-! ### Steps, exports, the bank -/

/-- STEP_BEGIN, GROUP_SET, SNAPSHOT_EXPORT and its completion (R101, R376, R378, R405, R406): an admission joins the
queue; a group's values are staged; an export takes the lowest free context of its core and answers the handle; its end
frees the context and completes OK. Rests on the model's readings of assumption logs 15, 38, 59. -/
def Obligations.StepsGroupsAndExports : Prop :=
  (∀ (s : State) (h : Cmd), s.Starts h → s.m.holdsPlan = true →
    (∀ (step : Word) (lr clip : F32), s.m.ctl.owner = some h.port → s.accepts Op.stepBegin → noBuffer h = true →
        stepValueOk lr = true → stepValueOk clip = true → s.m.hasBody = true → s.m.step.admissions.length < 2 →
        s.m.run.phase ≠ .waiting →
      Replies (.stepBegin h step lr clip 0) s h 0 [] Op.stepBegin Cls.ok []
        { s.found h with step := { s.m.step with admissions := s.m.step.admissions ++ [⟨step, lr, clip⟩] } })
    ∧ (∀ (id : Half) (lr decay : F32) p, s.m.ctl.owner = some h.port → s.accepts Op.groupSet → noBuffer h = true →
        id.toNat ≤ 255 → stepValueOk lr = true → stepValueOk decay = true → s.m.hasBody = true →
        s.m.plan.plan = some p → p.hasGroup id.toNat = true →
      Replies (.groupSet h id lr decay) s h 0 [] Op.groupSet Cls.ok []
        { s.found h with step := { s.m.step with
          stagedGroups := SMap.ins id.toNat ⟨lr, decay⟩ s.m.step.stagedGroups } })
    ∧ (∀ (set : Half) (mode : Byte) e handle rest, s.accepts Op.snapshotExport →
        s.m.exportBad h set.toNat mode.toNat = false → s.m.ctl.refLost = false → s.m.oldestExport set.toNat = none →
        s.m.exportEntry set.toNat = some e → s.m.cmdCtxs (set.toNat % 8) = handle :: rest →
      Completes (.snapshotExport h set mode) s (fun t =>
        Answered s t h 0 [] Op.snapshotExport Cls.accepted Detail.none (leBytes 4 handle)
        ∧ (∃ c, t.m.ctx handle = some c ∧ c.use = .snapshot ∧ c.st = .active)
        ∧ (∃ x, t.m.step.exports = s.m.step.exports ++ [x] ∧ x.handle = handle ∧ x.set = set.toNat ∧ x.slot = e.slot
            ∧ x.partner = (mode == 1) ∧ x.ticket = ⟨h.port, h.tag⟩))))
  ∧ (∀ (s : State) handle c x, s.Quiet → s.m.ctx handle = some c →
      s.m.step.exports.find? (fun x => x.handle == handle) = some x → c.use = .snapshot → c.st = .active → c.cause = 0 →
      s.m.dataPlane = true → s.m.settledOk c c.resume c.desc.positions = true →
      (x.partner = true → s.m.bank.partner = 1) → s.m.run.phase ≠ .waiting →
      Completes (.snapshotExportComplete handle) s (fun t =>
        (∃ ws, Observed s t 0 ws [⟨x.ticket.port, x.ticket.tag, Op.snapshotExport, Cls.ok, Detail.none, []⟩])
        ∧ t.m.step.exports = s.m.step.exports.filter (fun y => y.handle != handle) ∧ t.m.ctl = s.m.ctl))

/-- Commands of the bank (R442, R443, R450, R451, R455): BANK_CONFIGURE stages the interval and sets the rest; BANK_NOW
in RUNNING waits for the next step_end; RELIGHT takes an image from a partner, to which it sends a PULL, or from host
memory; BANK_SERVE grants an image it holds. Rests on the model's readings of assumption logs 58, 60, 61. -/
def Obligations.BankCommands : Prop :=
  ∀ (s : State) (h : Cmd), s.Starts h → s.m.ctl.owner = some h.port → s.m.ctl.refLost = false →
    (∀ (interval : Half) (slots snap pairs : Byte) (a b c d : Half), s.accepts Op.bankConfigure → noBuffer h = true →
        0 < slots.toNat → slots.toNat ≤ 2 → snap.toNat ≤ 64 → pairs.toNat ≤ 2 → snap.toNat ≤ s.m.hbm.bankGib →
        s.m.pairLegal (decide (0 < pairs.toNat)) a.toNat c.toNat = true →
        s.m.pairLegal (decide (1 < pairs.toNat)) b.toNat d.toNat = true →
        (s.m.ctl.state = .ready ∨ s.m.ctl.state = .halted) → s.m.bankBusy = false →
      Completes (.bankConfigure h interval slots snap pairs a b c d) s (fun t =>
        Answered s t h 0 [] Op.bankConfigure Cls.ok Detail.none []
        ∧ t.m.bank.intervalStaged = some interval.toNat ∧ t.m.bank.interval = s.m.bank.interval
        ∧ t.m.bank.slots = slots.toNat ∧ t.m.bank.snapGib = snap.toNat ∧ t.m.bank.pairs = pairs.toNat
        ∧ t.m.bank.p0a = a.toNat ∧ t.m.bank.p0b = b.toNat ∧ t.m.bank.p1a = c.toNat ∧ t.m.bank.p1b = d.toNat))
    ∧ (∀ mask : Byte, s.accepts Op.bankNow → noBuffer h = true → 0 < mask.toNat → mask.toNat ≤ 3 →
        s.m.plan.st = .running → s.m.bank.upd = none → s.m.bank.now = none →
      Replies (.bankNow h mask) s h 0 [] Op.bankNow Cls.ok []
        { s.found h with bank := { s.m.bank with now := some mask.toNat } })
    ∧ (∀ (source : Byte) (step : Word) (owner holder r0 r1 : Half), s.accepts Op.relight → noBuffer h = true →
        s.m.relightBad source.toNat owner.toNat holder.toNat r0.toNat r1.toNat = false → s.m.ctl.state = .ready →
        s.m.plan.st = .loaded → s.m.bank.relight = none → s.m.ownTransfer = false →
      Completes (.relight h source step owner holder r0 r1) s (fun t =>
        Answered s t h 0 [] Op.relight Cls.accepted Detail.none []
        ∧ t.m.bank.relight = some ⟨⟨h.port, h.tag⟩, source.toNat, step, owner.toNat, holder.toNat, r0.toNat, r1.toNat, [], 0⟩
        ∧ t.m.fab.out = (if source = 0 then [.pull holder.toNat Config.position owner.toNat step.toNat] else [])))
    ∧ (∀ (owner : Half) (step : Word) (target : Half), s.accepts Op.bankServe →
        s.m.serveBad h owner.toNat step target.toNat = false → s.m.plan.st ≠ .running →
        (target.toNat = 0xFFFF → s.m.bank.serving = false) →
        (s.m.servedImage owner.toNat step target.toNat).isSome = true →
      Replies (.bankServe h owner step target) s h 0 [] Op.bankServe Cls.accepted []
        { s.found h with bank := { s.m.bank with serves := s.m.bank.serves ++ [⟨⟨h.port, h.tag⟩, owner.toNat, step,
            target.toNat, h.bufRegion.toNat, h.bufOffset.toNat, decide (target.toNat = 0xFFFF)⟩] } })

/-- How transfers of the bank end (R452, R453, R455): a relight whose image from a partner is whole and passes the
checks of R452 restores it, OK where every tensor's check agrees and FAULTED otherwise; a stalled relight ends FAULTED
BANK_LOST; a transfer to another module that meets no poison ends OK; a grant that expires is dropped. The class and
detail of a lapsed grant are free values. Rests on the model's readings of assumption logs 3, 60, 61. -/
def Obligations.BankTransfersEnd : Prop :=
  ∀ s : State, s.Quiet →
    (∀ r data, s.m.bank.relight = some r → s.m.dataPlane = true → r.source = 0 → r.headIn = true →
        fieldAt r.image 0x20 8 ≤ r.got → fieldAt r.image 0x20 8 ≤ r.image.length →
      let agrees := (s.m.fresh.restoreBytes r.image).restoredOk r.image
      let ends := fun (failed : Bool) (cls detail : Nat) (t : State) => t.m.bank.relightFailed = failed
        ∧ Observed s t 0 [] [⟨r.ticket.port, r.ticket.tag, Op.relight, cls, detail, []⟩]
      Completes (.relightComplete data) s (fun t =>
        t.m.bank.relight = none ∧ t.m.ctl = s.m.ctl
        ∧ match s.m.relightCheck r r.image with
          | none => ends (!agrees) (if agrees then Cls.ok else Cls.faulted) (if agrees then Detail.none else Detail.bankCrc) t
          | some e => ends true e.1 e.2 t ∧ t.m.hbm = s.m.hbm))
    ∧ (∀ r, s.m.bank.relight = some r →
      Happens .relightStallTimeout s 0 [⟨r.ticket.port, r.ticket.tag, Op.relight, Cls.faulted, Detail.bankLost, []⟩]
        { s.m.fresh with bank := { s.m.bank with relight := none, relightFailed := true } })
    ∧ (∀ x, s.m.dataPlane = true → s.m.bank.pulled = none → s.m.bank.serves.find? (fun x => x.active) = some x →
        x.target ≠ 0xFFFF → s.m.poisoned (s.m.serveSpan x).1 (s.m.serveSpan x).2 = false →
      Happens .bankServeComplete s 0 [⟨x.ticket.port, x.ticket.tag, Op.bankServe, Cls.ok, Detail.none, []⟩]
        { s.m.fresh with bank := { s.m.bank with serves := s.m.bank.serves.erase x } })
    ∧ (∀ x, s.m.bank.serves.find? (fun x => !x.active) = some x →
      Completes .bankGrantExpiry s (fun t =>
        t.m.bank = { s.m.bank with serves := s.m.bank.serves.erase x } ∧ t.m.ctl = s.m.ctl
        ∧ ∃ cls detail, Observed s t 0 [] [⟨x.ticket.port, x.ticket.tag, Op.bankServe, cls, detail, []⟩]))

/-! ### Field tests, units, channels -/

/-- TEST_WINDOW_FORCE, MARGIN_TEST_RUN, PATTERN_INSTALL, their completions and DIGEST_POLICY_SET (R423, R424, R426,
R432): a window or a margin test begins at once outside RUNNING and at the next open in RUNNING; each completes by its
results; a package is judged and installed; the digest interval is staged. Rests on the model's readings of assumption
logs 19, 30, 56, 57. -/
def Obligations.FieldTestCommands : Prop :=
  (∀ (s : State) (h : Cmd), s.Starts h → s.m.ctl.owner = some h.port →
    (∀ core : Byte, s.accepts Op.testWindowForce → noBuffer h = true → core.toNat < 8 → s.m.noForce core.toNat = false →
      Replies (.testWindowForce h core) s h 0 [] Op.testWindowForce Cls.accepted []
        { s.found h with tests := { s.m.tests with
          forced := some ⟨core.toNat, ⟨h.port, h.tag⟩, s.m.plan.st != .running, false⟩ } })
    ∧ (∀ core : Byte, s.accepts Op.marginTestRun → noBuffer h = true → core.toNat < 8 → s.m.noForce core.toNat = false →
        s.m.noRelief core.toNat = false →
      Completes (.marginTestRun h core) s (fun t =>
        Answered s t h 0 [] Op.marginTestRun Cls.accepted Detail.none []
        ∧ t.m.tests.margin = some ⟨core.toNat, ⟨h.port, h.tag⟩, s.m.plan.st != .running, false⟩
        ∧ (s.m.plan.st ≠ .running → (t.m.core core.toNat).kindling = true)))
    ∧ (∀ bs, s.accepts Op.patternInstall → (s.found h).bufferOk h (patLength bs) false = true → s.m.tests.install = none →
      Replies (.patternInstall h (.data bs)) s h 0 [] Op.patternInstall Cls.accepted []
        { s.found h with tests := { s.m.tests with install := some (⟨h.port, h.tag⟩, bs) } })
    ∧ (∀ interval : Half, s.accepts Op.digestPolicySet → noBuffer h = true → interval.toNat ≤ 1024 →
      Replies (.digestPolicySet h interval) s h 0 [] Op.digestPolicySet Cls.ok []
        { s.found h with tests := { s.m.tests with intervalStaged := some interval.toNat } }))
  ∧ (∀ s : State, s.Quiet →
      (∀ core c results, s.m.tests.forced = some c → c.core = core → c.begun = true →
        Completes (.forcedTestComplete core results) s (fun t =>
          t.m.tests.forced = none ∧ t.m.ctl = s.m.ctl
          ∧ ∃ a, Observed s t a [] [⟨c.ticket.port, c.ticket.tag, Op.testWindowForce,
              if results.all (fun r => r.pass) then Cls.ok else Cls.faulted,
              if results.all (fun r => r.pass) then Detail.none else Detail.testFail, []⟩]))
      ∧ (∀ core c results, s.m.tests.margin = some c → c.core = core → c.begun = true →
        Completes (.marginTestComplete core results) s (fun t =>
          t.m.tests.margin = none ∧ t.m.ctl = s.m.ctl
          ∧ t.m.pwr.cores = SMap.upd CoreRec.off s.m.pwr.cores core (fun x => { x with kindling := false })))
      ∧ (∀ w bs, s.m.tests.install = some (w, bs) →
        let r := s.m.checkPackage bs
        Completes .patternInstallComplete s (fun t =>
          Observed s t 0 [] [⟨w.port, w.tag, Op.patternInstall, r.1, r.2.1, []⟩]
          ∧ t.m.tests = { r.2.2 with install := none })))

/-- UNIT_DISABLE and UNIT_ENABLE, drained and tested, FABRIC_CONFIGURE and CHANNEL_DISABLE (R37, R415 to R417; R328,
R348; R341, R342): outside RUNNING a unit is DISABLED at once, in RUNNING it may drain first; a disabled unit comes back
at once, a fenced one is tested and comes back at the next PLAN_START if it passes; a root of the time base locks at its
epoch; a channel is DISABLED until a RESTORE. Rests on the model's readings of assumption logs 39, 51, 52. -/
def Obligations.UnitsAndChannelsByCommand : Prop :=
  (∀ (s : State) (h : Cmd), s.Starts h → s.m.ctl.owner = some h.port → noBuffer h = true →
    let ok := fun (op : Nat) => (⟨h.port, h.tag, op, Cls.ok, Detail.none, []⟩ : Reply)
    (∀ (unit : Half) (mode : Byte),
        let u := unit.toNat
        s.accepts Op.unitDisable → unitReserved u = false → unitIllegal u = false → mode.toNat ≤ 1 →
        (s.m.unit u).draining = none → (s.m.unit u).isClinker = false → (s.m.unit u).disabled = false →
        (unitKind u = 3 → s.m.otherWithdrawn (unitCore u) = false) →
      Completes (.unitDisable h unit mode) s (fun t =>
        (s.m.plan.st = .running ∧ mode = 0 →
          (t.m.unit u).draining = some ⟨h.port, h.tag⟩ ∧ Answered s t h 0 [] Op.unitDisable Cls.accepted Detail.none [])
        ∧ (s.m.plan.st ≠ .running ∨ mode = 1 →
            (t.m.unit u).disabled = true
            ∧ ∃ a, Answered s t h a [] Op.unitDisable Cls.accepted Detail.none [] [ok Op.unitDisable])))
    ∧ (∀ unit : Half,
        let u := unit.toNat
        s.accepts Op.unitEnable → unitReserved u = false → unitIllegal u = false → (s.m.unit u).draining = none →
        (s.m.unit u).testing = none →
        ((s.m.unit u).disabled = true →
          Replies (.unitEnable h unit) s h 0 [] Op.unitEnable Cls.accepted []
            ((s.found h).setUnit u (fun r => { r with disabled := false })) [ok Op.unitEnable])
        ∧ ((s.m.unit u).disabled = false → (s.m.unit u).isClinker = true →
          Replies (.unitEnable h unit) s h 0 [] Op.unitEnable Cls.accepted []
            ((s.found h).setUnit u (fun r => { r with strikes := [], testing := some ⟨h.port, h.tag⟩ }))))
    ∧ (∀ (tp ta : Byte) (rp ra : Half) (epoch : Dword) (hold : Half), s.accepts Op.fabricConfigure →
        timeRoleOk tp.toNat = true → timeRoleOk ta.toNat = true → reportWordOk rp.toNat = true →
        reportWordOk ra.toNat = true → 5 ≤ hold.toNat → hold.toNat ≤ 1000 →
        (s.m.ctl.state = .ready ∨ s.m.ctl.state = .halted) →
      Completes (.fabricConfigure h (BitVec.ofNat 16 Config.position) tp ta rp ra epoch hold) s (fun t =>
        Answered s t h 0 [] Op.fabricConfigure Cls.ok Detail.none [] ∧ t.m.fab.configured = true
        ∧ t.m.fab.timeParent = tp.toNat ∧ t.m.fab.timeAlt = ta.toNat ∧ t.m.fab.reportParent = rp.toNat
        ∧ t.m.fab.reportAlt = ra.toNat ∧ t.m.fab.holdUs = hold.toNat
        ∧ (tp.toNat = 0xFF → t.m.fab.timeState = .locked ∧ t.m.fab.time = epoch.toNat)))
    ∧ (∀ channel mode : Byte, s.accepts Op.channelDisable → channel.toNat < 28 →
        (mode = 0 → Completes (.channelDisable h channel mode) s (fun t =>
          (t.m.chan channel.toNat).st = .disabled ∧ (t.m.chan channel.toNat).restore = false
          ∧ ∃ a, Answered s t h a [] Op.channelDisable Cls.ok Detail.none []))
        ∧ (mode = 1 → (s.m.chan channel.toNat).st = .disabled →
          Replies (.channelDisable h channel mode) s h 0 [] Op.channelDisable Cls.ok []
            ((s.found h).setChan channel.toNat (fun c => { c with restore := true })))))
  ∧ (∀ (s : State) (unit : Half) w, s.Quiet →
      ((s.m.unit unit.toNat).draining = some w → s.m.unitOpen unit.toNat = false →
        Completes (.unitDrainComplete unit) s (fun t =>
          (t.m.unit unit.toNat).disabled = true ∧ (t.m.unit unit.toNat).draining = none
          ∧ ∃ a, Observed s t a [] [⟨w.port, w.tag, Op.unitDisable, Cls.ok, Detail.none, []⟩]))
      ∧ ((s.m.unit unit.toNat).testing = some w →
        Happens (.unitEnableTestComplete unit true) s 0 [⟨w.port, w.tag, Op.unitEnable, Cls.ok, Detail.none, []⟩]
            (s.m.fresh.setUnit unit.toNat (fun r =>
              { r with testing := none, pending := false, retiring := false, enabling := true }))
        ∧ Happens (.unitEnableTestComplete unit false) s 0 [⟨w.port, w.tag, Op.unitEnable, Cls.faulted, Detail.badState, []⟩]
            (s.m.fresh.setUnit unit.toNat (fun r => { r with testing := none }))))

/-! ### Rounds -/

/-- ROUND_OPEN, VERSION_WAIT_TIMEOUT and the barrier events (R98, R99, R110, R135, R338, R343, R403): a round that waits
for nothing starts attempt 0 under the next serial; one that waits keeps waiting, each wait marked once; a pending
PLAN_HALT halts the module instead. A late barrier is recorded once; arrivals are held; a release goes down the tree;
the round starts at the release time. Stated where no packet or flag message of the round came early. Rests on the
model's readings of assumption logs 7, 16, 36. Rests on the model's readings of assumption logs 7, 16, 36. -/
def Obligations.RoundsOpenAtTheirBarriers : Prop :=
  ∀ s : State, s.Quiet → s.m.ctl.state = .running → s.m.ctl.refLost = false → s.m.fab.early = [] → s.m.fab.flagWait = [] →
    (∀ r, s.m.run.phase = .waiting → s.m.hdr = some r →
      (s.m.plan.halts = [] → s.m.gateShut = false → s.m.openWaits = [] → r.barrierFlag = false → s.m.plan.reopen = false →
        Completes .roundOpen s (fun t =>
          Observed s t 0 [] [] ∧ t.m.ctl.state = .running ∧ t.m.run.phase = .run ∧ t.m.run.attempt = 0
          ∧ t.m.run.serial = s.m.plan.opened + 1 ∧ t.m.run.start = s.m.fab.time))
      ∧ (s.m.plan.halts = [] → s.m.gateShut = false → s.m.openWaits ≠ [] →
        Completes .roundOpen s (fun t =>
          Observed s t 0 [] [] ∧ t.m.plan = s.m.plan ∧ t.m.run.phase = .waiting
          ∧ ∀ k ∈ s.m.openWaits, k ∈ t.m.run.waitsSeen))
      ∧ (s.m.plan.halts ≠ [] →
        Completes .roundOpen s (fun t =>
          Observed s t 0 [] (s.m.plan.halts.map (fun t => ⟨t.port, t.tag, Op.planHalt, Cls.ok, Detail.none, []⟩))
          ∧ t.m.ctl.state = .halted ∧ t.m.plan.st = .halted ∧ t.m.plan.haltKind = (if s.m.plan.reopen then 2 else 1)))
      ∧ (∀ p y x, s.m.plan.halts = [] → 3 ∈ s.m.openWaits → s.m.plan.plan = some p → p.updSet r = some y →
          s.m.oldestExport y.1 = some x →
        Completes .versionWaitTimeout s (fun t =>
          Observed s t Attn.log [] [⟨x.ticket.port, x.ticket.tag, Op.snapshotExport, Cls.part, Detail.streamTruncated, []⟩]
          ∧ t.m.ctl.state = .running)))
    ∧ (s.m.run.phase.atBarrier = true → s.m.run.release = none → s.m.run.barrierOut = false →
        Completes .barrierTimeout s (fun t =>
          Observed s t Attn.fault [] [] ∧ t.m.run = { s.m.run with barrierOut := true } ∧ t.m.plan = s.m.plan))
    ∧ (∀ msg, s.m.ownBarrier msg = true → s.m.run.phase.atBarrier = false → msg.sender ∉ s.m.run.arrivals →
        Happens (.barrierArrive msg) s 0 []
          { s.m.fresh with run := { s.m.run with arrivals := msg.sender :: s.m.run.arrivals } })
    ∧ (∀ msg t, s.m.run.phase.atBarrier = true → s.m.run.arrived = true → s.m.ownBarrier msg = true → s.m.fab.time ≤ t →
      Happens (.barrierRelease msg t) s 0 []
        (if treeParent s.m.barrierMembers Config.position = some msg.sender then
          ({ s.m.fresh with run := { s.m.run with release := some t } }).sendAll
            ((treeChildren s.m.barrierMembers Config.position).map (fun d => Sent.release d (s.m.barrierMsg 0) t))
        else s.m.fresh.dropEmber))
    ∧ (∀ t, s.m.run.release = some t → s.m.run.phase.atBarrier = true →
      Completes .barrierReleaseTime s (fun t' =>
        Observed s t' 0 [] [] ∧ t'.m.run.phase = .run ∧ t'.m.run.start = t ∧ t'.m.run.serial = s.m.run.serial
        ∧ t'.m.run.attempt = s.m.run.attempt))

/-- The end of a run (R100, R128 to R130, R136): a run ends once everything that its round names is done; the token goes
to every other member; the last token held, the gates act and the round commits, or waits at the DIGEST gate, where the
comparison of replicas that all agree lets it commit; a commit that the bank holds back waits; otherwise memory takes
the round's deferred writes and rounds_settled rises by one. A late settle is recorded once. Rests on the model's
readings of assumption logs 3, 35. -/
def Obligations.RunsEndAndSettle : Prop :=
  ∀ s : State, s.Quiet → s.m.ctl.state = .running →
    (∀ runNs, s.m.run.phase = .run → s.m.run.mark = none → s.m.runDone = true →
        runNs ≤ (s.m.hdr.map (·.budgetNs)).getD 0 →
      Happens (.runPhaseEnd runNs) s 0 []
        { s.m.fresh with
          run := { s.m.run with phase := .ended, runNs := runNs },
          fab := { s.m.fresh.fab with time := max s.m.fab.time (s.m.run.start + runNs) } })
    ∧ (s.m.run.phase = .ended → s.m.run.mark = none → s.m.allTokens = false →
      Happens .settleTokenSend s 0 []
        (let m := s.m.fresh.sendEmber 1 s.m.run.attempt 0
         { m with run := { s.m.run with phase := .settling } }))
    ∧ (s.m.run.phase = .ended → s.m.run.mark = none → s.m.allTokens = true → s.m.set = none →
      Happens .settleTokenSend s 0 [] { s.m.fresh with run := { s.m.run with phase := .commit } })
    ∧ (∀ msg, s.m.ownMsg msg = true → s.m.run.phase ≠ .settling → msg.sender ∉ s.m.run.tokens →
      Happens (.settleToken msg) s 0 []
        { s.m.fresh with run := { s.m.run with tokens := msg.sender :: s.m.run.tokens } })
    ∧ (∀ p r coll update c, s.m.run.phase = .digest → s.m.plan.plan = some p → s.m.hdr = some r →
        p.digestOf r = some (coll, update) → s.m.collDesc coll = some c →
        let bs := s.m.digestBlocks c
        let interval := fieldAt (bs.headD []) 2 2
        interval ≠ 0 → s.m.step.reg.step.toNat % interval = 0 → largestSet bs = bs.length →
      Happens .digestGate s 0 []
        (let m := s.m.fresh.tally Cnt.digestCompared 1
         { m with run := { m.run with phase := .commit } }))
    ∧ (s.m.run.phase = .commit →
        (s.m.commitHeld = true → s.m.run.holdSeen = true → Happens .roundCommitComplete s 0 [] s.m.fresh)
        ∧ (∀ p r, s.m.commitHeld = false → s.m.plan.plan = some p → s.m.hdr = some r → s.m.fab.early = [] →
            s.m.fab.flagWait = [] → s.m.hbm.Canonical →
          Completes .roundCommitComplete s (fun t =>
            t.m.plan.settled = s.m.plan.settled + 1 ∧ ∀ a, a < hbmEnd → t.m.rd a = s.m.rdStaged a)))
    ∧ (s.m.run.phase = .settling → s.m.run.settleOut = false →
      Completes .settleTimeout s (fun t =>
        Observed s t Attn.fault [] [] ∧ t.m.run = { s.m.run with settleOut := true } ∧ t.m.plan = s.m.plan))

/-- Douse and replay (R128, R134, R135): a marked first attempt, or one that a member douses, is discarded, the round
waits for every DOUSE_READY and opens again as attempt 1 under the same serial; the douse of attempt 1 halts the plan
DISCARDED. Rests on the model's readings of assumption log 35. -/
def Obligations.DousedRoundsReplay : Prop :=
  ∀ s : State, s.Quiet → s.m.ctl.state = .running →
    (∀ cause, s.m.run.mark = some cause → s.m.run.phase.runs = true →
      (s.m.run.attempt = 0 → cause ≠ Douse.halt →
        Completes .douseOriginate s (fun t =>
          Observed s t Attn.fault [] [] ∧ t.m.ctl.state = .running ∧ t.m.run.serial = s.m.run.serial ∧ t.m.run.ents = []
          ∧ t.m.run.staged = [] ∧ t.m.run.mark = none
          ∧ t.m.run.phase = (if s.m.others.all (fun x => x ∈ s.m.run.readies) then .replay else .doused)))
      ∧ (s.m.run.attempt = 1 →
        Completes .douseOriginate s (fun t =>
          t.m.ctl.state = .halted ∧ t.m.plan.st = .halted ∧ t.m.plan.haltKind = 2 ∧ t.m.run.phase = .none
          ∧ t.m.run.staged = [])))
    ∧ (∀ msg, s.m.ownMsg msg = true → s.m.run.phase.runs = true → s.m.run.attempt = 0 → msg.cause ≠ Douse.halt →
      Completes (.douse msg) s (fun t =>
        t.m.ctl.state = .running ∧ t.m.run.serial = s.m.run.serial ∧ t.m.run.ents = [] ∧ t.m.run.staged = []
        ∧ t.m.run.readies = msg.sender :: s.m.run.readies
        ∧ ∃ a, Observed s t a [] []))
    ∧ (∀ msg, s.m.ownMsg msg = true → s.m.run.phase ≠ .doused → msg.sender ∉ s.m.run.readies →
      Happens (.douseReady msg) s 0 []
        { s.m.fresh with run := { s.m.run with readies := msg.sender :: s.m.run.readies } })
    ∧ (s.m.run.phase = .replay → s.m.fab.early = [] → s.m.fab.flagWait = [] →
      Completes .replayRoundStart s (fun t =>
        Observed s t 0 [] [] ∧ t.m.run.phase = .run ∧ t.m.run.attempt = 1 ∧ t.m.run.serial = s.m.run.serial
        ∧ t.m.run.start = s.m.fab.time ∧ t.m.plan = s.m.plan))

/-! ### Work of a round -/

/-- Claims, ends of attempts and combines (R103, R104, R109, R219, R264, R267, R395): a core takes the re-execution that
waits for it, else the fresh entry that R103 gives; the end of an attempt writes its output and leaves the entry to its
checks; a segment's increment and a shard's update end their entries; a combine whose copies agree writes its block
once. Rests on the model's readings of assumption logs 14, 17, 40, 45, 47, 48. -/
def Obligations.WorkIsClaimedAndWritten : Prop :=
  ∀ s : State, s.Quiet → s.m.running = true →
    let m := s.m.fresh
    (∀ core, core < 8 → m.withdrawn core = false →
      (∀ i w us, m.reClaim m.busyUnits core = some (i, w, us) →
        Happens (.woodpileClaim core) s 0 []
          ((m.setEnt i { m.ent i with st := .rerun, reCore := core, reUnits := us, reDigest := none }).tallyEvent
            w.engine.reexec 1))
      ∧ (∀ i w us, m.reClaim m.busyUnits core = none → m.freshClaim m.busyUnits core = some (i, w, us) →
        Happens (.woodpileClaim core) s 0 []
          (m.setEnt i
            { m.ent i with st := .running, core := core, units := us, eff := m.trim i w, digest := none })))
    ∧ (∀ i w damage, m.wpEntry i = some w → (m.ent i).active = true →
        let after : EntSt := if (m.ent i).st = .rerun then .recheck else .checking
        (∀ jb dst, (w.engine = .dense ∨ w.engine = .nm) → m.jobOf i w = some jb → m.destOf w jb.x.d = some dst →
            jb.x.d.m ≠ 0 →
            let fw := (FmtWord.parse jb.x.d.outFmt).getD FmtWord.plain
            let key := m.srKey dst.tensorId
            let v := m.outValue jb dst
            m.nmFault jb dst fw key v = none →
          Completes (.denseItemComplete i damage) s (fun t =>
            Observed s t 0 [] [] ∧ (t.m.ent i).st = after
            ∧ t.m.hbm = (m.writeOut (jb.drain dst fw key v) damage).1.hbm
            ∧ t.m.run.staged = (m.writeOut (jb.drain dst fw key v) damage).1.run.staged))
        ∧ (∀ j, w.engine = .sparse → m.spWork w (m.ent i).engine = some (.item j) →
          Completes (.sparseItemComplete i damage) s (fun t =>
            Observed s t 0 [] [] ∧ (t.m.ent i).st = after
            ∧ t.m.hbm = (m.writeOut (m.runItem j).st damage).1.hbm
            ∧ t.m.run.staged = (m.writeOut (m.runItem j).st damage).1.run.staged))
        ∧ (∀ p r k u g ctr, w.engine = .update → (m.ent i).st = .running → m.plan.plan = some p → m.hdr = some r →
            p.updateOf r = some (k, u) → p.groupRec u.group = some g → p.alloc u.ctrRec = some ctr →
          Completes (.updateShardComplete i) s (fun t => Observed s t 0 [] [] ∧ (t.m.ent i).st = .done)))
    ∧ (∀ i w j slot seg damage, m.wpEntry i = some w → (m.ent i).st = .passed →
        m.spWork w ((if (m.ent i).reUnits.isEmpty then (m.ent i).units else (m.ent i).reUnits).headD 0)
          = some (.segment j slot seg) →
        let at_ := j.segAddr seg.firstSlot + 0x10
        let n := m.rdNat at_ 4 + 1
      Completes (.segmentItemComplete i damage) s (fun t =>
        Observed s t 0 [] [] ∧ (t.m.ent i).st = .done
        ∧ (n ≠ seg.segCount → t.m.hbm = (m.roundWrite at_ (leBytes 4 n)).hbm)))
    ∧ (∀ p r g c k a, m.plan.plan = some p → m.hdr = some r → (p.groupsOf r)[g]? = some c →
        p.allocById c.tensorId = some (k, a) → g ∉ m.run.groups → m.groupReady g = true →
        g ∉ m.run.combineFailed →
      Completes (.combineRun g .pass) s (fun t =>
        Observed s t 0 [] [] ∧ t.m.run.groups = g :: m.run.groups
        ∧ t.m.hbm = (m.store (m.combined c a)).hbm
        ∧ t.m.run.staged = (m.store (m.combined c a)).run.staged)
      ∧ (∀ x y, x ≠ y →
        Happens (.combineRun g (.copies x y)) s 0 []
          (let m := m.tallyEvent Cnt.denseMismatch 1
           { m with run := { m.run with combineFailed := g :: m.run.combineFailed } })))

/-- Verdicts (R235, R271) and strikes (R413): an entry whose comparisons all pass is done; a comparison that fails holds
it for a re-execution with its failure; a strike older than 720 power-on hours no longer counts. Rests on the model's
readings of assumption logs 40, 46, 73. -/
def Obligations.VerdictsHoldOrPassEntries : Prop :=
  (∀ s : State, s.Quiet → s.m.running = true → ∀ i w, s.m.wpEntry i = some w → (s.m.ent i).st = .checking →
    let m := s.m.fresh
    (∀ jb place, (w.engine = .dense ∨ w.engine = .nm) → m.jobOf i w = some jb →
        (m.uncompared jb = [] →
          Happens (.checksumVerdict i place .pass) s 0 [] (m.setEnt i { m.ent i with st := .done }))
        ∧ (∀ x y, x ≠ y →
          Happens (.checksumVerdict i place (.copies x y)) s 0 []
            ((m.setEnt i { m.ent i with st := .awaiting, failed := [⟨true, place⟩], failedAt := m.fabricTime }).tallyEvent
              Cnt.denseMismatch 1))
        ∧ (∀ x y, x ≠ y →
          m.skipped jb.x place.row place.pass place.kBlock (jb.unitAt place).1 (jb.unitAt place).2 place.pos = false →
          Happens (.checksumVerdict i place (.exact x y)) s 0 []
            ((m.setEnt i { m.ent i with st := .awaiting, failed := [⟨false, place⟩], failedAt := m.fabricTime }).tallyEvent
              Cnt.denseMismatch 1)))
    ∧ (w.engine = .sparse →
        (∀ j, m.spWork w 0 = some (.item j) →
          Happens (.sparseVerdict i .pass) s 0 [] (m.setEnt i { m.ent i with st := .done }))
        ∧ (∀ x y, x ≠ y →
          Happens (.sparseVerdict i (.copies x y)) s 0 []
            ((m.setEnt i { m.ent i with
              st := .awaiting, failed := [⟨true, ⟨false, 0, 0, 0, 0, 0⟩⟩], failedAt := m.fabricTime }).tallyEvent Cnt.sparseMismatch 1))))
  ∧ (∀ (s : State) (unit : Half), s.Quiet →
      Happens (.strikeExpiry unit) s 0 []
        (s.m.fresh.setUnit unit.toNat (fun r =>
          { r with strikes := r.strikes.filter (fun t => decide (s.m.powerOnS < t + 720 * 3600)) })))

/-- Faults that fence (R37 to R40, R106, R433, R434): a faulty tile, engine or cluster becomes a pending clinker and a
faulty core is withdrawn, whether a check, the watchdog of its item or its sequencer's heartbeat finds it; a faulty
stream context is fenced; the first fault of a bundle's link waits for the next start. Rests on the model's readings of
assumption log 39. -/
def Obligations.FaultsFenceElements : Prop :=
  ∀ s : State, s.Quiet →
    let fenced := fun (u : Nat) (t : State) =>
      (unitKind u ≠ 3 → (t.m.unit u).pending = true)
      ∧ (unitKind u = 3 → SMap.wf CoreRec.off s.m.pwr.cores = true → (t.m.core (unitCore u)).faulted = true)
      ∧ t.m.plan = s.m.plan ∧ t.m.hbm = s.m.hbm ∧ ∃ a, Observed s t a [] []
    (∀ (unit : Half) cause, s.m.railsUp = true → s.m.inService unit.toNat = true →
        Completes (.unitFaultDetected unit cause) s (fenced unit.toNat))
    ∧ (∀ core, core < 8 → s.m.railsUp = true → s.m.inService (coreWord core) = true →
        Completes (.sequencerHeartbeatMiss core) s (fenced (coreWord core)))
    ∧ (∀ i busy w u us, s.m.wpEntry i = some w → (s.m.ent i).runsOn = u :: us → s.m.run.phase = .run →
        min (2 * w.estNs) 20000 < busy → Completes (.itemWatchdog i busy) s (fenced u))
    ∧ (∀ handle, handle < 4096 → s.m.railsUp = true → handle ∉ s.m.fenced →
        Completes (.streamContextFault handle) s (fun t =>
          t.m.fenced = s.m.fenced ++ [handle] ∧ t.m.plan = s.m.plan ∧ t.m.hbm = s.m.hbm ∧ ∃ a, Observed s t a [] []))
    ∧ (∀ bundle, s.m.railsUp = true → bundle ∉ s.m.units.linkPending → bundle ∉ s.m.units.linkUsed →
        Completes (.nocLinkFault bundle) s (fun t =>
          t.m.units = { s.m.units with linkPending := s.m.units.linkPending ++ [bundle] } ∧ t.m.plan = s.m.plan
          ∧ t.m.hbm = s.m.hbm ∧ ∃ a, Observed s t a [] []))
    ∧ (∀ place, s.m.railsUp = true →
        Completes (.dieFault place) s (fun t =>
          t.m.units = s.m.units ∧ t.m.run = s.m.run ∧ t.m.plan = s.m.plan ∧ t.m.hbm = s.m.hbm
          ∧ ∃ a, Observed s t a [] []))

/-! ### Streams of a round -/

/-- STREAM_UNIT_START, STREAM_UNIT_VISIBLE and FLUE_MESSAGE_COMPLETE (R186, R187, R191, R208 to R210): a unit whose gate
has passed begins, and waits, counted once, while a drain runs into the region that it reads; the unit under way writes
its positions, is visible, and the next may follow; the last one ends the stream. Rests on the model's readings of
assumption logs 41, 44. -/
def Obligations.StreamsMoveUnitByUnit : Prop :=
  ∀ s : State, s.Quiet → s.m.moving = true →
    let m := s.m.fresh
    ∀ i d r, m.roundStream i = some d → m.strRun i = some r →
      ((r.st = .armed ∨ r.st = .active) → (d.isFlue = true ∨ r.handle.isSome = true) → r.begun < d.units →
          m.unitGate d r.begun = true → (d.isFlue = true → m.flueOut d.homeCore < 64) →
        ((d.srcHost = true → m.drainInto (hostRegion d.srcBase) = false) →
          Happens (.streamUnitStart i) s 0 [] (m.setStr i (fun r => { r with st := .active, begun := r.begun + 1 })))
        ∧ (d.srcHost = true → m.drainInto (hostRegion d.srcBase) = true → 16 + i ∉ m.run.waitsSeen →
          Happens (.streamUnitStart i) s 0 []
            (({ m with run := { m.run with waitsSeen := m.run.waitsSeen ++ [16 + i] } }).tally Cnt.streamDrainWait 1)))
      ∧ (∀ data, m.unitReady d r data = true →
        let hi := (r.seen + 1) * d.unitSize
        let moved := m.movePlan i d r (max r.pos (r.seen * d.unitSize)) hi data
        let seen := fun (t : State) => Observed s t 0 [] [] ∧ t.m.hbm = moved.hbm ∧ t.m.run.staged = moved.run.staged
          ∧ ∃ r', t.m.strRun i = some r' ∧ r'.seen = r.seen + 1 ∧ r'.pos = hi
              ∧ r'.st = (if r.seen + 1 = d.units then .done else .active)
        (d.isFlue = false → Completes (.streamUnitVisible i data) s seen)
        ∧ (d.isFlue = true → data = [] → Completes (.flueMessageComplete i) s seen))

/-- STREAM_HOLD and DRAIN_COMPLETE (R191, R197, R198): the access of a stream that fails holds its context at the
position that failed, with its cause, a STREAM record and ATTN_FAULT, and what lies below it is delivered; a drain whose
writes all succeed writes them to the host, frees its context, and each region's drained_serial follows. Rests on the
model's readings of assumption logs 42, 44. Rests on the model's readings of assumption logs 42, 44. -/
def Obligations.StreamsHoldAndDrain : Prop :=
  ∀ s : State, s.Quiet → s.m.dataPlane = true → ∀ h c, s.m.ctx h = some c → c.st = .active →
    let m := s.m.fresh
    let held := fun (t : State) (p : Nat) (f : Nat × Nat × Bool × Nat) =>
      ∃ c', t.m.ctx h = some c' ∧ c'.st = .held ∧ c'.cause = f.2.2.2 ∧ c'.resume = p ∧ c'.reading = !f.2.2.1
    (∀ cause p data f, c.use = .command → c.resume ≤ p → p < c.desc.positions → c.desc.dataFits none c.resume p data = true →
        m.settledOk c c.resume p = true → m.failing (m.readerOf c.desc none c.resume data) p cause true = some f →
      Completes (.streamHold h cause p data) s (fun t =>
        held t p f ∧ t.m.hbm = (m.moveSettled c none c.resume p data).hbm ∧ ∃ ws, Observed s t Attn.fault ws []))
    ∧ (∀ cause p data f d r, c.use = .plan → m.moving = true → m.roundStream c.stream = some d →
        m.strRun c.stream = some r → r.st = .active → r.seen < r.begun → max r.pos (r.seen * d.unitSize) ≤ p →
        p < (r.seen + 1) * d.unitSize → d.dataFits r.cut (max r.pos (r.seen * d.unitSize)) p data = true →
        m.indicesReady d (ceilDiv (p + 1) (d.ext 0)) = true →
        let x := m.planReader d r.cut (max r.pos (r.seen * d.unitSize)) data
        m.readsOk x (max r.pos (r.seen * d.unitSize)) p = true → m.failing x p cause false = some f →
      Completes (.streamHold h cause p data) s (fun t => held t p f ∧ Observed s t Attn.fault [] []))
    ∧ (c.use = .drain → c.cause = 0 →
        (c.writes.all (fun w => (m.accessCause w.addr w.data.length true).isNone)) = true → s.m.run.phase ≠ .waiting →
        m.roundStream c.stream = none →
      Completes (.drainComplete h) s (fun t =>
        Observed s t 0 ((c.writes.filter (fun w => !w.data.isEmpty)).map (fun w =>
          let r := SMap.get Region.free s.m.regions (hostRegion w.addr)
          ⟨r.port, r.base + hostOffset w.addr, w.data⟩)) []
        ∧ t.m.ctxs = SMap.put none s.m.ctxs h none ∧ t.m.run = s.m.run
        ∧ t.m.regions = c.writes.foldl (fun rs w =>
            SMap.upd Region.free rs (hostRegion w.addr) (fun r => r.drain c.serial)) s.m.regions))

/-! ### Routes -/

/-- ROUTE_START, COUNT_FRAME and GRANT_FRAME (R284, R289, R290, R291): a route whose gate has passed makes its choices
and counts; a frame of a member is held by its sender's rank; with every count the home admits by capacity; with every
grant the source dispatches. Rests on the model's readings of assumption log 18. -/
def Obligations.RoutesChooseCountAndGrant : Prop :=
  ∀ s : State, s.Quiet →
    let m := s.m.fresh
    (∀ i d, m.running = true → m.routeDesc i = some d → (m.route i).st = .idle →
        m.flagMet d.startFlag d.startValue = true →
      Completes (.routeStart i) s (fun t =>
        Observed s t 0 [] [] ∧ t.m.plan = s.m.plan ∧ t.m.run.ents = s.m.run.ents ∧ (t.m.route i).st ≠ .idle
        ∧ (t.m.route i).n = (m.routeTokens d).1
        ∧ (t.m.route i).choices = (List.range (m.routeTokens d).1).map (m.chooseToken d)))
    ∧ (∀ f d, m.frameRoute f = some d → f.entries ≠ [] →
        let x := m.route f.route
        let requests := SMap.put [] x.requests (d.rankOf f.sender) (f.entries.map (·.1))
        let grants := SMap.put [] x.grants (d.rankOf f.sender) f.entries
        (Completes (.countFrame f) s (fun t =>
          Observed s t 0 [] [] ∧ t.m.plan = s.m.plan ∧ t.m.run.ents = s.m.run.ents
          ∧ (t.m.route f.route).requests = requests
          ∧ (x.counts = [] → requests.length = d.group.length →
              (t.m.route f.route).counts = homeCounts d requests)))
        ∧ (Completes (.grantFrame f) s (fun t =>
          Observed s t 0 [] [] ∧ t.m.plan = s.m.plan ∧ t.m.run.ents = s.m.run.ents
          ∧ (t.m.route f.route).grants = grants
          ∧ (t.m.route f.route).st
              = (if x.st = .counting ∧ grants.length = d.group.length then .dispatching else x.st))))

/-- DISPATCH_VISIBLE, RETURN_START, RETURN_VISIBLE, COMBINE_START, ROUTE_COMBINE_COMPLETE (R292 to R297) and
ROUTE_TIMEOUT (R306): a source's admitted rows reach each home once, its flag following; a home returns to each source
once; the combine writes the output; a wait past its timeout is recorded once and goes on. Rests on the model's readings
of assumption logs 18, 49. -/
def Obligations.RoutesDispatchReturnAndCombine : Prop :=
  ∀ s : State, s.Quiet → s.m.running = true →
    let m := s.m.fresh
    ∀ i d, m.routeDesc i = some d →
      let x := m.route i
      let kept := fun (t : State) => Observed s t 0 [] [] ∧ t.m.plan = s.m.plan ∧ t.m.run.ents = s.m.run.ents
      (∀ home, x.st = .dispatching → home ∈ d.group → home ∉ x.sent →
        Completes (.dispatchVisible i home) s (fun t =>
          kept t ∧ t.m.hbm = (m.giveRows home (m.dispatchRows i d home)).hbm
          ∧ (t.m.route i).sent = x.sent ++ [home]
          ∧ (t.m.route i).st
              = (if (x.sent ++ [home]).length = d.group.length then .returning else .dispatching)))
      ∧ (x.counts ≠ [] → x.ret = false → m.flagMet d.outFlag d.outValue = true →
        Happens (.returnStart i) s 0 [] (m.setRoute i (fun x => { x with ret := true })))
      ∧ (∀ source, x.ret = true → source ∈ d.group → source ∉ x.returned →
        Completes (.returnVisible i source) s (fun t =>
          kept t ∧ t.m.hbm = (m.giveRows source (m.returnRows d x.counts source)).hbm
          ∧ (t.m.route i).returned = x.returned ++ [source]))
      ∧ (x.st = .returning → m.flagMet d.returnFlag d.group.length = true →
        Happens (.combineStart i) s 0 [] (m.setRoute i (fun x => { x with st := .combining })))
      ∧ (∀ p ret out, m.plan.plan = some p → p.alloc d.retRec = some ret → p.alloc d.outRec = some out →
          x.st = .combining →
        Completes (.routeCombineComplete i) s (fun t =>
          kept t ∧ t.m.hbm = (m.roundWrites (m.combineRows d x ret out)).hbm
          ∧ t.m.run.staged = (m.roundWrites (m.combineRows d x ret out)).run.staged
          ∧ (t.m.route i).st = .done))
      ∧ (x.late = false → (m.routeMissing d x).filter (fun w => w != Config.position) ≠ [] →
        Completes (.routeTimeout i) s (fun t =>
          Observed s t Attn.fault [] [] ∧ t.m.plan = s.m.plan ∧ t.m.hbm = s.m.hbm
          ∧ t.m.run = (m.setRoute i (fun x => { x with late := true })).run))

/-- MASK_GENERATE_COMPLETE (R304, R305): each row lists the visible positions that fit; the done flag advances. -/
def Obligations.MasksAreGenerated : Prop :=
  ∀ s : State, s.Quiet → s.m.running = true →
    let m := s.m.fresh
    ∀ i g p a, m.maskDesc i = some g → m.plan.plan = some p → p.alloc g.outRec = some a → i ∉ m.run.masks →
      let written := m.roundWrites (m.maskOutput g a)
      Completes (.maskGenerateComplete i) s (fun t =>
        Observed s t 0 [] [] ∧ t.m.plan = s.m.plan ∧ t.m.run.ents = s.m.run.ents
        ∧ t.m.hbm = written.hbm ∧ t.m.run.staged = written.run.staged
        ∧ t.m.run.masks = s.m.run.masks ++ [i]
        ∧ t.m.run.flags = (s.m.incFlag g.doneFlag 1).run.flags)

/-! ### Collectives and packets -/

/-- COLLECTIVE_START, COLLECTIVE_COMPLETE and COLL_TIMEOUT (R351, R359, R363, R365 to R367, R370): a collective whose
gate has passed starts once, a local one waiting for its completion alone; with its result there it writes what a local
one computes and is done once; a chunk past its timeout is recorded once and its wait goes on. Rests on the model's
readings of assumption logs 50, 76. -/
def Obligations.CollectivesRun : Prop :=
  ∀ s : State, s.Quiet → s.m.running = true →
    let m := s.m.fresh
    ∀ i p c, m.plan.plan = some p → m.collDesc i = some c →
      ((m.coll i).started = false → m.flagMet c.startFlag c.startValue = true →
        Completes (.collectiveStart i) s (fun t =>
          Observed s t 0 [] [] ∧ t.m.plan = s.m.plan ∧ t.m.run.ents = s.m.run.ents ∧ (t.m.coll i).started = true)
        ∧ ((c.op = .tieSum ∨ c.op = .seed ∨ c.op = .ortho) →
          Happens (.collectiveStart i) s 0 []
            (m.setColl i (fun x => { x with started := true, empty := m.emptyContribution c }))))
      ∧ ((m.coll i).started = true → (m.coll i).done = false → m.collReady p i c = true →
        Completes (.collectiveComplete i) s (fun t =>
          Observed s t 0 [] [] ∧ t.m.plan = s.m.plan ∧ t.m.run.ents = s.m.run.ents ∧ (t.m.coll i).done = true
          ∧ t.m.hbm = (m.localOp c).hbm ∧ t.m.run.staged = (m.localOp c).run.staged))
      ∧ (∀ stage chunk,
          let gone := (List.range (c.size stage)).filter (fun k => ((m.coll i).held stage chunk k).isNone)
          stage ∈ c.stages → gone ≠ [] → gone.length < c.size stage → sumKey stage chunk ∉ (m.coll i).late →
        Completes (.collTimeout i stage chunk) s (fun t =>
          Observed s t Attn.fault [] [] ∧ t.m.plan = s.m.plan ∧ t.m.hbm = s.m.hbm
          ∧ t.m.run = (m.setColl i (fun x => { x with late := x.late ++ [sumKey stage chunk] })).run))

/-- DATA_PACKET, SUM_PACKET, PACKET_FORWARD and FLAG_INC (R322, R325, R326, R336, R337, R340, R361): a packet of the
open attempt is written or stored; the packet that completes a chunk writes its sum on; one that comes early is held, a
stale or malformed one counted and dropped; a duplicate douses; a packet for another module leaves by its first hop; a
flag message waits for its fence. Rests on the model's readings of assumption logs 3, 53, 76. -/
def Obligations.PacketsAndFlagsAreTaken : Prop :=
  ∀ s : State, s.Quiet → s.m.dataPlane = true →
    let m := s.m.fresh
    (∀ k, packetBad k = false → k.dst = Config.position → k.ember = true →
      let arrives := fun (i : Instr) =>
        (m.takeOf k = .hold → Happens i s 0 [] { m with fab := { m.fab with early := m.fab.early ++ [k] } })
        ∧ (m.takeOf k = .drop → Happens i s 0 [] m.dropEmber)
      (k.target = .memory → arrives (.dataPacket k)
        ∧ (∀ p, m.takeOf k = .now → m.plan.plan = some p →
          let parts := m.packetParts k.addr k.data
          parts.all (fun w => p.takesWrite ⟨w.1, w.1 + w.2.length⟩) = true →
          Completes (.dataPacket k) s (fun t =>
            Observed s t 0 [] [] ∧ t.m.plan = s.m.plan ∧ t.m.run.ents = s.m.run.ents
            ∧ t.m.hbm = (m.roundWrites parts).hbm ∧ t.m.run.staged = (m.roundWrites parts).run.staged)))
      ∧ (k.target = .reduction → bits k.addr 63 56 = 0 → arrives (.sumPacket k)
        ∧ (m.takeOf k = .now → m.sumFits k = false → Happens (.sumPacket k) s 0 [] (m.dropPacket k))
        ∧ (∀ p c, m.takeOf k = .now → m.plan.plan = some p → m.collDesc (bits k.addr 31 0) = some c → m.sumFits k = true →
          let i := bits k.addr 31 0
          let stage := bits k.addr 47 32 / 16384
          let j := bits k.addr 47 32 % 16384
          let slot := bits k.addr 55 48
          let vs := packetValues k.data
          (((m.coll i).held stage j slot).isSome = true →
            Completes (.sumPacket k) s (fun t =>
              Observed s t 0 [] [] ∧ t.m.plan = s.m.plan ∧ t.m.hbm = s.m.hbm ∧ t.m.run.colls = s.m.run.colls
              ∧ (s.m.run.phase.runs = true → t.m.run.mark.isSome = true)))
          ∧ ((m.coll i).held stage j slot = none → c.op ≠ .normFinite → vs ≠ [] →
              let stored := m.setColl i (fun x => { x with got := SMap.put none x.got (gotKey stage j slot) (some ⟨vs, 0, false⟩) })
              let n := stored.stageChunk c (p.rankIn c) stage j slot vs
              (sumKey stage j ∉ (stored.coll i).summed → (stored.coll i).sumOf c stage j = none →
                Completes (.sumPacket k) s (fun t =>
                  Observed s t 0 [] [] ∧ t.m.plan = s.m.plan ∧ t.m.hbm = n.hbm ∧ t.m.run.colls = n.run.colls))
              ∧ (∀ v a, sumKey stage j ∉ (stored.coll i).summed → (stored.coll i).sumOf c stage j = some v →
                  c.nextStage stage = none → c.op = .reduceScatter → n.operand c.dstRec = some a →
                Completes (.sumPacket k) s (fun t =>
                  Observed s t 0 [] [] ∧ t.m.plan = s.m.plan
                  ∧ t.m.hbm = ((n.setColl i (fun x => { x with summed := x.summed ++ [sumKey stage j] })).roundWrites
                      (storeF32 a ((j % c.shardChunks) * 896) v.values)).hbm))))))
    ∧ (∀ k a, k.dst ≠ Config.position → (firstHops k.dst).filter (fun r => (m.liveChannel r).isSome) = [a] →
      Happens (.packetForward k) s 0 [] ((m.send (.forward a k)).count Cnt.fabricForwarded 1))
    ∧ (∀ f, 768 ≤ f.flag → f.flag ≤ 1023 → f.inc = 1 →
        let held : Mod := { m with fab := { m.fab with flagWait := m.fab.flagWait ++ [f] } }
        let isOpen := m.run.phase.isOpen && m.run.phase != .doused && m.run.phase != .replay
        (isOpen = true → f.serial = m.run.serial → f.attempt = m.run.attempt → f.sender ∈ m.others →
          Happens (.flagInc f) s 0 [] held.applyFlags)
        ∧ (m.run.phase = .none → (m.plan.st ≠ .running ∨ f.serial ≠ m.nextRoundSerial ∨ f.attempt ≠ 0) →
          Happens (.flagInc f) s 0 [] m.dropEmber)
        ∧ (m.run.phase = .none → m.plan.st = .running → f.serial = m.nextRoundSerial → f.attempt = 0 →
          Happens (.flagInc f) s 0 [] held))
    ∧ (∀ f, f.flag < 768 →
        Completes (.flagInc f) s (fun t =>
          Observed s t 0 [] [] ∧ t.m.run = s.m.run ∧ t.m.fab.flagWait = s.m.fab.flagWait ∧ t.m.hbm = s.m.hbm))

/-! ### Tests, links, time, reports -/

/-- TEST_START, TEST_COMPLETE, TEST_DUE and TEST_OVERDUE (R419 to R422): a window tests the earliest due target that
fits what remains of it; a completed test leaves its result and the time, a failed one ATTN_INTEGRITY; a target due or
overdue is reported once. Rests on the model's readings of assumption logs 7, 56. -/
def Obligations.TestsRunInWindows : Prop :=
  ∀ s : State, s.Quiet →
    let m := s.m.fresh
    (∀ window core remainNs kinds cores target, m.testWindow window = some (kinds, cores) → m.run.phase = .run → core < 8 →
        bit cores core = true → m.withdrawnCores = [] → (m.tests.running.any (fun t => t.core == core)) = false →
        m.earliest (m.candidates core kinds) = some target → TestKind.ns target.kind ≤ remainNs →
      Happens (.testStart window core remainNs) s 0 []
        { m with tests := { m.tests with running := m.tests.running
          ++ [⟨core, target, if target.kind = .stream then (m.cmdCtxs core).head? else none, false⟩] } })
    ∧ (∀ core result x, m.tests.running.find? (fun t => t.core == core) = some x →
        (x.aborted = false → result.pass = true →
          Completes (.testComplete core result) s (fun t =>
            Observed s t 0 [] [] ∧ t.m.tests.running = s.m.tests.running.filter (fun t => t.core != core)
            ∧ t.m.testRow x.target = ⟨TestRes.pass, s.m.powerOnS, false, false⟩ ∧ t.m.run = s.m.run
            ∧ t.m.units = s.m.units))
        ∧ (x.aborted = false → result.pass = false →
          Completes (.testComplete core result) s (fun t =>
            Observed s t Attn.integrity [] [] ∧ t.m.tests.running = s.m.tests.running.filter (fun t => t.core != core)
            ∧ t.m.testRow x.target = ⟨TestRes.fail, s.m.powerOnS, false, false⟩ ∧ t.m.run = s.m.run
            ∧ (x.target.kind = .sparse → (t.m.unit x.target.address).pending = true)))
        ∧ (x.aborted = true →
          Completes (.testComplete core result) s (fun t =>
            Observed s t 0 [] [] ∧ t.m.tests.running = s.m.tests.running.filter (fun t => t.core != core)
            ∧ (t.m.testRow x.target).result = TestRes.aborted ∧ t.m.run = s.m.run ∧ t.m.units = s.m.units)))
    ∧ (∀ target, m.dueAt target ≤ m.powerOnS → (m.testRow target).dueSeen = false →
      Happens (.testDue target) s Attn.test [] (m.setRow target (fun y => { y with dueSeen := true })))
    ∧ (∀ target, (m.testRow target).last + TestKind.overdueS target.kind ≤ m.powerOnS →
        (m.testRow target).overdueSeen = false →
      Completes (.testOverdue target) s (fun t =>
        Observed s t Attn.test [] [] ∧ t.m.tests = (m.setRow target (fun y => { y with overdueSeen := true })).tests
        ∧ t.m.run = s.m.run))

/-- CHANNEL_DOWN, PEER_SILENCE_TIMEOUT, LANE_FAIL, SPARE_LANE_ROTATE, FLIT_ERROR and NAK (R317, R320, R341, R342): a
lost channel is down, and unacknowledged ember traffic marks the round; the first lost lane is replaced by the spare, a
second takes the channel down; a NAK replays, and a flit that fails three replays takes the channel down. Rests on the
model's readings of assumption logs 3, 51, 52. Rests on the model's readings of assumption logs 3, 51, 52. -/
def Obligations.ChannelsFailAndReplay : Prop :=
  ∀ s : State, s.Quiet → ∀ k, k < 28 →
    let m := s.m.fresh
    let c := m.chan k
    let lost := fun (loose : Bool) (t : State) =>
      Observed s t Attn.fault [] [] ∧ (t.m.chan k).st = .down ∧ (t.m.chan k).downs = satInc c.downs
      ∧ t.m.run = (if loose then (m.markDouse Douse.fabricLoss).run else s.m.run) ∧ t.m.hbm = s.m.hbm
    ((c.st = .up ∨ c.st = .shadow) →
      (∀ loose, Completes (.channelDown k loose) s (lost loose) ∧ Completes (.peerSilenceTimeout k loose) s (lost loose))
      ∧ (∀ lane loose, lane < 9 → c.failedLane = none →
        Completes (.laneFail k lane loose) s (fun t =>
          (t.m.chan k) = { c with failedLane := some lane, lanes := c.lanes - 1,
                                  laneSwitches := if lane ≠ 8 then satInc c.laneSwitches else c.laneSwitches }
          ∧ t.m.run = s.m.run ∧ t.m.hbm = s.m.hbm ∧ ∃ a, Observed s t a [] []))
      ∧ (∀ lane loose, lane < 9 → c.failedLane.isSome = true → Completes (.laneFail k lane loose) s (lost loose)))
    ∧ (c.failedLane = none →
      Happens (.spareLaneRotate k) s 0 [] (m.setChan k (fun c => { c with copyLane := (c.copyLane + 1) % 8 })))
    ∧ (c.st = .up →
      (∀ lastGood, Happens (.flitError k lastGood) s 0 []
        ((m.setChan k (fun c => { c with recvSeq := lastGood % 4096 })).send (.nak k (lastGood % 4096))))
      ∧ (∀ ackSeq loose,
          let again := decide (0 < c.tries ∧ c.acked = ackSeq % 4096)
          (again = false ∨ c.tries < 3 →
            Happens (.nak k ackSeq loose) s 0 []
              ((m.setChan k (fun c => { c with
                acked := ackSeq % 4096, tries := if again then c.tries + 1 else 1,
                replays := min cntMax (c.replays + 1) })).send (.replay k ((ackSeq + 1) % 4096))))
          ∧ (again = true → 3 ≤ c.tries → Completes (.nak k ackSeq loose) s (lost loose))))

/-- TIME_EXCHANGE, TIME_FLIT, TIME_UNLOCKED and TIMEBASE_STEP (R327 to R329): 10 µs pass; an exchange with the parent
gives θ, by which a FREE module is ACQUIRING, an ACQUIRING one that has stepped is LOCKED after 16 exchanges within 2
ns, a LOCKED one past 25 ns acquires again; a module in HOLDOVER without an answer is UNLOCKED, with ATTN_FAULT; an
ACQUIRING one steps once. Rests on the model's readings of assumption logs 7, 52. -/
def Obligations.TheTimeBaseLocks : Prop :=
  ∀ s : State, s.Quiet →
    let m := s.m.fresh
    (m.dataPlane = true →
      Happens .timeExchange s 0 []
        (({ m with fab := { m.fab with time := (m.fab.time + 10000) % 2 ^ 64 } }).sendAll
          (((List.range 28).filter (fun k => (m.chan k).st == ChanSt.up)).map Sent.time)))
    ∧ (∀ k s1 r1 s2 r2 alt, m.dataPlane = true → k < 28 → (m.chan k).st = .up → m.fab.parentOf (m.roleNow k) = some alt →
        m.run.phase ≠ .waiting →
        let theta2 := (r1 - s1) - (r2 - s2)
        let now := fun (st : TimeSt) (t : State) => Observed s t 0 [] [] ∧ t.m.fab.theta2 = theta2 ∧ t.m.fab.timeState = st
          ∧ t.m.fab.onAlt = alt ∧ t.m.run = s.m.run ∧ t.m.hbm = s.m.hbm
        (m.fab.timeState = .free → Completes (.timeFlit k s1 r1 s2 r2) s (now .acquiring))
        ∧ (m.fab.timeState = .acquiring → m.fab.stepped = true → m.fab.onAlt = alt → 15 ≤ m.fab.good →
            thetaOver theta2 2 = false → Completes (.timeFlit k s1 r1 s2 r2) s (now .locked))
        ∧ (m.fab.timeState = .acquiring → m.fab.stepped = false → Completes (.timeFlit k s1 r1 s2 r2) s (now .acquiring))
        ∧ (m.fab.timeState = .locked → thetaOver theta2 25 = true →
            Completes (.timeFlit k s1 r1 s2 r2) s (now .acquiring))
        ∧ (m.fab.timeState = .locked → thetaOver theta2 25 = false →
            Completes (.timeFlit k s1 r1 s2 r2) s (now .locked)))
    ∧ (m.fab.timeState = .holdover → m.fab.answered = false →
      Completes .timeUnlocked s (fun t =>
        Observed s t Attn.fault [] [] ∧ t.m.fab.timeState = .unlocked ∧ t.m.run = s.m.run ∧ t.m.hbm = s.m.hbm))
    ∧ (m.fab.timeState = .acquiring → m.fab.answered = true → m.fab.stepped = false → m.fabricOpen = false →
        m.fab.theta2 % 2 = 0 →
      Happens .timebaseStep s 0 []
        { m with fab := { m.fab with
          time := unsigned 64 ((m.fab.time : Int) + m.fab.theta2 / 2), stepped := true, good := 0 } })

/-- REPORT, STORM and REPORT_HOLD_EXPIRY (R343 to R347): a record is held, merged into one of equal suspect, class and
round; when its time has come the root writes it, another module sends it to its parent, at most 64 in a round. Rests on
the model's readings of assumption log 54. Rests on the model's readings of assumption log 54. -/
def Obligations.SuspectsClimbTheTree : Prop :=
  ∀ s : State, s.Quiet → s.m.dataPlane = true →
    let m := s.m.fresh
    (∀ r, Happens (.report r) s 0 [] (m.holdSuspect r)
      ∧ Happens (.storm r) s 0 [] (m.holdSuspect { r with suspect := 0xFFFF, cls := .storm, detail := 0 })
      ∧ ((m.fab.suspects.any (fun x => suspectSame x r)) = false →
          m.holdSuspect r = { m with fab := { m.fab with suspects := m.fab.suspects ++ [r] } }))
    ∧ (∀ i r, m.fab.suspects[i]? = some r →
      (m.fab.reportParent = 0xFFFF →
        Completes (.reportHoldExpiry i) s (fun t =>
          Observed s t Attn.fault [] [] ∧ t.m.fab = { s.m.fresh.fab with suspects := s.m.fab.suspects.eraseIdx i }
          ∧ t.m.run = s.m.run ∧ t.m.hbm = s.m.hbm))
      ∧ (∀ dest, m.fab.reportParent ≠ 0xFFFF → m.reportTo r = some dest → r.cls ≠ .storm → m.fab.sentRecords < 64 →
        Happens (.reportHoldExpiry i) s 0 []
          (({ m with fab := { m.fab with
            suspects := m.fab.suspects.eraseIdx i, sentRecords := m.fab.sentRecords + 1 } }).send (.report dest r))))

/-! ### Bank events -/

/-- HELLO, HELLO_TICK, BANK_OPEN, BANK_DATA, SEAL and BANK_ABORT (R441, R445, R446, R449): the partner's limits are
noted and this module's told; an OPEN takes the slot that does not hold the latest image, or is refused for want of
space; DATA fills it; a SEAL whose checks pass makes the image SEALED and the latest, one whose checks fail EMPTY; an
ABORT ends the filling. Rests on the model's readings of assumption logs 58, 60, 61. -/
def Obligations.TheHolderKeepsImages : Prop :=
  ∀ s : State, s.Quiet → s.m.dataPlane = true →
    let m := s.m.fresh
    (∀ q x, Happens (.hello q x) s 0 [] { m with bank := { m.bank with partner := 1, partnerQ := q, partnerX := x } })
    ∧ Happens .helloTick s 0 []
        (m.sendAll (([0x16, 0x17].filter (fun role => (m.liveChannel role).isSome)).map
          (fun role => Sent.hello role m.bankQ m.bankX)))
    ∧ (∀ header,
        let hdr := fitBytes 64 header
        let x := heldOf 1 hdr
        (m.bankQ < x.imageBytes →
          Happens (.bankOpen header) s 0 [] (m.send (.ack partnerWord .noSpace 0 x.step.toNat x.imageBytes)))
        ∧ (x.imageBytes ≤ m.bankQ → 64 ≤ m.bankQ →
          Completes (.bankOpen header) s (fun t =>
            Observed s t 0 [] [] ∧ t.m.bank.held m.bank.openSlot = x
            ∧ t.m.hbm = (m.wr (m.heldBase m.bank.openSlot) hdr).hbm
            ∧ t.m.bank.latest ≠ some m.bank.openSlot ∧ t.m.run = s.m.run
            ∧ t.m.fab.out = [.ack partnerWord .ok m.bank.openSlot x.step.toNat x.imageBytes])))
    ∧ (∀ offset data, data.length ≤ 3824 →
        (∀ area, area < 2 → (m.bank.held area).st = 1 → offset + data.length ≤ m.bankQ →
          Happens (.bankData area offset data) s 0 [] (m.wr (m.heldBase area + offset) data))
        ∧ (offset + data.length ≤ m.bankX →
          Completes (.bankData 0xFF offset data) s (fun t =>
            Observed s t 0 [] [] ∧ t.m.hbm = (m.wr (m.snapBase + offset) data).hbm ∧ t.m.run = s.m.run)))
    ∧ (∀ k header, k < 2 → (m.bank.held k).st = 1 → 64 ≤ m.bankQ →
        let hdr := fitBytes 64 header
        let n := m.wr (m.heldBase k) hdr
        let dir := n.rdBytes (m.heldBase k + 64) (min (dirLen hdr) m.bankQ)
        let ok := imgCrcOk hdr dir && n.dataCrcOk (m.heldBase k) m.bankQ dir
        Completes (.seal k header) s (fun t =>
          Observed s t 0 [] [] ∧ t.m.hbm = n.hbm
          ∧ t.m.bank.held k = (if ok then heldOf 2 hdr else { m.bank.held k with st := 3 })
          ∧ t.m.bank.latest = (if ok then some k else s.m.bank.latest)
          ∧ t.m.fab.out = [.ack partnerWord (if ok then .ok else .poison) k (m.bank.held k).step.toNat
              (m.bank.held k).imageBytes]))
    ∧ (∀ k serial, k < 2 → (m.bank.held k).serial.toNat = serial →
        Happens (.bankAbort k serial) s 0 [] (m.setHeld k (m.bank.held k).abort))

/-- ACK, BANK_EXTENT_READ, HOST_COPY_COMPLETE, PARTNER_LOST and PULL (R444, R446, R448, R449, R451, R455): an accepted
OPEN sends the directory; extents follow in order, then SEAL; an accepted SEAL settles the send, and a whole host copy
the copy; a lost partner ends the send and what fills here; a PULL is refused, or served by its owner's right or by a
grant. Rests on the model's readings of assumption logs 60, 61. -/
def Obligations.TheSenderAndThePartner : Prop :=
  ∀ s : State, s.Quiet → s.m.dataPlane = true → s.m.run.phase ≠ .waiting →
    let m := s.m.fresh
    (∀ u, m.bank.upd = some u →
      (∀ area, m.bank.relight = none → area < 2 → u.send = .opened →
        Happens (.ack .ok area u.step.toNat u.bytes) s 0 []
          ((m.setSend (.sending area)).sendAll (dataPackets partnerWord area 64 u.dir)))
      ∧ (∀ area a, m.bank.relight = none → u.send = .sealed a → u.host = none →
        Completes (.ack .ok area u.step.toNat u.bytes) s (fun t =>
          Observed s t 0 [] [] ∧ t.m.bank
            = { s.m.bank with sentStep := some u.step, lastResult := 1, upd := none, pins := [] } ∧ t.m.hbm = s.m.hbm))
      ∧ (∀ e a, u.extents[u.read.length]? = some e → m.poisoned e.2.1 e.2.2.1 = false → u.send = .sending a →
          u.host = none →
        Completes (.bankExtentRead u.read.length) s (fun t =>
          Observed s t 0 [] [] ∧ t.m.hbm = s.m.hbm
          ∧ t.m.fab.out = dataPackets partnerWord a e.1 (m.rdBytes e.2.1 e.2.2.1)
              ++ (if u.read.length + 1 = u.extents.length then [.seal a (sealHeader u.header)] else [])
          ∧ ∃ u', t.m.bank.upd = some u' ∧ u'.read = u.read ++ [u.read.length] ∧ u'.header = u.header
              ∧ u'.send = (if u.read.length + 1 = u.extents.length then .sealed a else .sending a)))
      ∧ (∀ k, u.host = some k → u.send = .none → u.read.length = u.extents.length → m.pairOk k u.bytes = true →
        Completes .hostCopyComplete s (fun t =>
          (∃ ws, Observed s t 0 ws []) ∧ t.m.bank.upd = none ∧ t.m.bank.pins = [] ∧ t.m.bank.lastResult = 1
          ∧ t.m.bank.hostStep0 = (if k = 0 then some u.step else s.m.bank.hostStep0)
          ∧ t.m.bank.hostStep1 = (if k = 0 then s.m.bank.hostStep1 else some u.step) ∧ t.m.hbm = s.m.hbm)))
    ∧ (∀ r area bytes, m.bank.relight = some r → r.source = 0 →
        Completes (.ack .notHeld area r.step.toNat bytes) s (fun t =>
          Observed s t 0 [] [⟨r.ticket.port, r.ticket.tag, Op.relight, Cls.rejected, Detail.bankStale, []⟩]
          ∧ t.m.bank = { s.m.bank with relight := none, relightFailed := true } ∧ t.m.hbm = s.m.hbm))
    ∧ (m.bank.partner ≠ 2 → m.bank.upd = none →
        Happens .partnerLost s 0 []
          { m with bank := { m.bank with
            partner := 2, held0 := m.bank.held0.abort, held1 := m.bank.held1.abort, snap := m.bank.snap.abort } })
    ∧ (∀ source owner step, m.bank.upd = none → step < 2 ^ 32 →
        (m.bank.sealedSlot owner (BitVec.ofNat 32 step) = none →
          Happens (.pull source owner step) s 0 [] (m.send (.ack source .notHeld 0 step 0)))
        ∧ (∀ k, m.bank.sealedSlot owner (BitVec.ofNat 32 step) = some k → m.bank.serving = true →
          Happens (.pull source owner step) s 0 [] (m.send (.ack source .busy 0 step 0)))
        ∧ (∀ k, m.bank.sealedSlot owner (BitVec.ofNat 32 step) = some k → m.bank.serving = false → source = owner →
          Completes (.pull source owner step) s (fun t =>
            Observed s t 0 [] [] ∧ t.m.bank = { s.m.bank with pulled := some (source, k) } ∧ t.m.hbm = s.m.hbm
            ∧ t.m.fab.out = dataPackets source 0xFE 0
                (m.rdBytes (m.heldBase k) (m.cleanBytes (m.heldBase k) (m.bank.held k).imageBytes))))
        ∧ (∀ k, m.bank.sealedSlot owner (BitVec.ofNat 32 step) = some k → m.bank.serving = false → source ≠ owner →
            m.bank.grantFor source owner (BitVec.ofNat 32 step) = none →
          Happens (.pull source owner step) s 0 [] (m.send (.ack source .notGranted 0 step 0))))

/-! ### Every step -/

/-- A step takes the command at the front of the queue and runs it on the state with the queue's rest. On an empty queue
the block idles (the model's choice, assumption log 13). -/
def Obligations.StepRunsTheFrontCommand : Prop :=
  (∀ (c : Instr) (rest : List Instr) (s : State), step { s with pending := c :: rest } = exec c { s with pending := rest })
  ∧ (∀ s : State, s.pending = [] → step s = .next s)

/-- Whatever a step does, it leaves a legal state (R465, R470): both register blocks as R465 leaves them, nothing
waiting to be handed over, host memory in canonical form. -/
def Obligations.EveryStepLeavesALegalState : Prop :=
  ∀ s t : State, s.Settled → step s = .next t → t.Settled

/-- The state after reset is legal (R464, R465): the register blocks are at their reset values and the rings stand
still; the module is in STANDBY, as MODULE_RESET leaves it (the choice of assumption log 1), and nothing waits. -/
def Obligations.ResetIsALegalState : Prop :=
  State.reset.Settled ∧ State.reset.m.hbm.Canonical ∧ State.reset.pending = [] ∧ State.reset.m.ctl.state = .standby
  ∧ ∀ p, let x := State.reset.io.port p
      x.cmdBase = 0 ∧ x.replyBase = 0 ∧ x.enable = false ∧ x.running = false ∧ x.error = false
      ∧ x.consumed = 0 ∧ x.replyConsumed = 0 ∧ x.replyProduced = 0

/-- No command of a ring gets round the fetch, the reply ring's room and the checks of R474 (R467, R469, R471, R474,
R482, R485): a packet that cannot be fetched changes nothing; one without room for its replies counts a stall and is not
taken; reserved bits, a port that may not send the command and a module state that does not accept it are REJECTED, and
nothing but CNT_CMD_REJECTED and the owner's renewal changes in the module. Rests on the model's readings of assumption
log 22. -/
def Obligations.RingCommandsAreChecked : Prop :=
  ∀ (i : Instr) (h : Cmd) (op : Nat) (own : Bool), ringCommand i = some (h, op, own) → ∀ s : State,
    let rejected := fun d => Completes i s (fun t =>
      Answered s t h 0 [] op Cls.rejected d [] ∧ t.m = (s.found h).count Cnt.cmdRejected 1)
    (s.fetches h.port = false → exec i s = .next s)
    ∧ (s.fetches h.port = true → (s.io.port h.port).hasRoom = false →
        exec i s = .next { s with m := s.m.count Cnt.replyStall 1 })
    ∧ (s.fetches h.port = true → (s.io.port h.port).hasRoom = true → s.Quiet →
        (h.rsv ≠ 0 → rejected Detail.badReserved)
        ∧ (own = true → s.m.ctl.owner ≠ some h.port → rejected Detail.badReserved ∨ rejected Detail.notOwner)
        ∧ (s.m.ctl.state.accepts op = false → ∃ d, rejected d))

/-- Module memory and host memory are bytes at addresses: a write of the module reads back, leaves every other byte
alone and keeps the canonical form; so does every write that a command hands to host memory, its replies and completions
among them. Rests on the model's readings of assumption logs 2, 5. -/
def Obligations.MemoryHoldsWhatIsWritten : Prop :=
  (∀ (m : Mod) (a : Nat) (bs : Bytes), m.hbm.Canonical →
    (m.wr a bs).hbm.Canonical
    ∧ (∀ i (hi : i < bs.length), (m.wr a bs).rd (a + i) = bs[i])
    ∧ (∀ x, x < a ∨ a + bs.length ≤ x → (m.wr a bs).rd x = m.rd x)
    ∧ (m.wr a bs).bank = m.bank ∧ (m.wr a bs).plan = m.plan ∧ (m.wr a bs).ctl = m.ctl)
  ∧ (∀ (io : HostIo) (port bus : Nat) (bs : Bytes), Memory.wf io.mem = true →
    let n := io.store [⟨port, bus, bs⟩]
    Memory.wf n.mem = true
    ∧ (∀ i (hi : i < bs.length), SMap.get 0 n.mem (hostKey port bus + i) = bs[i])
    ∧ (∀ x, x < hostKey port bus ∨ hostKey port bus + bs.length ≤ x → SMap.get 0 n.mem x = SMap.get 0 io.mem x)
    ∧ n.p0 = io.p0 ∧ n.p1 = io.p1)
  ∧ (∀ (io : HostIo) (r : Reply), Memory.wf io.mem = true → (io.port r.port).running = true → io.owes r = true →
    let x := io.port r.port
    let slot := x.replyBase.toNat + 32 * (x.replyProduced.toNat % 4096)
    let bs := replyBytes x.replyProduced r.tag x.attn r.cls r.detail r.opcode 1 r.result
    let n := io.putCompletion r
    bs.length = 32 ∧ Memory.wf n.mem = true
    ∧ (∀ i (hi : i < bs.length), SMap.get 0 n.mem (hostKey r.port slot + i) = bs[i])
    ∧ (∀ a, a < hostKey r.port slot ∨ hostKey r.port slot + 32 ≤ a → SMap.get 0 n.mem a = SMap.get 0 io.mem a)
    ∧ (n.port r.port).replyProduced = x.replyProduced + 1 ∧ (n.port r.port).owed = dropOwed r.tag r.opcode x.owed)
end

