-- ==== Sys2Proof/Laws/Map.lean ====
section
/-! SUPPORT. Laws of the sparse maps: what a read gives after a write, and that every operation keeps the canonical
form. -/
namespace Sys2Proof.SMap

variable {α : Type}

/-- Reading back what was listed. -/
theorem get_ins_same (d v : α) (k : Nat) : ∀ m : SMap α, get d (ins k v m) k = v
  | [] => by simp [ins, get]
  | (a, w) :: m => by
    by_cases h : a = k
    · simp [ins, get, h]
    · by_cases h2 : k < a
      · simp [ins, get, h, h2]
      · simp [ins, get, h, h2, get_ins_same d v k m]

/-- Listing under one key leaves every other key as it was. -/
theorem get_ins_other (d v : α) {k j : Nat} (hj : j ≠ k) : ∀ m : SMap α, get d (ins k v m) j = get d m j
  | [] => by simp [ins, get, Ne.symm hj]
  | (a, w) :: m => by
    by_cases h : a = k
    · subst h; simp [ins, get, Ne.symm hj]
    · by_cases h2 : k < a
      · by_cases h3 : j < k
        · have : j < a := Nat.lt_trans h3 h2
          have h4 : a ≠ j := by omega
          simp [ins, get, h, h2, Ne.symm hj, h3, this, h4]
        · simp [ins, get, h, h2, Ne.symm hj, h3]
      · simp [ins, get, h, h2, get_ins_other d v hj m]

/-- A value other than the default reads back. -/
theorem get_put_same [DecidableEq α] {d v : α} (hv : v ≠ d) (m : SMap α) (k : Nat) : get d (put d m k v) k = v := by
  simp [put, hv, get_ins_same]

theorem rising_weaken : ∀ {m : SMap α} {lo lo' : Option Nat},
    (∀ l, lo' = some l → ∃ l2, lo = some l2 ∧ l ≤ l2) → rising lo m = true → rising lo' m = true
  | [], _, _, _, _ => by simp [rising]
  | (a, _) :: m, lo, lo', hl, h => by
    cases lo' with
    | none =>
      simp only [rising, Bool.and_eq_true] at h ⊢
      exact ⟨trivial, h.2⟩
    | some l =>
      obtain ⟨l2, rfl, hle⟩ := hl l rfl
      simp only [rising, Bool.and_eq_true, decide_eq_true_eq] at h ⊢
      exact ⟨by omega, h.2⟩

theorem rising_tail {a : Nat} {v : α} {m : SMap α} {lo : Option Nat} (h : rising lo ((a, v) :: m) = true) :
    rising (some a) m = true := by
  simp only [rising, Bool.and_eq_true] at h; exact h.2

/-- Below every listed key a read gives the default. -/
theorem get_below (d : α) : ∀ {m : SMap α} {lo k : Nat}, rising (some lo) m = true → k ≤ lo → get d m k = d
  | [], _, _, _, _ => by simp [get]
  | (a, v) :: m, lo, k, h, hk => by
    simp only [rising, Bool.and_eq_true, decide_eq_true_eq] at h
    have h1 : k < a := by omega
    have h2 : a ≠ k := by omega
    simp [get, h1, h2]

theorem rising_ins {v : α} {k : Nat} : ∀ {m : SMap α} {lo : Option Nat},
    (∀ l, lo = some l → l < k) → rising lo m = true → rising lo (ins k v m) = true
  | [], lo, hl, _ => by
    cases lo with
    | none => simp [ins, rising]
    | some l => simp [ins, rising, hl l rfl]
  | (a, w) :: m, lo, hl, h => by
    by_cases h1 : a = k
    · subst h1
      simpa [ins, rising] using h
    · by_cases h2 : k < a
      · have ht := rising_tail h
        cases lo with
        | none => simp [ins, rising, h1, h2, ht]
        | some l => simp [ins, rising, h1, h2, ht, hl l rfl]
      · have ht := rising_tail h
        have hka : a < k := by omega
        have := rising_ins (v := v) (k := k) (m := m) (lo := some a) (by intro l hl; cases hl; exact hka) ht
        cases lo with
        | none => simp [ins, rising, h1, h2, this]
        | some l =>
          simp only [rising, Bool.and_eq_true, decide_eq_true_eq] at h
          simp [ins, rising, h1, h2, this, h.1]

theorem rising_del {k : Nat} : ∀ {m : SMap α} {lo : Option Nat}, rising lo m = true → rising lo (del k m) = true
  | [], _, _ => by simp [del, rising]
  | (a, w) :: m, lo, h => by
    have ht := rising_tail h
    by_cases h1 : a = k
    · simp only [del, h1, if_true]
      refine rising_weaken (lo := some a) ?_ ht
      intro l hl; subst hl
      simp only [rising, Bool.and_eq_true, decide_eq_true_eq] at h
      exact ⟨a, rfl, by omega⟩
    · by_cases h2 : k < a
      · simpa [del, h1, h2] using h
      · have := rising_del (k := k) ht
        cases lo with
        | none => simp [del, rising, h1, h2, this]
        | some l =>
          simp only [rising, Bool.and_eq_true, decide_eq_true_eq] at h
          simp [del, rising, h1, h2, this, h.1]

theorem get_del_same {d : α} {k : Nat} : ∀ {m : SMap α} {lo : Option Nat}, rising lo m = true → get d (del k m) k = d
  | [], _, _ => by simp [del, get]
  | (a, w) :: m, lo, h => by
    have ht := rising_tail h
    by_cases h1 : a = k
    · subst h1; simp only [del, if_true]; exact get_below d ht (Nat.le_refl _)
    · by_cases h2 : k < a
      · simp [del, get, h1, h2]
      · simp [del, get, h1, h2, get_del_same ht]

theorem get_del_other {d : α} {k j : Nat} (hj : j ≠ k) : ∀ {m : SMap α} {lo : Option Nat},
    rising lo m = true → get d (del k m) j = get d m j
  | [], _, _ => by simp [del, get]
  | (a, w) :: m, lo, h => by
    have ht := rising_tail h
    by_cases h1 : a = k
    · subst h1
      by_cases h3 : j < a
      · simp [del, get, Ne.symm hj, h3, get_below d ht (Nat.le_of_lt h3)]
      · simp [del, get, Ne.symm hj, h3]
    · by_cases h2 : k < a
      · simp [del, h1, h2]
      · simp [del, get, h1, h2, get_del_other hj ht]

/-- Read after write at the same key. -/
theorem get_put_same_wf [DecidableEq α] {d : α} {m : SMap α} (hm : rising none m = true) (k : Nat) (v : α) :
    get d (put d m k v) k = v := by
  by_cases hv : v = d
  · subst hv; simp [put, get_del_same hm]
  · exact get_put_same hv m k

/-- A write leaves every other key alone. -/
theorem get_put_other [DecidableEq α] {d : α} {m : SMap α} (hm : rising none m = true) {k j : Nat} (hj : j ≠ k) (v : α) :
    get d (put d m k v) j = get d m j := by
  by_cases hv : v = d
  · subst hv; simp [put, get_del_other hj hm]
  · simp [put, hv, get_ins_other d v hj]

theorem all_ins {p : Nat × α → Bool} {k : Nat} {v : α} (hp : p (k, v) = true) : ∀ {m : SMap α},
    m.all p = true → (ins k v m).all p = true
  | [], _ => by simp [ins, hp]
  | (a, w) :: m, h => by
    simp only [List.all_cons, Bool.and_eq_true] at h
    by_cases h1 : a = k
    · simp [ins, h1, hp, h.2]
    · by_cases h2 : k < a
      · simp [ins, h1, h2, hp, h.1, h.2]
      · simp [ins, h1, h2, h.1, all_ins hp h.2]

theorem all_del {p : Nat × α → Bool} {k : Nat} : ∀ {m : SMap α}, m.all p = true → (del k m).all p = true
  | [], _ => by simp [del]
  | (a, w) :: m, h => by
    simp only [List.all_cons, Bool.and_eq_true] at h
    by_cases h1 : a = k
    · simp [del, h1, h.2]
    · by_cases h2 : k < a
      · simp [del, h1, h2, h.1, h.2]
      · simp [del, h1, h2, h.1, all_del h.2]

/-- A write keeps the canonical form. -/
theorem wf_put [DecidableEq α] {d : α} {m : SMap α} (h : wf d m = true) (k : Nat) (v : α) : wf d (put d m k v) = true := by
  simp only [wf, Bool.and_eq_true] at h ⊢
  by_cases hv : v = d
  · simp only [put, hv, if_true]
    exact ⟨rising_del h.1, all_del h.2⟩
  · simp only [put, hv, if_false]
    exact ⟨rising_ins (by intro l hl; cases hl) h.1, all_ins (by simp [hv]) h.2⟩

theorem wf_upd [DecidableEq α] {d : α} {m : SMap α} (h : wf d m = true) (k : Nat) (f : α → α) :
    wf d (upd d m k f) = true := wf_put h k _

theorem rising_filter {p : Nat × α → Bool} : ∀ {m : SMap α} {lo : Option Nat},
    rising lo m = true → rising lo (m.filter p) = true
  | [], _, _ => by simp [rising]
  | (a, w) :: m, lo, h => by
    have ht := rising_tail h
    by_cases hp : p (a, w) = true
    · rw [List.filter_cons_of_pos hp]
      simp only [rising, Bool.and_eq_true] at h ⊢
      exact ⟨h.1, rising_filter ht⟩
    · rw [List.filter_cons_of_neg (by simpa using hp)]
      refine rising_filter (rising_weaken (lo := some a) ?_ ht)
      intro l hl; subst hl
      simp only [rising, Bool.and_eq_true, decide_eq_true_eq] at h
      exact ⟨a, rfl, by omega⟩

/-- Keeping some of the keys keeps the canonical form. -/
theorem wf_keep [DecidableEq α] {d : α} {m : SMap α} (h : wf d m = true) (p : Nat → Bool) : wf d (keep m p) = true := by
  simp only [wf, Bool.and_eq_true] at h ⊢
  refine ⟨rising_filter h.1, ?_⟩
  rw [List.all_eq_true] at h ⊢
  intro x hx
  exact h.2 x ((List.mem_filter.mp hx).1)

/-- A key that is kept reads as before, another one as the default. -/
theorem get_keep {d : α} {k : Nat} {p : Nat → Bool} : ∀ {m : SMap α} {lo : Option Nat},
    rising lo m = true → get d (keep m p) k = if p k = true then get d m k else d
  | [], _, _ => by simp [keep, get]
  | (a, w) :: m, lo, h => by
    have ht := rising_tail h
    have ih := get_keep (d := d) (k := k) (p := p) ht
    unfold keep at ih ⊢
    by_cases hp : p a = true
    · rw [List.filter_cons_of_pos (p := fun e : Nat × α => p e.1) hp]
      simp only [get]
      by_cases e : a = k
      · subst e; simp [hp]
      · rw [if_neg e, if_neg e]
        by_cases l : k < a
        · rw [if_pos l, if_pos l]; split <;> rfl
        · rw [if_neg l, if_neg l]; exact ih
    · rw [List.filter_cons_of_neg (p := fun e : Nat × α => p e.1) (by simpa using hp), ih]
      simp only [get]
      by_cases e : a = k
      · subst e; simp [hp]
      · rw [if_neg e]
        by_cases l : k < a
        · rw [if_pos l, get_below d ht (by omega)]
        · rw [if_neg l]

theorem wf_nil [DecidableEq α] (d : α) : wf d ([] : SMap α) = true := by simp [wf, rising]

end Sys2Proof.SMap
end

