-- ==== Sys2Proof/Laws/Memory.lean ====
section
/-! SUPPORT. Laws of the two memories: a read after a write gives what was written, every other byte stays, and every
operation that writes memory keeps its canonical form. -/
namespace Sys2Proof.Machine

/-- Writing bytes keeps the canonical form. -/
theorem putBytes_wf : ∀ (bs : Bytes) (mem : List Host.Cell) (a : Nat), SMap.wf 0 mem = true → SMap.wf 0 (putBytes mem a bs) = true
  | [], _, _, h => h
  | b :: bs, mem, a, h => putBytes_wf bs _ _ (SMap.wf_put h a b)

theorem SMap.rising_of_wf {mem : List Host.Cell} (h : SMap.wf 0 mem = true) : SMap.rising none mem = true := by
  simp only [SMap.wf, Bool.and_eq_true] at h; exact h.1

/-- Every byte outside the written range reads as before. -/
theorem putBytes_outside : ∀ (bs : Bytes) (mem : List Host.Cell) (a x : Nat), SMap.wf 0 mem = true →
    (x < a ∨ a + bs.length ≤ x) → SMap.get 0 (putBytes mem a bs) x = SMap.get 0 mem x
  | [], _, _, _, _, _ => rfl
  | b :: bs, mem, a, x, h, hx => by
    simp only [List.length_cons] at hx
    have hne : x ≠ a := by omega
    simp only [putBytes]
    rw [putBytes_outside bs _ _ _ (SMap.wf_put h a b) (by omega), SMap.get_put_other (SMap.rising_of_wf h) hne]

/-- Every byte of the written range reads as written. -/
theorem putBytes_inside : ∀ (bs : Bytes) (mem : List Host.Cell) (a i : Nat), SMap.wf 0 mem = true →
    (hi : i < bs.length) → SMap.get 0 (putBytes mem a bs) (a + i) = bs[i]
  | [], _, _, _, _, hi => absurd hi (by simp)
  | b :: bs, mem, a, 0, h, _ => by
    simp only [putBytes, Nat.add_zero, List.getElem_cons_zero]
    rw [putBytes_outside bs _ _ _ (SMap.wf_put h a b) (by omega), SMap.get_put_same_wf (SMap.rising_of_wf h)]
  | b :: bs, mem, a, i + 1, h, hi => by
    simp only [putBytes, List.getElem_cons_succ]
    have : a + (i + 1) = (a + 1) + i := by omega
    rw [this]
    exact putBytes_inside bs _ _ _ (SMap.wf_put h a b) (by simpa using hi)

/-! ### Module memory -/

/-- A write of the module keeps memory in canonical form. -/
theorem Mod.wr_canonical {m : Mod} (h : m.hbm.Canonical) (a : Nat) (bs : Bytes) : (m.wr a bs).hbm.Canonical :=
  putBytes_wf bs _ a h

theorem Mod.zeroHbm_canonical {m : Mod} (h : m.hbm.Canonical) (keep : Nat → Bool) : (m.zeroHbm keep).hbm.Canonical :=
  SMap.wf_keep h (fun a => decide (hbmEnd ≤ a) || keep a)

theorem Mod.dropCoreMemory_canonical {m : Mod} (h : m.hbm.Canonical) (core : Nat) : (m.dropCoreMemory core).hbm.Canonical :=
  SMap.wf_keep h (fun a => !coreMemory core a)

theorem Mod.dropMemory_canonical (m : Mod) : m.dropMemory.hbm.Canonical := SMap.wf_nil 0

/-- A written byte reads back. -/
theorem Mod.rd_wr_inside {m : Mod} (h : m.hbm.Canonical) (a i : Nat) (bs : Bytes) (hi : i < bs.length) :
    (m.wr a bs).rd (a + i) = bs[i] := putBytes_inside bs _ a i h hi

/-- A byte outside the written range stays. -/
theorem Mod.rd_wr_outside {m : Mod} (h : m.hbm.Canonical) (a x : Nat) (bs : Bytes) (hx : x < a ∨ a + bs.length ≤ x) :
    (m.wr a bs).rd x = m.rd x := putBytes_outside bs _ a x h hx

/-- Memory at reset is in canonical form. -/
theorem State.reset_canonical : State.reset.m.hbm.Canonical := by unfold Hbm.Canonical; decide

/-! ### Host memory -/

theorem HostIo.store_wf : ∀ (ws : List HostWrite) (io : HostIo), SMap.wf 0 io.mem = true → SMap.wf 0 (io.store ws).mem = true
  | [], _, h => h
  | w :: ws, io, h => HostIo.store_wf ws { io with mem := putBytes io.mem (hostKey w.port w.bus) w.data } (putBytes_wf _ _ _ h)

/-- A reply keeps the canonical form. -/
theorem HostIo.putReply_wf (io : HostIo) (k : Nat) (r : Reply) (h : SMap.wf 0 io.mem = true) :
    SMap.wf 0 (io.putReply k r).mem = true := by
  unfold HostIo.putReply
  dsimp only
  split
  · unfold HostIo.setPort; split <;> exact putBytes_wf _ _ _ h
  · exact h

/-- A completion keeps the canonical form. -/
theorem HostIo.putCompletion_wf (io : HostIo) (r : Reply) (h : SMap.wf 0 io.mem = true) :
    SMap.wf 0 (io.putCompletion r).mem = true := by
  unfold HostIo.putCompletion
  dsimp only
  split
  · refine HostIo.putReply_wf _ _ _ ?_
    unfold HostIo.setPort; split <;> exact h
  · exact h

end Sys2Proof.Machine
end

