-- ==== Sys2Proof/Laws/State.lean ====
section
/-! SUPPORT. One law per field for the named updates of the state, and what flushing, an event and a command of a ring do. -/
namespace Sys2Proof.Machine

/-! ### Fields after an update of the module -/

@[simp] theorem Mod.fresh_ctl (m : Mod) : m.fresh.ctl = m.ctl := rfl
@[simp] theorem Mod.fresh_side (m : Mod) : m.fresh.side = m.side := rfl
@[simp] theorem Mod.fresh_link0 (m : Mod) : m.fresh.link0 = m.link0 := rfl
@[simp] theorem Mod.fresh_link1 (m : Mod) : m.fresh.link1 = m.link1 := rfl
@[simp] theorem Mod.fresh_regions (m : Mod) : m.fresh.regions = m.regions := rfl
@[simp] theorem Mod.fresh_cnt (m : Mod) : m.fresh.cnt = m.cnt := rfl
@[simp] theorem Mod.fresh_log (m : Mod) : m.fresh.log = m.log := rfl
@[simp] theorem Mod.fresh_ash (m : Mod) : m.fresh.ash = m.ash := rfl
@[simp] theorem Mod.fresh_units (m : Mod) : m.fresh.units = m.units := rfl
@[simp] theorem Mod.fresh_pwr (m : Mod) : m.fresh.pwr = m.pwr := rfl
@[simp] theorem Mod.fresh_hbm (m : Mod) : m.fresh.hbm = m.hbm := rfl
@[simp] theorem Mod.fresh_plan (m : Mod) : m.fresh.plan = m.plan := rfl
@[simp] theorem Mod.fresh_run (m : Mod) : m.fresh.run = m.run := rfl
@[simp] theorem Mod.fresh_ctxs (m : Mod) : m.fresh.ctxs = m.ctxs := rfl
@[simp] theorem Mod.fresh_fenced (m : Mod) : m.fresh.fenced = m.fenced := rfl
@[simp] theorem Mod.fresh_tests (m : Mod) : m.fresh.tests = m.tests := rfl
@[simp] theorem Mod.fresh_fw (m : Mod) : m.fresh.fw = m.fw := rfl
@[simp] theorem Mod.fresh_step (m : Mod) : m.fresh.step = m.step := rfl
@[simp] theorem Mod.fresh_bank (m : Mod) : m.fresh.bank = m.bank := rfl
@[simp] theorem Mod.fresh_free (m : Mod) : m.fresh.free = m.free := rfl
@[simp] theorem Mod.fresh_out (m : Mod) : m.fresh.out = m.out := rfl

@[simp] theorem Mod.count_ctl (m : Mod) (id n : Nat) : (m.count id n).ctl = m.ctl := rfl
@[simp] theorem Mod.count_side (m : Mod) (id n : Nat) : (m.count id n).side = m.side := rfl
@[simp] theorem Mod.count_link0 (m : Mod) (id n : Nat) : (m.count id n).link0 = m.link0 := rfl
@[simp] theorem Mod.count_link1 (m : Mod) (id n : Nat) : (m.count id n).link1 = m.link1 := rfl
@[simp] theorem Mod.count_regions (m : Mod) (id n : Nat) : (m.count id n).regions = m.regions := rfl
@[simp] theorem Mod.count_log (m : Mod) (id n : Nat) : (m.count id n).log = m.log := rfl
@[simp] theorem Mod.count_ash (m : Mod) (id n : Nat) : (m.count id n).ash = m.ash := rfl
@[simp] theorem Mod.count_units (m : Mod) (id n : Nat) : (m.count id n).units = m.units := rfl
@[simp] theorem Mod.count_pwr (m : Mod) (id n : Nat) : (m.count id n).pwr = m.pwr := rfl
@[simp] theorem Mod.count_hbm (m : Mod) (id n : Nat) : (m.count id n).hbm = m.hbm := rfl
@[simp] theorem Mod.count_plan (m : Mod) (id n : Nat) : (m.count id n).plan = m.plan := rfl
@[simp] theorem Mod.count_run (m : Mod) (id n : Nat) : (m.count id n).run = m.run := rfl
@[simp] theorem Mod.count_ctxs (m : Mod) (id n : Nat) : (m.count id n).ctxs = m.ctxs := rfl
@[simp] theorem Mod.count_fenced (m : Mod) (id n : Nat) : (m.count id n).fenced = m.fenced := rfl
@[simp] theorem Mod.count_tests (m : Mod) (id n : Nat) : (m.count id n).tests = m.tests := rfl
@[simp] theorem Mod.count_fw (m : Mod) (id n : Nat) : (m.count id n).fw = m.fw := rfl
@[simp] theorem Mod.count_fab (m : Mod) (id n : Nat) : (m.count id n).fab = m.fab := rfl
@[simp] theorem Mod.count_step (m : Mod) (id n : Nat) : (m.count id n).step = m.step := rfl
@[simp] theorem Mod.count_bank (m : Mod) (id n : Nat) : (m.count id n).bank = m.bank := rfl
@[simp] theorem Mod.count_free (m : Mod) (id n : Nat) : (m.count id n).free = m.free := rfl
@[simp] theorem Mod.count_out (m : Mod) (id n : Nat) : (m.count id n).out = m.out := rfl

@[simp] theorem Mod.tally_ctl (m : Mod) (id n : Nat) : (m.tally id n).ctl = m.ctl := rfl
@[simp] theorem Mod.tally_side (m : Mod) (id n : Nat) : (m.tally id n).side = m.side := rfl
@[simp] theorem Mod.tally_link0 (m : Mod) (id n : Nat) : (m.tally id n).link0 = m.link0 := rfl
@[simp] theorem Mod.tally_link1 (m : Mod) (id n : Nat) : (m.tally id n).link1 = m.link1 := rfl
@[simp] theorem Mod.tally_regions (m : Mod) (id n : Nat) : (m.tally id n).regions = m.regions := rfl
@[simp] theorem Mod.tally_cnt (m : Mod) (id n : Nat) : (m.tally id n).cnt = m.cnt := rfl
@[simp] theorem Mod.tally_log (m : Mod) (id n : Nat) : (m.tally id n).log = m.log := rfl
@[simp] theorem Mod.tally_ash (m : Mod) (id n : Nat) : (m.tally id n).ash = m.ash := rfl
@[simp] theorem Mod.tally_units (m : Mod) (id n : Nat) : (m.tally id n).units = m.units := rfl
@[simp] theorem Mod.tally_pwr (m : Mod) (id n : Nat) : (m.tally id n).pwr = m.pwr := rfl
@[simp] theorem Mod.tally_hbm (m : Mod) (id n : Nat) : (m.tally id n).hbm = m.hbm := rfl
@[simp] theorem Mod.tally_plan (m : Mod) (id n : Nat) : (m.tally id n).plan = m.plan := rfl
@[simp] theorem Mod.tally_ctxs (m : Mod) (id n : Nat) : (m.tally id n).ctxs = m.ctxs := rfl
@[simp] theorem Mod.tally_fenced (m : Mod) (id n : Nat) : (m.tally id n).fenced = m.fenced := rfl
@[simp] theorem Mod.tally_tests (m : Mod) (id n : Nat) : (m.tally id n).tests = m.tests := rfl
@[simp] theorem Mod.tally_fw (m : Mod) (id n : Nat) : (m.tally id n).fw = m.fw := rfl
@[simp] theorem Mod.tally_fab (m : Mod) (id n : Nat) : (m.tally id n).fab = m.fab := rfl
@[simp] theorem Mod.tally_step (m : Mod) (id n : Nat) : (m.tally id n).step = m.step := rfl
@[simp] theorem Mod.tally_bank (m : Mod) (id n : Nat) : (m.tally id n).bank = m.bank := rfl
@[simp] theorem Mod.tally_free (m : Mod) (id n : Nat) : (m.tally id n).free = m.free := rfl
@[simp] theorem Mod.tally_out (m : Mod) (id n : Nat) : (m.tally id n).out = m.out := rfl

@[simp] theorem Mod.tallyEvent_ctl (m : Mod) (id n : Nat) : (m.tallyEvent id n).ctl = m.ctl := rfl
@[simp] theorem Mod.tallyEvent_side (m : Mod) (id n : Nat) : (m.tallyEvent id n).side = m.side := rfl
@[simp] theorem Mod.tallyEvent_link0 (m : Mod) (id n : Nat) : (m.tallyEvent id n).link0 = m.link0 := rfl
@[simp] theorem Mod.tallyEvent_link1 (m : Mod) (id n : Nat) : (m.tallyEvent id n).link1 = m.link1 := rfl
@[simp] theorem Mod.tallyEvent_regions (m : Mod) (id n : Nat) : (m.tallyEvent id n).regions = m.regions := rfl
@[simp] theorem Mod.tallyEvent_cnt (m : Mod) (id n : Nat) : (m.tallyEvent id n).cnt = m.cnt := rfl
@[simp] theorem Mod.tallyEvent_log (m : Mod) (id n : Nat) : (m.tallyEvent id n).log = m.log := rfl
@[simp] theorem Mod.tallyEvent_ash (m : Mod) (id n : Nat) : (m.tallyEvent id n).ash = m.ash := rfl
@[simp] theorem Mod.tallyEvent_units (m : Mod) (id n : Nat) : (m.tallyEvent id n).units = m.units := rfl
@[simp] theorem Mod.tallyEvent_pwr (m : Mod) (id n : Nat) : (m.tallyEvent id n).pwr = m.pwr := rfl
@[simp] theorem Mod.tallyEvent_hbm (m : Mod) (id n : Nat) : (m.tallyEvent id n).hbm = m.hbm := rfl
@[simp] theorem Mod.tallyEvent_plan (m : Mod) (id n : Nat) : (m.tallyEvent id n).plan = m.plan := rfl
@[simp] theorem Mod.tallyEvent_ctxs (m : Mod) (id n : Nat) : (m.tallyEvent id n).ctxs = m.ctxs := rfl
@[simp] theorem Mod.tallyEvent_fenced (m : Mod) (id n : Nat) : (m.tallyEvent id n).fenced = m.fenced := rfl
@[simp] theorem Mod.tallyEvent_tests (m : Mod) (id n : Nat) : (m.tallyEvent id n).tests = m.tests := rfl
@[simp] theorem Mod.tallyEvent_fw (m : Mod) (id n : Nat) : (m.tallyEvent id n).fw = m.fw := rfl
@[simp] theorem Mod.tallyEvent_fab (m : Mod) (id n : Nat) : (m.tallyEvent id n).fab = m.fab := rfl
@[simp] theorem Mod.tallyEvent_step (m : Mod) (id n : Nat) : (m.tallyEvent id n).step = m.step := rfl
@[simp] theorem Mod.tallyEvent_bank (m : Mod) (id n : Nat) : (m.tallyEvent id n).bank = m.bank := rfl
@[simp] theorem Mod.tallyEvent_free (m : Mod) (id n : Nat) : (m.tallyEvent id n).free = m.free := rfl
@[simp] theorem Mod.tallyEvent_out (m : Mod) (id n : Nat) : (m.tallyEvent id n).out = m.out := rfl

@[simp] theorem Mod.attention_ctl (m : Mod) (b : Byte) : (m.attention b).ctl = m.ctl := rfl
@[simp] theorem Mod.attention_side (m : Mod) (b : Byte) : (m.attention b).side = m.side := rfl
@[simp] theorem Mod.attention_link0 (m : Mod) (b : Byte) : (m.attention b).link0 = m.link0 := rfl
@[simp] theorem Mod.attention_link1 (m : Mod) (b : Byte) : (m.attention b).link1 = m.link1 := rfl
@[simp] theorem Mod.attention_regions (m : Mod) (b : Byte) : (m.attention b).regions = m.regions := rfl
@[simp] theorem Mod.attention_cnt (m : Mod) (b : Byte) : (m.attention b).cnt = m.cnt := rfl
@[simp] theorem Mod.attention_log (m : Mod) (b : Byte) : (m.attention b).log = m.log := rfl
@[simp] theorem Mod.attention_ash (m : Mod) (b : Byte) : (m.attention b).ash = m.ash := rfl
@[simp] theorem Mod.attention_units (m : Mod) (b : Byte) : (m.attention b).units = m.units := rfl
@[simp] theorem Mod.attention_pwr (m : Mod) (b : Byte) : (m.attention b).pwr = m.pwr := rfl
@[simp] theorem Mod.attention_hbm (m : Mod) (b : Byte) : (m.attention b).hbm = m.hbm := rfl
@[simp] theorem Mod.attention_plan (m : Mod) (b : Byte) : (m.attention b).plan = m.plan := rfl
@[simp] theorem Mod.attention_run (m : Mod) (b : Byte) : (m.attention b).run = m.run := rfl
@[simp] theorem Mod.attention_ctxs (m : Mod) (b : Byte) : (m.attention b).ctxs = m.ctxs := rfl
@[simp] theorem Mod.attention_fenced (m : Mod) (b : Byte) : (m.attention b).fenced = m.fenced := rfl
@[simp] theorem Mod.attention_tests (m : Mod) (b : Byte) : (m.attention b).tests = m.tests := rfl
@[simp] theorem Mod.attention_fw (m : Mod) (b : Byte) : (m.attention b).fw = m.fw := rfl
@[simp] theorem Mod.attention_fab (m : Mod) (b : Byte) : (m.attention b).fab = m.fab := rfl
@[simp] theorem Mod.attention_step (m : Mod) (b : Byte) : (m.attention b).step = m.step := rfl
@[simp] theorem Mod.attention_bank (m : Mod) (b : Byte) : (m.attention b).bank = m.bank := rfl
@[simp] theorem Mod.attention_free (m : Mod) (b : Byte) : (m.attention b).free = m.free := rfl

@[simp] theorem Mod.attentionAt_ctl (m : Mod) (p : Nat) (b : Byte) : (m.attentionAt p b).ctl = m.ctl := rfl
@[simp] theorem Mod.attentionAt_side (m : Mod) (p : Nat) (b : Byte) : (m.attentionAt p b).side = m.side := rfl
@[simp] theorem Mod.attentionAt_link0 (m : Mod) (p : Nat) (b : Byte) : (m.attentionAt p b).link0 = m.link0 := rfl
@[simp] theorem Mod.attentionAt_link1 (m : Mod) (p : Nat) (b : Byte) : (m.attentionAt p b).link1 = m.link1 := rfl
@[simp] theorem Mod.attentionAt_regions (m : Mod) (p : Nat) (b : Byte) : (m.attentionAt p b).regions = m.regions := rfl
@[simp] theorem Mod.attentionAt_cnt (m : Mod) (p : Nat) (b : Byte) : (m.attentionAt p b).cnt = m.cnt := rfl
@[simp] theorem Mod.attentionAt_log (m : Mod) (p : Nat) (b : Byte) : (m.attentionAt p b).log = m.log := rfl
@[simp] theorem Mod.attentionAt_ash (m : Mod) (p : Nat) (b : Byte) : (m.attentionAt p b).ash = m.ash := rfl
@[simp] theorem Mod.attentionAt_units (m : Mod) (p : Nat) (b : Byte) : (m.attentionAt p b).units = m.units := rfl
@[simp] theorem Mod.attentionAt_pwr (m : Mod) (p : Nat) (b : Byte) : (m.attentionAt p b).pwr = m.pwr := rfl
@[simp] theorem Mod.attentionAt_hbm (m : Mod) (p : Nat) (b : Byte) : (m.attentionAt p b).hbm = m.hbm := rfl
@[simp] theorem Mod.attentionAt_plan (m : Mod) (p : Nat) (b : Byte) : (m.attentionAt p b).plan = m.plan := rfl
@[simp] theorem Mod.attentionAt_run (m : Mod) (p : Nat) (b : Byte) : (m.attentionAt p b).run = m.run := rfl
@[simp] theorem Mod.attentionAt_ctxs (m : Mod) (p : Nat) (b : Byte) : (m.attentionAt p b).ctxs = m.ctxs := rfl
@[simp] theorem Mod.attentionAt_fenced (m : Mod) (p : Nat) (b : Byte) : (m.attentionAt p b).fenced = m.fenced := rfl
@[simp] theorem Mod.attentionAt_tests (m : Mod) (p : Nat) (b : Byte) : (m.attentionAt p b).tests = m.tests := rfl
@[simp] theorem Mod.attentionAt_fw (m : Mod) (p : Nat) (b : Byte) : (m.attentionAt p b).fw = m.fw := rfl
@[simp] theorem Mod.attentionAt_fab (m : Mod) (p : Nat) (b : Byte) : (m.attentionAt p b).fab = m.fab := rfl
@[simp] theorem Mod.attentionAt_step (m : Mod) (p : Nat) (b : Byte) : (m.attentionAt p b).step = m.step := rfl
@[simp] theorem Mod.attentionAt_bank (m : Mod) (p : Nat) (b : Byte) : (m.attentionAt p b).bank = m.bank := rfl
@[simp] theorem Mod.attentionAt_free (m : Mod) (p : Nat) (b : Byte) : (m.attentionAt p b).free = m.free := rfl

@[simp] theorem Mod.complete_ctl (m : Mod) (t : Ticket) (op cls d : Nat) (r : Bytes) : (m.complete t op cls d r).ctl = m.ctl := rfl
@[simp] theorem Mod.complete_side (m : Mod) (t : Ticket) (op cls d : Nat) (r : Bytes) : (m.complete t op cls d r).side = m.side := rfl
@[simp] theorem Mod.complete_link0 (m : Mod) (t : Ticket) (op cls d : Nat) (r : Bytes) : (m.complete t op cls d r).link0 = m.link0 := rfl
@[simp] theorem Mod.complete_link1 (m : Mod) (t : Ticket) (op cls d : Nat) (r : Bytes) : (m.complete t op cls d r).link1 = m.link1 := rfl
@[simp] theorem Mod.complete_regions (m : Mod) (t : Ticket) (op cls d : Nat) (r : Bytes) : (m.complete t op cls d r).regions = m.regions := rfl
@[simp] theorem Mod.complete_cnt (m : Mod) (t : Ticket) (op cls d : Nat) (r : Bytes) : (m.complete t op cls d r).cnt = m.cnt := rfl
@[simp] theorem Mod.complete_log (m : Mod) (t : Ticket) (op cls d : Nat) (r : Bytes) : (m.complete t op cls d r).log = m.log := rfl
@[simp] theorem Mod.complete_ash (m : Mod) (t : Ticket) (op cls d : Nat) (r : Bytes) : (m.complete t op cls d r).ash = m.ash := rfl
@[simp] theorem Mod.complete_units (m : Mod) (t : Ticket) (op cls d : Nat) (r : Bytes) : (m.complete t op cls d r).units = m.units := rfl
@[simp] theorem Mod.complete_pwr (m : Mod) (t : Ticket) (op cls d : Nat) (r : Bytes) : (m.complete t op cls d r).pwr = m.pwr := rfl
@[simp] theorem Mod.complete_hbm (m : Mod) (t : Ticket) (op cls d : Nat) (r : Bytes) : (m.complete t op cls d r).hbm = m.hbm := rfl
@[simp] theorem Mod.complete_plan (m : Mod) (t : Ticket) (op cls d : Nat) (r : Bytes) : (m.complete t op cls d r).plan = m.plan := rfl
@[simp] theorem Mod.complete_run (m : Mod) (t : Ticket) (op cls d : Nat) (r : Bytes) : (m.complete t op cls d r).run = m.run := rfl
@[simp] theorem Mod.complete_ctxs (m : Mod) (t : Ticket) (op cls d : Nat) (r : Bytes) : (m.complete t op cls d r).ctxs = m.ctxs := rfl
@[simp] theorem Mod.complete_fenced (m : Mod) (t : Ticket) (op cls d : Nat) (r : Bytes) : (m.complete t op cls d r).fenced = m.fenced := rfl
@[simp] theorem Mod.complete_tests (m : Mod) (t : Ticket) (op cls d : Nat) (r : Bytes) : (m.complete t op cls d r).tests = m.tests := rfl
@[simp] theorem Mod.complete_fw (m : Mod) (t : Ticket) (op cls d : Nat) (r : Bytes) : (m.complete t op cls d r).fw = m.fw := rfl
@[simp] theorem Mod.complete_fab (m : Mod) (t : Ticket) (op cls d : Nat) (r : Bytes) : (m.complete t op cls d r).fab = m.fab := rfl
@[simp] theorem Mod.complete_step (m : Mod) (t : Ticket) (op cls d : Nat) (r : Bytes) : (m.complete t op cls d r).step = m.step := rfl
@[simp] theorem Mod.complete_bank (m : Mod) (t : Ticket) (op cls d : Nat) (r : Bytes) : (m.complete t op cls d r).bank = m.bank := rfl
@[simp] theorem Mod.complete_free (m : Mod) (t : Ticket) (op cls d : Nat) (r : Bytes) : (m.complete t op cls d r).free = m.free := rfl

@[simp] theorem Mod.wr_ctl (m : Mod) (a : Nat) (bs : Bytes) : (m.wr a bs).ctl = m.ctl := rfl
@[simp] theorem Mod.wr_side (m : Mod) (a : Nat) (bs : Bytes) : (m.wr a bs).side = m.side := rfl
@[simp] theorem Mod.wr_link0 (m : Mod) (a : Nat) (bs : Bytes) : (m.wr a bs).link0 = m.link0 := rfl
@[simp] theorem Mod.wr_link1 (m : Mod) (a : Nat) (bs : Bytes) : (m.wr a bs).link1 = m.link1 := rfl
@[simp] theorem Mod.wr_regions (m : Mod) (a : Nat) (bs : Bytes) : (m.wr a bs).regions = m.regions := rfl
@[simp] theorem Mod.wr_cnt (m : Mod) (a : Nat) (bs : Bytes) : (m.wr a bs).cnt = m.cnt := rfl
@[simp] theorem Mod.wr_log (m : Mod) (a : Nat) (bs : Bytes) : (m.wr a bs).log = m.log := rfl
@[simp] theorem Mod.wr_ash (m : Mod) (a : Nat) (bs : Bytes) : (m.wr a bs).ash = m.ash := rfl
@[simp] theorem Mod.wr_units (m : Mod) (a : Nat) (bs : Bytes) : (m.wr a bs).units = m.units := rfl
@[simp] theorem Mod.wr_pwr (m : Mod) (a : Nat) (bs : Bytes) : (m.wr a bs).pwr = m.pwr := rfl
@[simp] theorem Mod.wr_plan (m : Mod) (a : Nat) (bs : Bytes) : (m.wr a bs).plan = m.plan := rfl
@[simp] theorem Mod.wr_run (m : Mod) (a : Nat) (bs : Bytes) : (m.wr a bs).run = m.run := rfl
@[simp] theorem Mod.wr_ctxs (m : Mod) (a : Nat) (bs : Bytes) : (m.wr a bs).ctxs = m.ctxs := rfl
@[simp] theorem Mod.wr_fenced (m : Mod) (a : Nat) (bs : Bytes) : (m.wr a bs).fenced = m.fenced := rfl
@[simp] theorem Mod.wr_tests (m : Mod) (a : Nat) (bs : Bytes) : (m.wr a bs).tests = m.tests := rfl
@[simp] theorem Mod.wr_fw (m : Mod) (a : Nat) (bs : Bytes) : (m.wr a bs).fw = m.fw := rfl
@[simp] theorem Mod.wr_fab (m : Mod) (a : Nat) (bs : Bytes) : (m.wr a bs).fab = m.fab := rfl
@[simp] theorem Mod.wr_step (m : Mod) (a : Nat) (bs : Bytes) : (m.wr a bs).step = m.step := rfl
@[simp] theorem Mod.wr_bank (m : Mod) (a : Nat) (bs : Bytes) : (m.wr a bs).bank = m.bank := rfl
@[simp] theorem Mod.wr_free (m : Mod) (a : Nat) (bs : Bytes) : (m.wr a bs).free = m.free := rfl
@[simp] theorem Mod.wr_out (m : Mod) (a : Nat) (bs : Bytes) : (m.wr a bs).out = m.out := rfl

@[simp] theorem Mod.setRegion_ctl (m : Mod) (id : Nat) (r : Region) : (m.setRegion id r).ctl = m.ctl := rfl
@[simp] theorem Mod.setRegion_side (m : Mod) (id : Nat) (r : Region) : (m.setRegion id r).side = m.side := rfl
@[simp] theorem Mod.setRegion_link0 (m : Mod) (id : Nat) (r : Region) : (m.setRegion id r).link0 = m.link0 := rfl
@[simp] theorem Mod.setRegion_link1 (m : Mod) (id : Nat) (r : Region) : (m.setRegion id r).link1 = m.link1 := rfl
@[simp] theorem Mod.setRegion_cnt (m : Mod) (id : Nat) (r : Region) : (m.setRegion id r).cnt = m.cnt := rfl
@[simp] theorem Mod.setRegion_log (m : Mod) (id : Nat) (r : Region) : (m.setRegion id r).log = m.log := rfl
@[simp] theorem Mod.setRegion_ash (m : Mod) (id : Nat) (r : Region) : (m.setRegion id r).ash = m.ash := rfl
@[simp] theorem Mod.setRegion_units (m : Mod) (id : Nat) (r : Region) : (m.setRegion id r).units = m.units := rfl
@[simp] theorem Mod.setRegion_pwr (m : Mod) (id : Nat) (r : Region) : (m.setRegion id r).pwr = m.pwr := rfl
@[simp] theorem Mod.setRegion_hbm (m : Mod) (id : Nat) (r : Region) : (m.setRegion id r).hbm = m.hbm := rfl
@[simp] theorem Mod.setRegion_plan (m : Mod) (id : Nat) (r : Region) : (m.setRegion id r).plan = m.plan := rfl
@[simp] theorem Mod.setRegion_run (m : Mod) (id : Nat) (r : Region) : (m.setRegion id r).run = m.run := rfl
@[simp] theorem Mod.setRegion_ctxs (m : Mod) (id : Nat) (r : Region) : (m.setRegion id r).ctxs = m.ctxs := rfl
@[simp] theorem Mod.setRegion_fenced (m : Mod) (id : Nat) (r : Region) : (m.setRegion id r).fenced = m.fenced := rfl
@[simp] theorem Mod.setRegion_tests (m : Mod) (id : Nat) (r : Region) : (m.setRegion id r).tests = m.tests := rfl
@[simp] theorem Mod.setRegion_fw (m : Mod) (id : Nat) (r : Region) : (m.setRegion id r).fw = m.fw := rfl
@[simp] theorem Mod.setRegion_fab (m : Mod) (id : Nat) (r : Region) : (m.setRegion id r).fab = m.fab := rfl
@[simp] theorem Mod.setRegion_step (m : Mod) (id : Nat) (r : Region) : (m.setRegion id r).step = m.step := rfl
@[simp] theorem Mod.setRegion_bank (m : Mod) (id : Nat) (r : Region) : (m.setRegion id r).bank = m.bank := rfl
@[simp] theorem Mod.setRegion_free (m : Mod) (id : Nat) (r : Region) : (m.setRegion id r).free = m.free := rfl
@[simp] theorem Mod.setRegion_out (m : Mod) (id : Nat) (r : Region) : (m.setRegion id r).out = m.out := rfl

@[simp] theorem Mod.renew_side (m : Mod) (p : Nat) : (m.renew p).side = m.side := by unfold Mod.renew; split <;> rfl
@[simp] theorem Mod.renew_link0 (m : Mod) (p : Nat) : (m.renew p).link0 = m.link0 := by unfold Mod.renew; split <;> rfl
@[simp] theorem Mod.renew_link1 (m : Mod) (p : Nat) : (m.renew p).link1 = m.link1 := by unfold Mod.renew; split <;> rfl
@[simp] theorem Mod.renew_regions (m : Mod) (p : Nat) : (m.renew p).regions = m.regions := by unfold Mod.renew; split <;> rfl
@[simp] theorem Mod.renew_cnt (m : Mod) (p : Nat) : (m.renew p).cnt = m.cnt := by unfold Mod.renew; split <;> rfl
@[simp] theorem Mod.renew_log (m : Mod) (p : Nat) : (m.renew p).log = m.log := by unfold Mod.renew; split <;> rfl
@[simp] theorem Mod.renew_ash (m : Mod) (p : Nat) : (m.renew p).ash = m.ash := by unfold Mod.renew; split <;> rfl
@[simp] theorem Mod.renew_units (m : Mod) (p : Nat) : (m.renew p).units = m.units := by unfold Mod.renew; split <;> rfl
@[simp] theorem Mod.renew_pwr (m : Mod) (p : Nat) : (m.renew p).pwr = m.pwr := by unfold Mod.renew; split <;> rfl
@[simp] theorem Mod.renew_hbm (m : Mod) (p : Nat) : (m.renew p).hbm = m.hbm := by unfold Mod.renew; split <;> rfl
@[simp] theorem Mod.renew_plan (m : Mod) (p : Nat) : (m.renew p).plan = m.plan := by unfold Mod.renew; split <;> rfl
@[simp] theorem Mod.renew_run (m : Mod) (p : Nat) : (m.renew p).run = m.run := by unfold Mod.renew; split <;> rfl
@[simp] theorem Mod.renew_ctxs (m : Mod) (p : Nat) : (m.renew p).ctxs = m.ctxs := by unfold Mod.renew; split <;> rfl
@[simp] theorem Mod.renew_fenced (m : Mod) (p : Nat) : (m.renew p).fenced = m.fenced := by unfold Mod.renew; split <;> rfl
@[simp] theorem Mod.renew_tests (m : Mod) (p : Nat) : (m.renew p).tests = m.tests := by unfold Mod.renew; split <;> rfl
@[simp] theorem Mod.renew_fw (m : Mod) (p : Nat) : (m.renew p).fw = m.fw := by unfold Mod.renew; split <;> rfl
@[simp] theorem Mod.renew_fab (m : Mod) (p : Nat) : (m.renew p).fab = m.fab := by unfold Mod.renew; split <;> rfl
@[simp] theorem Mod.renew_step (m : Mod) (p : Nat) : (m.renew p).step = m.step := by unfold Mod.renew; split <;> rfl
@[simp] theorem Mod.renew_bank (m : Mod) (p : Nat) : (m.renew p).bank = m.bank := by unfold Mod.renew; split <;> rfl
@[simp] theorem Mod.renew_free (m : Mod) (p : Nat) : (m.renew p).free = m.free := by unfold Mod.renew; split <;> rfl
@[simp] theorem Mod.renew_out (m : Mod) (p : Nat) : (m.renew p).out = m.out := by unfold Mod.renew; split <;> rfl

/-! ### The host's side -/

@[simp] theorem HostIo.port_setPort (io : HostIo) (p : Nat) (x : Port) : (io.setPort p x).port p = x := by
  unfold HostIo.port HostIo.setPort; split <;> rfl

theorem HostIo.port_setPort_other (io : HostIo) {p q : Nat} (x : Port) (h : p = 0 ↔ q ≠ 0) :
    (io.setPort p x).port q = io.port q := by
  unfold HostIo.port HostIo.setPort
  by_cases hp : p = 0 <;> by_cases hq : q = 0 <;> simp_all

@[simp] theorem HostIo.mem_setPort (io : HostIo) (p : Nat) (x : Port) : (io.setPort p x).mem = io.mem := by
  unfold HostIo.setPort; split <;> rfl

@[simp] theorem HostIo.setPort_setPort (io : HostIo) (p : Nat) (x y : Port) : (io.setPort p x).setPort p y = io.setPort p y := by
  unfold HostIo.setPort; split <;> rfl

@[simp] theorem HostIo.port_store (io : HostIo) (ws : List HostWrite) (p : Nat) : (io.store ws).port p = io.port p := rfl

@[simp] theorem HostIo.store_nil (io : HostIo) : io.store [] = io := rfl

/-- An outbox without attention bits changes no copy. -/
theorem HostIo.attend_quiet (io : HostIo) {o : Outbox} (h1 : o.attn = 0) (h2 : o.attnPort = []) (h3 : o.attnAck = []) :
    io.attend o = io := by
  unfold HostIo.attend; simp [h1, h2, h3]

/-- An outbox without a stop settles nothing. -/
theorem HostIo.settle_plain (io : HostIo) {o : Outbox} (h1 : o.ringsOff = []) (h2 : o.attnClear = [])
    (h3 : o.portsReset = false) : io.settle o = io := by
  unfold HostIo.settle; simp [h1, h2, h3]

/-- Attention reaches a copy alone. -/
theorem HostIo.attend_mem (io : HostIo) (o : Outbox) : (io.attend o).mem = io.mem := rfl

/-! ### Flushing and events -/

@[simp] theorem State.flush_ctl (s : State) : s.flush.m.ctl = s.m.ctl := by unfold State.flush; dsimp only; split <;> split <;> rfl
@[simp] theorem State.flush_side (s : State) : s.flush.m.side = s.m.side := by unfold State.flush; dsimp only; split <;> split <;> rfl
@[simp] theorem State.flush_link0 (s : State) : s.flush.m.link0 = s.m.link0 := by unfold State.flush; dsimp only; split <;> split <;> rfl
@[simp] theorem State.flush_link1 (s : State) : s.flush.m.link1 = s.m.link1 := by unfold State.flush; dsimp only; split <;> split <;> rfl
@[simp] theorem State.flush_regions (s : State) : s.flush.m.regions = s.m.regions := by unfold State.flush; dsimp only; split <;> split <;> rfl
@[simp] theorem State.flush_log (s : State) : s.flush.m.log = s.m.log := by unfold State.flush; dsimp only; split <;> split <;> rfl
@[simp] theorem State.flush_ash (s : State) : s.flush.m.ash = s.m.ash := by unfold State.flush; dsimp only; split <;> split <;> rfl
@[simp] theorem State.flush_units (s : State) : s.flush.m.units = s.m.units := by unfold State.flush; dsimp only; split <;> split <;> rfl
@[simp] theorem State.flush_pwr (s : State) : s.flush.m.pwr = s.m.pwr := by unfold State.flush; dsimp only; split <;> split <;> rfl
@[simp] theorem State.flush_hbm (s : State) : s.flush.m.hbm = s.m.hbm := by unfold State.flush; dsimp only; split <;> split <;> rfl
@[simp] theorem State.flush_plan (s : State) : s.flush.m.plan = s.m.plan := by unfold State.flush; dsimp only; split <;> split <;> rfl
@[simp] theorem State.flush_run (s : State) : s.flush.m.run = s.m.run := by unfold State.flush; dsimp only; split <;> split <;> rfl
@[simp] theorem State.flush_ctxs (s : State) : s.flush.m.ctxs = s.m.ctxs := by unfold State.flush; dsimp only; split <;> split <;> rfl
@[simp] theorem State.flush_fenced (s : State) : s.flush.m.fenced = s.m.fenced := by unfold State.flush; dsimp only; split <;> split <;> rfl
@[simp] theorem State.flush_tests (s : State) : s.flush.m.tests = s.m.tests := by unfold State.flush; dsimp only; split <;> split <;> rfl
@[simp] theorem State.flush_fw (s : State) : s.flush.m.fw = s.m.fw := by unfold State.flush; dsimp only; split <;> split <;> rfl
@[simp] theorem State.flush_fab (s : State) : s.flush.m.fab = s.m.fab := by unfold State.flush; dsimp only; split <;> split <;> rfl
@[simp] theorem State.flush_step (s : State) : s.flush.m.step = s.m.step := by unfold State.flush; dsimp only; split <;> split <;> rfl
@[simp] theorem State.flush_bank (s : State) : s.flush.m.bank = s.m.bank := by unfold State.flush; dsimp only; split <;> split <;> rfl
@[simp] theorem State.flush_free (s : State) : s.flush.m.free = s.m.free := by unfold State.flush; dsimp only; split <;> split <;> rfl
@[simp] theorem State.flush_pending (s : State) : s.flush.pending = s.pending := rfl

/-- After a flush nothing waits to be handed over. -/
@[simp] theorem State.flush_out (s : State) : s.flush.m.out = Outbox.empty := by
  unfold State.flush; dsimp only; split <;> split <;> rfl

@[simp] theorem State.event_ctl (s : State) (f : Mod → Mod) : (s.event f).m.ctl = (f s.m.fresh).ctl := State.flush_ctl _
@[simp] theorem State.event_side (s : State) (f : Mod → Mod) : (s.event f).m.side = (f s.m.fresh).side := State.flush_side _
@[simp] theorem State.event_link0 (s : State) (f : Mod → Mod) : (s.event f).m.link0 = (f s.m.fresh).link0 := State.flush_link0 _
@[simp] theorem State.event_link1 (s : State) (f : Mod → Mod) : (s.event f).m.link1 = (f s.m.fresh).link1 := State.flush_link1 _
@[simp] theorem State.event_regions (s : State) (f : Mod → Mod) : (s.event f).m.regions = (f s.m.fresh).regions := State.flush_regions _
@[simp] theorem State.event_log (s : State) (f : Mod → Mod) : (s.event f).m.log = (f s.m.fresh).log := State.flush_log _
@[simp] theorem State.event_ash (s : State) (f : Mod → Mod) : (s.event f).m.ash = (f s.m.fresh).ash := State.flush_ash _
@[simp] theorem State.event_units (s : State) (f : Mod → Mod) : (s.event f).m.units = (f s.m.fresh).units := State.flush_units _
@[simp] theorem State.event_pwr (s : State) (f : Mod → Mod) : (s.event f).m.pwr = (f s.m.fresh).pwr := State.flush_pwr _
@[simp] theorem State.event_hbm (s : State) (f : Mod → Mod) : (s.event f).m.hbm = (f s.m.fresh).hbm := State.flush_hbm _
@[simp] theorem State.event_plan (s : State) (f : Mod → Mod) : (s.event f).m.plan = (f s.m.fresh).plan := State.flush_plan _
@[simp] theorem State.event_run (s : State) (f : Mod → Mod) : (s.event f).m.run = (f s.m.fresh).run := State.flush_run _
@[simp] theorem State.event_ctxs (s : State) (f : Mod → Mod) : (s.event f).m.ctxs = (f s.m.fresh).ctxs := State.flush_ctxs _
@[simp] theorem State.event_fenced (s : State) (f : Mod → Mod) : (s.event f).m.fenced = (f s.m.fresh).fenced := State.flush_fenced _
@[simp] theorem State.event_tests (s : State) (f : Mod → Mod) : (s.event f).m.tests = (f s.m.fresh).tests := State.flush_tests _
@[simp] theorem State.event_fw (s : State) (f : Mod → Mod) : (s.event f).m.fw = (f s.m.fresh).fw := State.flush_fw _
@[simp] theorem State.event_fab (s : State) (f : Mod → Mod) : (s.event f).m.fab = (f s.m.fresh).fab := State.flush_fab _
@[simp] theorem State.event_step (s : State) (f : Mod → Mod) : (s.event f).m.step = (f s.m.fresh).step := State.flush_step _
@[simp] theorem State.event_bank (s : State) (f : Mod → Mod) : (s.event f).m.bank = (f s.m.fresh).bank := State.flush_bank _
@[simp] theorem State.event_free (s : State) (f : Mod → Mod) : (s.event f).m.free = (f s.m.fresh).free := State.flush_free _
@[simp] theorem State.event_out (s : State) (f : Mod → Mod) : (s.event f).m.out = Outbox.empty := State.flush_out _
@[simp] theorem State.event_pending (s : State) (f : Mod → Mod) : (s.event f).pending = s.pending := rfl

/-- An outbox that stops nothing and in which no completion is REJECTED. -/
structure Outbox.Plain (o : Outbox) : Prop where
  completions : ∀ r ∈ o.completions, r.cls ≠ Cls.rejected
  rings : o.ringsOff = []
  clear : o.attnClear = []
  reset : o.portsReset = false

theorem Outbox.Plain.empty : Outbox.empty.Plain := ⟨by simp [Outbox.empty], rfl, rfl, rfl⟩

theorem HostIo.rejections_plain (io : HostIo) {o : Outbox} (h : o.Plain) : io.rejections o = 0 := by
  unfold HostIo.rejections
  rw [List.length_eq_zero_iff, List.filter_eq_nil_iff]
  intro r hr
  simp [h.completions r hr]

/-- What flushing a plain outbox does: attention bits, buffer writes, completions, and nothing else. -/
theorem State.flush_plain (s : State) (h : s.m.out.Plain) :
    s.flush = { s with io := s.m.out.completions.foldl HostIo.putCompletion ((s.io.attend s.m.out).store s.m.out.host),
                       m := { s.m with out := Outbox.empty } } := by
  have h0 := fun io => HostIo.rejections_plain io h
  obtain ⟨h1, h2, h3, h4⟩ := h
  simp [State.flush, h0, h2, HostIo.dropped, HostIo.settle_plain _ h2 h3 h4]

/-- An event with a plain outbox. -/
theorem State.event_plain (s : State) (f : Mod → Mod) (h : (f s.m.fresh).out.Plain) :
    s.event f = { s with
      io := (f s.m.fresh).out.completions.foldl HostIo.putCompletion
        ((s.io.attend (f s.m.fresh).out).store (f s.m.fresh).out.host),
      m := { f s.m.fresh with out := Outbox.empty } } :=
  State.flush_plain _ h

/-! ### Commands of a ring -/

/-- A command that starts is fetched and answered. -/
theorem runCmd_starts {h : Cmd} {c : CmdSpec} {s : State} (hs : s.Starts h) :
    runCmd h c s = (s.consume h.port).answer h c.opcode ((c.judge h (s.found h)).guard c.opcode (s.found h)) := by
  simp [runCmd, hs.fetched, hs.room, State.found]

/-- A ring that can be fetched from runs, at port 0 or 1. -/
theorem State.Starts.running {s : State} {h : Cmd} (hs : s.Starts h) : (s.io.port h.port).running = true := by
  have := hs.fetched
  simp only [State.fetches, Bool.and_eq_true] at this
  exact this.1.2

/-- Reply, debt, completions and module of an answer that stops nothing. -/
theorem State.answer_plain {s : State} {h : Cmd} {op : Nat} {a : Ans} (hr : (s.io.port h.port).running = true)
    (hc : a.cls ≠ Cls.rejected) (hp : a.m.out.Plain) (h1 : a.m.out.attnPort = []) (h2 : a.m.out.attnAck = []) :
    (s.consume h.port).answer h op a =
      { s with io := a.m.out.completions.foldl HostIo.putCompletion
                  (s.io.answered h a.m.out.attn a.m.out.host op a.cls a.detail a.result),
               m := { a.m with out := Outbox.empty } } := by
  obtain ⟨p1, p2, p3, p4⟩ := hp
  have hpl : Outbox.Plain { a.m.out with attn := 0, attnPort := [], attnAck := [], host := [] } := ⟨p1, p2, p3, p4⟩
  unfold State.answer
  simp only [hc, if_false]
  rw [State.flush_plain _ hpl]
  have he : ∀ io : HostIo, (io.attend { a.m.out with attn := 0, attnPort := [], attnAck := [], host := [] }).store [] = io := by
    intro io; rw [HostIo.attend_quiet io rfl rfl rfl]; rfl
  simp only [he]
  refine congrArg (fun io => ({ s with io := a.m.out.completions.foldl HostIo.putCompletion io, m := { a.m with out := Outbox.empty } } : State)) ?_
  unfold HostIo.answered State.consume HostIo.putReply HostIo.store HostIo.attend HostIo.port HostIo.setPort
  by_cases hq : h.port = 0 <;> by_cases hcl : a.cls = Cls.accepted <;>
    simp_all [HostIo.port, Outbox.empty]

/-- A rejected command changes nothing in the module but the count of rejections. -/
theorem State.answer_rejected {s : State} {h : Cmd} {op d : Nat} {m : Mod} (hr : (s.io.port h.port).running = true)
    (hm : m.out = Outbox.empty) :
    (s.consume h.port).answer h op (Ans.rejected m d) =
      { s with io := s.io.answered h 0 [] op Cls.rejected d [], m := m.count Cnt.cmdRejected 1 } := by
  have hc : ¬ (Cls.rejected = Cls.accepted) := by decide
  unfold State.answer Ans.rejected
  simp only [hc, if_true, if_false, hm]
  have hpl : (Mod.count { m with out := Outbox.empty } Cnt.cmdRejected 1).out.Plain := Outbox.Plain.empty
  have hmm : ({ m with out := Outbox.empty } : Mod) = m := by rw [← hm]
  have hmo : (Mod.count m Cnt.cmdRejected 1).out = Outbox.empty := hm
  have he : ∀ (io : HostIo), (io.attend Outbox.empty).store [] = io := by
    intro io; rw [HostIo.attend_quiet io rfl rfl rfl]; rfl
  rw [show ({ Outbox.empty with attn := 0, attnPort := [], attnAck := [], host := [] } : Outbox) = Outbox.empty from rfl, hmm,
    State.flush_plain _ (by rw [hmm] at hpl; exact hpl)]
  dsimp only
  rw [hmo]
  have hfin : ({ Mod.count m Cnt.cmdRejected 1 with out := Outbox.empty } : Mod) = Mod.count m Cnt.cmdRejected 1 := by rw [← hmo]
  rw [hfin]
  simp only [show Outbox.empty.host = [] from rfl, show Outbox.empty.completions = [] from rfl, List.foldl_nil, he]
  refine congrArg (fun io => ({ s with io := io, m := m.count Cnt.cmdRejected 1 } : State)) ?_
  unfold HostIo.answered State.consume HostIo.putReply HostIo.store HostIo.attend HostIo.port HostIo.setPort
  by_cases hq : h.port = 0 <;> simp_all [HostIo.port, Outbox.empty]

/-- What a command does that starts and is not rejected, when it stops nothing. -/
theorem runCmd_answers {h : Cmd} {c : CmdSpec} {s : State} (hs : s.Starts h) {a : Ans}
    (hj : (c.judge h (s.found h)).guard c.opcode (s.found h) = a) (hc : a.cls ≠ Cls.rejected) (hp : a.m.out.Plain)
    (h1 : a.m.out.attnPort = []) (h2 : a.m.out.attnAck = []) :
    Answered s (runCmd h c s) h a.m.out.attn a.m.out.host c.opcode a.cls a.detail a.result a.m.out.completions
      ∧ (runCmd h c s).m = { a.m with out := Outbox.empty } := by
  rw [runCmd_starts hs, hj, State.answer_plain hs.running hc hp h1 h2]
  exact ⟨⟨rfl, rfl⟩, rfl⟩

/-- The checks of R474 passed, a command has its own effect. -/
theorem CmdSpec.judge_run {c : CmdSpec} {h : Cmd} {m : Mod} (hr : h.rsv = 0) (hc : c.reserved = false)
    (ho : c.ownerOnly = true → m.ctl.owner = some h.port) (hf : c.forbidden m = false) (hp : c.params m = none)
    (ha : m.ctl.state.accepts c.opcode = true) (hw : waitsForPartition c.opcode = true → m.hbm.repart = none) :
    c.judge h m = c.run m := by
  have h1 : ¬ ((c.ownerOnly = true ∧ m.ctl.owner ≠ some h.port) ∨ c.forbidden m = true) := by
    rintro (⟨a, b⟩ | a)
    · exact b (ho a)
    · simp [hf] at a
  have h2 : (m.hbm.repart.isSome && waitsForPartition c.opcode) = false := by
    cases hq : waitsForPartition c.opcode with
    | false => simp
    | true => simp [hw hq]
  unfold CmdSpec.judge
  simp only [hr, hc, h1, hp, ha, h2]
  simp

/-- What a starting command does whose checks pass, when its effect stops nothing. -/
theorem runCmd_runs {h : Cmd} {c : CmdSpec} {s : State} (hs : s.Starts h) (hc : c.reserved = false)
    (ho : c.ownerOnly = true → (s.found h).ctl.owner = some h.port) (hf : c.forbidden (s.found h) = false)
    (hp : c.params (s.found h) = none) (ha : (s.found h).ctl.state.accepts c.opcode = true)
    (hw : waitsForPartition c.opcode = true → (s.found h).hbm.repart = none) {a : Ans} (hrun : c.run (s.found h) = a)
    (h1 : a.cls ≠ Cls.rejected) (h2 : a.cls ≠ Cls.busy) (h3 : a.m.out.Plain) (h4 : a.m.out.attnPort = [])
    (h5 : a.m.out.attnAck = []) :
    Answered s (runCmd h c s) h a.m.out.attn a.m.out.host c.opcode a.cls a.detail a.result a.m.out.completions
      ∧ (runCmd h c s).m = { a.m with out := Outbox.empty } := by
  refine runCmd_answers hs ?_ h1 h3 h4 h5
  rw [CmdSpec.judge_run hs.reserved hc ho hf hp ha hw, hrun]
  unfold Ans.guard
  simp [h1, h2]

/-- A found module differs from the state's in its outgoing messages and, for the owner, in the renewal alone. -/
@[simp] theorem State.found_owner (s : State) (h : Cmd) : (s.found h).ctl.owner = s.m.ctl.owner := by
  unfold State.found Mod.renew; split <;> rfl
@[simp] theorem State.found_state (s : State) (h : Cmd) : (s.found h).ctl.state = s.m.ctl.state := by
  unfold State.found Mod.renew; split <;> rfl

@[simp] theorem State.found_side (s : State) (h : Cmd) : (s.found h).side = s.m.side := by unfold State.found; simp
@[simp] theorem State.found_link0 (s : State) (h : Cmd) : (s.found h).link0 = s.m.link0 := by unfold State.found; simp
@[simp] theorem State.found_link1 (s : State) (h : Cmd) : (s.found h).link1 = s.m.link1 := by unfold State.found; simp
@[simp] theorem State.found_regions (s : State) (h : Cmd) : (s.found h).regions = s.m.regions := by unfold State.found; simp
@[simp] theorem State.found_cnt (s : State) (h : Cmd) : (s.found h).cnt = s.m.cnt := by unfold State.found; simp
@[simp] theorem State.found_log (s : State) (h : Cmd) : (s.found h).log = s.m.log := by unfold State.found; simp
@[simp] theorem State.found_ash (s : State) (h : Cmd) : (s.found h).ash = s.m.ash := by unfold State.found; simp
@[simp] theorem State.found_units (s : State) (h : Cmd) : (s.found h).units = s.m.units := by unfold State.found; simp
@[simp] theorem State.found_pwr (s : State) (h : Cmd) : (s.found h).pwr = s.m.pwr := by unfold State.found; simp
@[simp] theorem State.found_hbm (s : State) (h : Cmd) : (s.found h).hbm = s.m.hbm := by unfold State.found; simp
@[simp] theorem State.found_plan (s : State) (h : Cmd) : (s.found h).plan = s.m.plan := by unfold State.found; simp
@[simp] theorem State.found_run (s : State) (h : Cmd) : (s.found h).run = s.m.run := by unfold State.found; simp
@[simp] theorem State.found_ctxs (s : State) (h : Cmd) : (s.found h).ctxs = s.m.ctxs := by unfold State.found; simp
@[simp] theorem State.found_fenced (s : State) (h : Cmd) : (s.found h).fenced = s.m.fenced := by unfold State.found; simp
@[simp] theorem State.found_tests (s : State) (h : Cmd) : (s.found h).tests = s.m.tests := by unfold State.found; simp
@[simp] theorem State.found_fw (s : State) (h : Cmd) : (s.found h).fw = s.m.fw := by unfold State.found; simp
@[simp] theorem State.found_step (s : State) (h : Cmd) : (s.found h).step = s.m.step := by unfold State.found; simp
@[simp] theorem State.found_bank (s : State) (h : Cmd) : (s.found h).bank = s.m.bank := by unfold State.found; simp
@[simp] theorem State.found_free (s : State) (h : Cmd) : (s.found h).free = s.m.free := by unfold State.found; simp
@[simp] theorem State.found_out (s : State) (h : Cmd) : (s.found h).out = s.m.out := by unfold State.found; simp

end Sys2Proof.Machine
end

