-- ==== Sys2Proof/Laws/Ops.lean ====
section
/-! SUPPORT. What the shared operations of the module can change: one law per field that stays, and the attention bits of a
fault record. -/
namespace Sys2Proof.Machine

/-! ### The ash record -/

@[simp] theorem Mod.ashAppend_ctl (m : Mod) (k : Nat) (c : AshSrc) (b : Bytes) : (m.ashAppend k c b).ctl = m.ctl := by
  unfold Mod.ashAppend; dsimp only; split <;> rfl
@[simp] theorem Mod.ashAppend_side (m : Mod) (k : Nat) (c : AshSrc) (b : Bytes) : (m.ashAppend k c b).side = m.side := by
  unfold Mod.ashAppend; dsimp only; split <;> rfl
@[simp] theorem Mod.ashAppend_link0 (m : Mod) (k : Nat) (c : AshSrc) (b : Bytes) : (m.ashAppend k c b).link0 = m.link0 := by
  unfold Mod.ashAppend; dsimp only; split <;> rfl
@[simp] theorem Mod.ashAppend_link1 (m : Mod) (k : Nat) (c : AshSrc) (b : Bytes) : (m.ashAppend k c b).link1 = m.link1 := by
  unfold Mod.ashAppend; dsimp only; split <;> rfl
@[simp] theorem Mod.ashAppend_regions (m : Mod) (k : Nat) (c : AshSrc) (b : Bytes) : (m.ashAppend k c b).regions = m.regions := by
  unfold Mod.ashAppend; dsimp only; split <;> rfl
@[simp] theorem Mod.ashAppend_log (m : Mod) (k : Nat) (c : AshSrc) (b : Bytes) : (m.ashAppend k c b).log = m.log := by
  unfold Mod.ashAppend; dsimp only; split <;> rfl
@[simp] theorem Mod.ashAppend_units (m : Mod) (k : Nat) (c : AshSrc) (b : Bytes) : (m.ashAppend k c b).units = m.units := by
  unfold Mod.ashAppend; dsimp only; split <;> rfl
@[simp] theorem Mod.ashAppend_pwr (m : Mod) (k : Nat) (c : AshSrc) (b : Bytes) : (m.ashAppend k c b).pwr = m.pwr := by
  unfold Mod.ashAppend; dsimp only; split <;> rfl
@[simp] theorem Mod.ashAppend_hbm (m : Mod) (k : Nat) (c : AshSrc) (b : Bytes) : (m.ashAppend k c b).hbm = m.hbm := by
  unfold Mod.ashAppend; dsimp only; split <;> rfl
@[simp] theorem Mod.ashAppend_plan (m : Mod) (k : Nat) (c : AshSrc) (b : Bytes) : (m.ashAppend k c b).plan = m.plan := by
  unfold Mod.ashAppend; dsimp only; split <;> rfl
@[simp] theorem Mod.ashAppend_run (m : Mod) (k : Nat) (c : AshSrc) (b : Bytes) : (m.ashAppend k c b).run = m.run := by
  unfold Mod.ashAppend; dsimp only; split <;> rfl
@[simp] theorem Mod.ashAppend_ctxs (m : Mod) (k : Nat) (c : AshSrc) (b : Bytes) : (m.ashAppend k c b).ctxs = m.ctxs := by
  unfold Mod.ashAppend; dsimp only; split <;> rfl
@[simp] theorem Mod.ashAppend_fenced (m : Mod) (k : Nat) (c : AshSrc) (b : Bytes) : (m.ashAppend k c b).fenced = m.fenced := by
  unfold Mod.ashAppend; dsimp only; split <;> rfl
@[simp] theorem Mod.ashAppend_tests (m : Mod) (k : Nat) (c : AshSrc) (b : Bytes) : (m.ashAppend k c b).tests = m.tests := by
  unfold Mod.ashAppend; dsimp only; split <;> rfl
@[simp] theorem Mod.ashAppend_fw (m : Mod) (k : Nat) (c : AshSrc) (b : Bytes) : (m.ashAppend k c b).fw = m.fw := by
  unfold Mod.ashAppend; dsimp only; split <;> rfl
@[simp] theorem Mod.ashAppend_fab (m : Mod) (k : Nat) (c : AshSrc) (b : Bytes) : (m.ashAppend k c b).fab = m.fab := by
  unfold Mod.ashAppend; dsimp only; split <;> rfl
@[simp] theorem Mod.ashAppend_step (m : Mod) (k : Nat) (c : AshSrc) (b : Bytes) : (m.ashAppend k c b).step = m.step := by
  unfold Mod.ashAppend; dsimp only; split <;> rfl
@[simp] theorem Mod.ashAppend_bank (m : Mod) (k : Nat) (c : AshSrc) (b : Bytes) : (m.ashAppend k c b).bank = m.bank := by
  unfold Mod.ashAppend; dsimp only; split <;> rfl
@[simp] theorem Mod.ashAppend_free (m : Mod) (k : Nat) (c : AshSrc) (b : Bytes) : (m.ashAppend k c b).free = m.free := by
  unfold Mod.ashAppend; dsimp only; split <;> rfl
@[simp] theorem Mod.ashAppend_out (m : Mod) (k : Nat) (c : AshSrc) (b : Bytes) : (m.ashAppend k c b).out = m.out := by
  unfold Mod.ashAppend; dsimp only; split <;> rfl

@[simp] theorem Mod.ashFault_ctl (m : Mod) (r : FaultRec) : (m.ashFault r).ctl = m.ctl := by
  simp [Mod.ashFault]
@[simp] theorem Mod.ashFault_side (m : Mod) (r : FaultRec) : (m.ashFault r).side = m.side := by
  simp [Mod.ashFault]
@[simp] theorem Mod.ashFault_link0 (m : Mod) (r : FaultRec) : (m.ashFault r).link0 = m.link0 := by
  simp [Mod.ashFault]
@[simp] theorem Mod.ashFault_link1 (m : Mod) (r : FaultRec) : (m.ashFault r).link1 = m.link1 := by
  simp [Mod.ashFault]
@[simp] theorem Mod.ashFault_regions (m : Mod) (r : FaultRec) : (m.ashFault r).regions = m.regions := by
  simp [Mod.ashFault]
@[simp] theorem Mod.ashFault_log (m : Mod) (r : FaultRec) : (m.ashFault r).log = m.log := by
  simp [Mod.ashFault]
@[simp] theorem Mod.ashFault_units (m : Mod) (r : FaultRec) : (m.ashFault r).units = m.units := by
  simp [Mod.ashFault]
@[simp] theorem Mod.ashFault_pwr (m : Mod) (r : FaultRec) : (m.ashFault r).pwr = m.pwr := by
  simp [Mod.ashFault]
@[simp] theorem Mod.ashFault_hbm (m : Mod) (r : FaultRec) : (m.ashFault r).hbm = m.hbm := by
  simp [Mod.ashFault]
@[simp] theorem Mod.ashFault_plan (m : Mod) (r : FaultRec) : (m.ashFault r).plan = m.plan := by
  simp [Mod.ashFault]
@[simp] theorem Mod.ashFault_run (m : Mod) (r : FaultRec) : (m.ashFault r).run = m.run := by
  simp [Mod.ashFault]
@[simp] theorem Mod.ashFault_ctxs (m : Mod) (r : FaultRec) : (m.ashFault r).ctxs = m.ctxs := by
  simp [Mod.ashFault]
@[simp] theorem Mod.ashFault_fenced (m : Mod) (r : FaultRec) : (m.ashFault r).fenced = m.fenced := by
  simp [Mod.ashFault]
@[simp] theorem Mod.ashFault_tests (m : Mod) (r : FaultRec) : (m.ashFault r).tests = m.tests := by
  simp [Mod.ashFault]
@[simp] theorem Mod.ashFault_fw (m : Mod) (r : FaultRec) : (m.ashFault r).fw = m.fw := by
  simp [Mod.ashFault]
@[simp] theorem Mod.ashFault_fab (m : Mod) (r : FaultRec) : (m.ashFault r).fab = m.fab := by
  simp [Mod.ashFault]
@[simp] theorem Mod.ashFault_step (m : Mod) (r : FaultRec) : (m.ashFault r).step = m.step := by
  simp [Mod.ashFault]
@[simp] theorem Mod.ashFault_bank (m : Mod) (r : FaultRec) : (m.ashFault r).bank = m.bank := by
  simp [Mod.ashFault]
@[simp] theorem Mod.ashFault_free (m : Mod) (r : FaultRec) : (m.ashFault r).free = m.free := by
  simp [Mod.ashFault]
@[simp] theorem Mod.ashFault_out (m : Mod) (r : FaultRec) : (m.ashFault r).out = m.out := by
  simp [Mod.ashFault]

/-- The serial after an entry. -/
@[simp] theorem Mod.ashAppend_next (m : Mod) (k : Nat) (c : AshSrc) (b : Bytes) :
    (m.ashAppend k c b).ash.next = m.ash.next + 1 := by
  unfold Mod.ashAppend; dsimp only; split <;> rfl

/-- An entry leaves the session flag of R550 alone. -/
@[simp] theorem Mod.ashAppend_bench (m : Mod) (k : Nat) (c : AshSrc) (b : Bytes) :
    (m.ashAppend k c b).ash.bench = m.ash.bench := by
  unfold Mod.ashAppend; dsimp only; split <;> rfl

/-- The entry stands in its slot. -/
theorem Mod.ashAppend_slot (m : Mod) (k : Nat) (c : AshSrc) (b : Bytes) :
    SMap.get [] (m.ashAppend k c b).ash.slots (m.ash.next.toNat % ashSlots)
      = ashEntry m.ash.next k c.code m.ctl.bootCount m.powerOnS b := by
  have h : (m.ashAppend k c b).ash.slots
      = SMap.ins (m.ash.next.toNat % ashSlots) (ashEntry m.ash.next k c.code m.ctl.bootCount m.powerOnS b) m.ash.slots := by
    unfold Mod.ashAppend; dsimp only; split <;> rfl
  rw [h, SMap.get_ins_same]

/-- What no step of a fold changes, the fold does not change. -/
theorem foldl_keeps {α β γ : Type} (p : β → γ) {f : β → α → β} (h : ∀ m a, p (f m a) = p m) :
    ∀ (l : List α) (m : β), p (l.foldl f m) = p m
  | [], _ => rfl
  | a :: l, m => by rw [List.foldl_cons, foldl_keeps p h l, h]

/-! ### Module states -/

@[simp] theorem Mod.moveTo_side (m : Mod) (x : ModState) (op d : Nat) : (m.moveTo x op d).side = m.side := by
  unfold Mod.moveTo; dsimp only; split <;> simp [Mod.ashState]
@[simp] theorem Mod.moveTo_link0 (m : Mod) (x : ModState) (op d : Nat) : (m.moveTo x op d).link0 = m.link0 := by
  unfold Mod.moveTo; dsimp only; split <;> simp [Mod.ashState]
@[simp] theorem Mod.moveTo_link1 (m : Mod) (x : ModState) (op d : Nat) : (m.moveTo x op d).link1 = m.link1 := by
  unfold Mod.moveTo; dsimp only; split <;> simp [Mod.ashState]
@[simp] theorem Mod.moveTo_regions (m : Mod) (x : ModState) (op d : Nat) : (m.moveTo x op d).regions = m.regions := by
  unfold Mod.moveTo; dsimp only; split <;> simp [Mod.ashState]
@[simp] theorem Mod.moveTo_log (m : Mod) (x : ModState) (op d : Nat) : (m.moveTo x op d).log = m.log := by
  unfold Mod.moveTo; dsimp only; split <;> simp [Mod.ashState]
@[simp] theorem Mod.moveTo_units (m : Mod) (x : ModState) (op d : Nat) : (m.moveTo x op d).units = m.units := by
  unfold Mod.moveTo; dsimp only; split <;> simp [Mod.ashState]
@[simp] theorem Mod.moveTo_pwr (m : Mod) (x : ModState) (op d : Nat) : (m.moveTo x op d).pwr = m.pwr := by
  unfold Mod.moveTo; dsimp only; split <;> simp [Mod.ashState]
@[simp] theorem Mod.moveTo_hbm (m : Mod) (x : ModState) (op d : Nat) : (m.moveTo x op d).hbm = m.hbm := by
  unfold Mod.moveTo; dsimp only; split <;> simp [Mod.ashState]
@[simp] theorem Mod.moveTo_plan (m : Mod) (x : ModState) (op d : Nat) : (m.moveTo x op d).plan = m.plan := by
  unfold Mod.moveTo; dsimp only; split <;> simp [Mod.ashState]
@[simp] theorem Mod.moveTo_run (m : Mod) (x : ModState) (op d : Nat) : (m.moveTo x op d).run = m.run := by
  unfold Mod.moveTo; dsimp only; split <;> simp [Mod.ashState]
@[simp] theorem Mod.moveTo_ctxs (m : Mod) (x : ModState) (op d : Nat) : (m.moveTo x op d).ctxs = m.ctxs := by
  unfold Mod.moveTo; dsimp only; split <;> simp [Mod.ashState]
@[simp] theorem Mod.moveTo_fenced (m : Mod) (x : ModState) (op d : Nat) : (m.moveTo x op d).fenced = m.fenced := by
  unfold Mod.moveTo; dsimp only; split <;> simp [Mod.ashState]
@[simp] theorem Mod.moveTo_tests (m : Mod) (x : ModState) (op d : Nat) : (m.moveTo x op d).tests = m.tests := by
  unfold Mod.moveTo; dsimp only; split <;> simp [Mod.ashState]
@[simp] theorem Mod.moveTo_fw (m : Mod) (x : ModState) (op d : Nat) : (m.moveTo x op d).fw = m.fw := by
  unfold Mod.moveTo; dsimp only; split <;> simp [Mod.ashState]
@[simp] theorem Mod.moveTo_fab (m : Mod) (x : ModState) (op d : Nat) : (m.moveTo x op d).fab = m.fab := by
  unfold Mod.moveTo; dsimp only; split <;> simp [Mod.ashState]
@[simp] theorem Mod.moveTo_step (m : Mod) (x : ModState) (op d : Nat) : (m.moveTo x op d).step = m.step := by
  unfold Mod.moveTo; dsimp only; split <;> simp [Mod.ashState]
@[simp] theorem Mod.moveTo_bank (m : Mod) (x : ModState) (op d : Nat) : (m.moveTo x op d).bank = m.bank := by
  unfold Mod.moveTo; dsimp only; split <;> simp [Mod.ashState]
@[simp] theorem Mod.moveTo_free (m : Mod) (x : ModState) (op d : Nat) : (m.moveTo x op d).free = m.free := by
  unfold Mod.moveTo; dsimp only; split <;> simp [Mod.ashState]
@[simp] theorem Mod.moveTo_out (m : Mod) (x : ModState) (op d : Nat) : (m.moveTo x op d).out = m.out := by
  unfold Mod.moveTo; dsimp only; split <;> simp [Mod.ashState]
@[simp] theorem Mod.moveTo_ctl (m : Mod) (x : ModState) (op d : Nat) : (m.moveTo x op d).ctl = { m.ctl with state := x } := by
  unfold Mod.moveTo; dsimp only; split <;> simp [Mod.ashState]

/-! ### Fault records -/

@[simp] theorem Mod.enterS_ctl (m : Mod) (n : FaultRec) : (m.enterS n).1.ctl = m.ctl := by
  unfold Mod.enterS; dsimp only; split <;> simp <;> (repeat' split) <;> rfl
@[simp] theorem Mod.enterS_side (m : Mod) (n : FaultRec) : (m.enterS n).1.side = m.side := by
  unfold Mod.enterS; dsimp only; split <;> simp <;> (repeat' split) <;> rfl
@[simp] theorem Mod.enterS_link0 (m : Mod) (n : FaultRec) : (m.enterS n).1.link0 = m.link0 := by
  unfold Mod.enterS; dsimp only; split <;> simp <;> (repeat' split) <;> rfl
@[simp] theorem Mod.enterS_link1 (m : Mod) (n : FaultRec) : (m.enterS n).1.link1 = m.link1 := by
  unfold Mod.enterS; dsimp only; split <;> simp <;> (repeat' split) <;> rfl
@[simp] theorem Mod.enterS_regions (m : Mod) (n : FaultRec) : (m.enterS n).1.regions = m.regions := by
  unfold Mod.enterS; dsimp only; split <;> simp <;> (repeat' split) <;> rfl
@[simp] theorem Mod.enterS_units (m : Mod) (n : FaultRec) : (m.enterS n).1.units = m.units := by
  unfold Mod.enterS; dsimp only; split <;> simp <;> (repeat' split) <;> rfl
@[simp] theorem Mod.enterS_pwr (m : Mod) (n : FaultRec) : (m.enterS n).1.pwr = m.pwr := by
  unfold Mod.enterS; dsimp only; split <;> simp <;> (repeat' split) <;> rfl
@[simp] theorem Mod.enterS_hbm (m : Mod) (n : FaultRec) : (m.enterS n).1.hbm = m.hbm := by
  unfold Mod.enterS; dsimp only; split <;> simp <;> (repeat' split) <;> rfl
@[simp] theorem Mod.enterS_plan (m : Mod) (n : FaultRec) : (m.enterS n).1.plan = m.plan := by
  unfold Mod.enterS; dsimp only; split <;> simp <;> (repeat' split) <;> rfl
@[simp] theorem Mod.enterS_run (m : Mod) (n : FaultRec) : (m.enterS n).1.run = m.run := by
  unfold Mod.enterS; dsimp only; split <;> simp <;> (repeat' split) <;> rfl
@[simp] theorem Mod.enterS_ctxs (m : Mod) (n : FaultRec) : (m.enterS n).1.ctxs = m.ctxs := by
  unfold Mod.enterS; dsimp only; split <;> simp <;> (repeat' split) <;> rfl
@[simp] theorem Mod.enterS_fenced (m : Mod) (n : FaultRec) : (m.enterS n).1.fenced = m.fenced := by
  unfold Mod.enterS; dsimp only; split <;> simp <;> (repeat' split) <;> rfl
@[simp] theorem Mod.enterS_tests (m : Mod) (n : FaultRec) : (m.enterS n).1.tests = m.tests := by
  unfold Mod.enterS; dsimp only; split <;> simp <;> (repeat' split) <;> rfl
@[simp] theorem Mod.enterS_fw (m : Mod) (n : FaultRec) : (m.enterS n).1.fw = m.fw := by
  unfold Mod.enterS; dsimp only; split <;> simp <;> (repeat' split) <;> rfl
@[simp] theorem Mod.enterS_fab (m : Mod) (n : FaultRec) : (m.enterS n).1.fab = m.fab := by
  unfold Mod.enterS; dsimp only; split <;> simp <;> (repeat' split) <;> rfl
@[simp] theorem Mod.enterS_step (m : Mod) (n : FaultRec) : (m.enterS n).1.step = m.step := by
  unfold Mod.enterS; dsimp only; split <;> simp <;> (repeat' split) <;> rfl
@[simp] theorem Mod.enterS_bank (m : Mod) (n : FaultRec) : (m.enterS n).1.bank = m.bank := by
  unfold Mod.enterS; dsimp only; split <;> simp <;> (repeat' split) <;> rfl
@[simp] theorem Mod.enterS_free (m : Mod) (n : FaultRec) : (m.enterS n).1.free = m.free := by
  unfold Mod.enterS; dsimp only; split <;> simp <;> (repeat' split) <;> rfl
@[simp] theorem Mod.enterS_out (m : Mod) (n : FaultRec) :
    (m.enterS n).1.out = { m.out with attn := m.out.attn ||| n.attn } := by
  unfold Mod.enterS; dsimp only; split <;> simp <;> (repeat' split) <;> rfl

@[simp] theorem Mod.report_ctl (m : Mod) (r : Report) : (m.report r).ctl = m.ctl := by simp [Mod.report, Mod.enter]
@[simp] theorem Mod.report_side (m : Mod) (r : Report) : (m.report r).side = m.side := by simp [Mod.report, Mod.enter]
@[simp] theorem Mod.report_link0 (m : Mod) (r : Report) : (m.report r).link0 = m.link0 := by simp [Mod.report, Mod.enter]
@[simp] theorem Mod.report_link1 (m : Mod) (r : Report) : (m.report r).link1 = m.link1 := by simp [Mod.report, Mod.enter]
@[simp] theorem Mod.report_regions (m : Mod) (r : Report) : (m.report r).regions = m.regions := by simp [Mod.report, Mod.enter]
@[simp] theorem Mod.report_units (m : Mod) (r : Report) : (m.report r).units = m.units := by simp [Mod.report, Mod.enter]
@[simp] theorem Mod.report_pwr (m : Mod) (r : Report) : (m.report r).pwr = m.pwr := by simp [Mod.report, Mod.enter]
@[simp] theorem Mod.report_hbm (m : Mod) (r : Report) : (m.report r).hbm = m.hbm := by simp [Mod.report, Mod.enter]
@[simp] theorem Mod.report_plan (m : Mod) (r : Report) : (m.report r).plan = m.plan := by simp [Mod.report, Mod.enter]
@[simp] theorem Mod.report_run (m : Mod) (r : Report) : (m.report r).run = m.run := by simp [Mod.report, Mod.enter]
@[simp] theorem Mod.report_ctxs (m : Mod) (r : Report) : (m.report r).ctxs = m.ctxs := by simp [Mod.report, Mod.enter]
@[simp] theorem Mod.report_fenced (m : Mod) (r : Report) : (m.report r).fenced = m.fenced := by simp [Mod.report, Mod.enter]
@[simp] theorem Mod.report_tests (m : Mod) (r : Report) : (m.report r).tests = m.tests := by simp [Mod.report, Mod.enter]
@[simp] theorem Mod.report_fw (m : Mod) (r : Report) : (m.report r).fw = m.fw := by simp [Mod.report, Mod.enter]
@[simp] theorem Mod.report_fab (m : Mod) (r : Report) : (m.report r).fab = m.fab := by simp [Mod.report, Mod.enter]
@[simp] theorem Mod.report_step (m : Mod) (r : Report) : (m.report r).step = m.step := by simp [Mod.report, Mod.enter]
@[simp] theorem Mod.report_bank (m : Mod) (r : Report) : (m.report r).bank = m.bank := by simp [Mod.report, Mod.enter]
@[simp] theorem Mod.report_free (m : Mod) (r : Report) : (m.report r).free = m.free := by simp [Mod.report, Mod.enter]
@[simp] theorem Mod.report_out (m : Mod) (r : Report) : (m.report r).out = { m.out with attn := m.out.attn ||| r.attn } := by
  simp [Mod.report, Mod.enter, Mod.faultRec]

@[simp] theorem Mod.reportFault_ctl (m : Mod) (r : Report) : (m.reportFault r).ctl = m.ctl := by
  simp [Mod.reportFault, Mod.enter, Mod.draw]
@[simp] theorem Mod.reportFault_side (m : Mod) (r : Report) : (m.reportFault r).side = m.side := by
  simp [Mod.reportFault, Mod.enter, Mod.draw]
@[simp] theorem Mod.reportFault_link0 (m : Mod) (r : Report) : (m.reportFault r).link0 = m.link0 := by
  simp [Mod.reportFault, Mod.enter, Mod.draw]
@[simp] theorem Mod.reportFault_link1 (m : Mod) (r : Report) : (m.reportFault r).link1 = m.link1 := by
  simp [Mod.reportFault, Mod.enter, Mod.draw]
@[simp] theorem Mod.reportFault_regions (m : Mod) (r : Report) : (m.reportFault r).regions = m.regions := by
  simp [Mod.reportFault, Mod.enter, Mod.draw]
@[simp] theorem Mod.reportFault_units (m : Mod) (r : Report) : (m.reportFault r).units = m.units := by
  simp [Mod.reportFault, Mod.enter, Mod.draw]
@[simp] theorem Mod.reportFault_pwr (m : Mod) (r : Report) : (m.reportFault r).pwr = m.pwr := by
  simp [Mod.reportFault, Mod.enter, Mod.draw]
@[simp] theorem Mod.reportFault_hbm (m : Mod) (r : Report) : (m.reportFault r).hbm = m.hbm := by
  simp [Mod.reportFault, Mod.enter, Mod.draw]
@[simp] theorem Mod.reportFault_plan (m : Mod) (r : Report) : (m.reportFault r).plan = m.plan := by
  simp [Mod.reportFault, Mod.enter, Mod.draw]
@[simp] theorem Mod.reportFault_run (m : Mod) (r : Report) : (m.reportFault r).run = m.run := by
  simp [Mod.reportFault, Mod.enter, Mod.draw]
@[simp] theorem Mod.reportFault_ctxs (m : Mod) (r : Report) : (m.reportFault r).ctxs = m.ctxs := by
  simp [Mod.reportFault, Mod.enter, Mod.draw]
@[simp] theorem Mod.reportFault_fenced (m : Mod) (r : Report) : (m.reportFault r).fenced = m.fenced := by
  simp [Mod.reportFault, Mod.enter, Mod.draw]
@[simp] theorem Mod.reportFault_tests (m : Mod) (r : Report) : (m.reportFault r).tests = m.tests := by
  simp [Mod.reportFault, Mod.enter, Mod.draw]
@[simp] theorem Mod.reportFault_fw (m : Mod) (r : Report) : (m.reportFault r).fw = m.fw := by
  simp [Mod.reportFault, Mod.enter, Mod.draw]
@[simp] theorem Mod.reportFault_fab (m : Mod) (r : Report) : (m.reportFault r).fab = m.fab := by
  simp [Mod.reportFault, Mod.enter, Mod.draw]
@[simp] theorem Mod.reportFault_step (m : Mod) (r : Report) : (m.reportFault r).step = m.step := by
  simp [Mod.reportFault, Mod.enter, Mod.draw]
@[simp] theorem Mod.reportFault_bank (m : Mod) (r : Report) : (m.reportFault r).bank = m.bank := by
  simp [Mod.reportFault, Mod.enter, Mod.draw]
@[simp] theorem Mod.reportFault_free (m : Mod) (r : Report) : (m.reportFault r).free = m.free + 1 := by
  simp [Mod.reportFault, Mod.enter, Mod.draw]

/-- A record whose report names ATTN_FAULT sets just the bits that it names, whatever its interruption. -/
theorem Mod.reportFault_out (m : Mod) (r : Report) (h : r.attn ||| Attn.fault = r.attn) :
    (m.reportFault r).out = { m.out with attn := m.out.attn ||| r.attn } := by
  have h2 : ∀ (c : Prop) [Decidable c] (x : Report), x.attn = r.attn → (if c then x else r).attn = r.attn := by
    intro c _ x hx; split <;> simp [hx]
  simp only [Mod.reportFault, Mod.enter, Mod.enterS_out, Mod.faultRec]
  rw [h2 _ _ h]
  rfl

/-- A record hands over attention bits and nothing else. -/
theorem Mod.reportFault_out_any (m : Mod) (r : Report) : ∃ a, (m.reportFault r).out = { m.out with attn := a } := by
  simp only [Mod.reportFault, Mod.enter, Mod.enterS_out, Mod.draw]
  exact ⟨_, rfl⟩

end Sys2Proof.Machine
end

