-- ==== Sys2Proof/WellFormed.lean ====
section
/-! DEFINITION. Well-formed commands: every operand lies in the range that its name has in the spec (spec 15, R457: two ports; spec
01, R33: eight cores; spec 10, R311: 28 channels; spec 04, R125: member words). A host packet's fields have their widths by type; what a
command does with a value that its rule refuses is its meaning, not a matter of form. -/
namespace Sys2Proof

def portOk (p : Nat) : Bool := decide (p < 2)

/-- A member word (spec 04, R125). -/
def memberOk (w : Nat) : Bool := decide (w < 2048)

/-- A packet as the link layer hands it over (spec 10, R323). -/
def Packet.wellFormed (k : Packet) : Bool :=
  decide (k.channel < 28) && decide (k.dst < 65536) && decide (k.src < 65536) && decide (k.attempt < 2) && decide (k.serialLo < 16)
  && decide (k.addr < 2 ^ 64) && decide (k.data.length ≤ 3824)

/-- Fields of a settle or douse message (spec 04, R127). -/
def EmberMsg.wellFormed (m : EmberMsg) : Bool :=
  decide (m.attempt < 256) && decide (m.sender < 65536) && decide (m.setId < 65536) && decide (m.cause < 65536)

/-- Fields of a count or grant frame (spec 09, R290). -/
def Frame.wellFormed (f : Frame) : Bool :=
  decide (f.sender < 65536) && decide (f.route < 65536) && decide (f.entries.length ≤ 16)
  && f.entries.all (fun e => decide (e.1 < 65536) && decide (e.2 < 65536))

/-- Fields of a FLAG_INC (spec 10, R336). -/
def FlagMsg.wellFormed (m : FlagMsg) : Bool :=
  decide (m.sender < 65536) && decide (m.flag < 65536) && decide (m.inc < 65536) && decide (m.attempt < 256) && decide (m.fence < 2 ^ 32)

/-- Fields of a barrier message (spec 10, R336). -/
def BarrierMsg.wellFormed (m : BarrierMsg) : Bool := decide (m.sender < 65536) && decide (m.barrier < 65536) && decide (m.count < 65536)

/-- Fields of a suspect record (spec 10, R345). -/
def Suspect.wellFormed (r : Suspect) : Bool :=
  decide (r.suspect < 65536) && decide (r.firstReporter < 65536) && decide (r.count < 65536) && decide (r.detail < 65536)
  && decide (r.firstTime < 2 ^ 64)

/-- A PLL domain (spec 01, R46). -/
def Pll.wellFormed : Pll → Bool
  | .core n => decide (n < 8)
  | .channel n => decide (n < 28)
  | .port n => portOk n
  | .noc die => decide (die < 2)
  | .hbmPhy stack => decide (stack < 12)

/-- The operands of a command lie in their ranges. -/
def Instr.wellFormed : Instr → Bool
  | .nop h => portOk h.port
  | .identify h => portOk h.port
  | .statusRead h => portOk h.port
  | .attnAck h _ => portOk h.port
  | .ownerClaim h => portOk h.port
  | .ownerYield h => portOk h.port
  | .counterRead h _ _ _ => portOk h.port
  | .moduleReset h => portOk h.port
  | .moduleResetComplete => true
  | .distanceRead h => portOk h.port
  | .pstateSet h _ _ _ _ => portOk h.port
  | .pstateChangeComplete _ _ => true
  | .pstateQuery h => portOk h.port
  | .oppointRead h _ => portOk h.port
  | .railStatus h => portOk h.port
  | .regionRegister h _ _ _ _ => portOk h.port
  | .regionRevoke h _ => portOk h.port
  | .regionRevokeComplete _ => true
  | .regionQuery h _ => portOk h.port
  | .hbmPartition h _ _ _ _ => portOk h.port
  | .hbmPartitionComplete => true
  | .planLoad h _ => portOk h.port
  | .planLoadComplete _ => true
  | .planReport h => portOk h.port
  | .planStart h => portOk h.port
  | .planHalt h => portOk h.port
  | .planResume h => portOk h.port
  | .planUnload h => portOk h.port
  | .planUnloadComplete => true
  | .streamCreate h _ => portOk h.port
  | .streamArm h _ _ _ => portOk h.port
  | .commandStreamComplete _ _ => true
  | .streamResume h _ => portOk h.port
  | .streamRetire h _ => portOk h.port
  | .stepBegin h _ _ _ _ => portOk h.port
  | .groupSet h _ _ _ => portOk h.port
  | .stepStatus h => portOk h.port
  | .snapshotExport h _ _ => portOk h.port
  | .snapshotExportComplete _ => true
  | .bankConfigure h _ _ _ _ _ _ _ _ => portOk h.port
  | .bankNow h _ => portOk h.port
  | .bankStatus h => portOk h.port
  | .relight h _ _ _ _ _ _ => portOk h.port
  | .relightComplete _ => true
  | .relightStallTimeout => true
  | .bankServe h _ _ _ => portOk h.port
  | .bankServeComplete => true
  | .bankGrantExpiry => true
  | .testWindowForce h _ => portOk h.port
  | .forcedTestComplete core _ => decide (core < 8)
  | .patternInstall h _ => portOk h.port
  | .patternInstallComplete => true
  | .testResultRead h => portOk h.port
  | .marginTestRun h _ => portOk h.port
  | .marginTestComplete core _ => decide (core < 8)
  | .digestPolicySet h _ => portOk h.port
  | .unitDisable h _ _ => portOk h.port
  | .unitDrainComplete _ => true
  | .unitEnable h _ => portOk h.port
  | .unitEnableTestComplete _ _ => true
  | .faultLogRead h _ _ => portOk h.port
  | .fabricConfigure h _ _ _ _ _ _ _ => portOk h.port
  | .channelStatus h => portOk h.port
  | .channelDisable h _ _ => portOk h.port
  | .timebaseStatus h => portOk h.port
  | .fwStage h _ => portOk h.port
  | .fwStageComplete _ => true
  | .fwActivate h _ => portOk h.port
  | .attestQuote h _ => portOk h.port
  | .attestQuoteSigned => true
  | .identityRead h => portOk h.port
  | .ashRead h _ _ => portOk h.port
  | .ashNote h _ => portOk h.port
  | .ashStatus h => portOk h.port
  | .kindlingEnter h _ => portOk h.port
  | .kindlingEnterComplete core => decide (core < 8)
  | .kindlingExit h _ => portOk h.port
  | .diagRun h _ _ _ => portOk h.port
  | .diagRunComplete core _ => decide (core < 8)
  | .cmdDoorbell port _ => portOk port
  | .ringEnable port => portOk port
  | .ringDisable port => portOk port
  | .replyConsumed port _ => portOk port
  | .registerWrite port _ _ => portOk port
  | .hearthBeat => true
  | .hearthLockstepMismatch => true
  | .hearthRestartComplete => true
  | .ownerLapse => true
  | .linkDown port => portOk port
  | .hotReset port => portOk port
  | .functionLevelReset port => portOk port
  | .conventionalReset port => portOk port
  | .hostError _ => true
  | .ideFail port => portOk port
  | .getMeasurements port => portOk port
  | .keyExchange port _ => portOk port
  | .ideKmKeyProg port _ => portOk port
  | .kSetGo port => portOk port
  | .sidebandCommand _ => true
  | .sidebandBufferRead _ _ => true
  | .entdaa _ => true
  | .setdasa _ => true
  | .setaasa => true
  | .rstdaa => true
  | .getpid => true
  | .getbcr => true
  | .getdcr => true
  | .getstatus => true
  | .getmwl => true
  | .getmrl => true
  | .benchRead _ _ => true
  | .benchStatusRead => true
  | .debugToken _ => true
  | .inputPowerUp _ => true
  | .inputLost _ => true
  | .tripUndervolt _ => true
  | .tripOvervolt _ => true
  | .warnInput _ => true
  | .tripCurrent _ _ => true
  | .tripThermal _ _ => true
  | .tripSensor _ _ => true
  | .coolOkDeassert => true
  | .coolOkAssert _ => true
  | .tripFlow => true
  | .tripLeak => true
  | .tripPrecharge => true
  | .tripSwitch _ => true
  | .tripCauseCleared _ => true
  | .trayPresentBreak => true
  | .trayPresentMake => true
  | .warnThermal _ _ => true
  | .warnOverload _ _ => true
  | .guardSelfTestDone _ => true
  | .phaseLost _ _ => true
  | .railTrip _ => true
  | .coldStartStage _ => true
  | .coldStartComplete => true
  | .stackTrainingFail stack => decide (stack < 12)
  | .channelTrainDone channel _ => decide (channel < 28)
  | .pllLockLoss pll => pll.wellFormed
  | .referenceLoss => true
  | .referenceRestored => true
  | .roundOpen => true
  | .barrierTimeout => true
  | .woodpileClaim core => decide (core < 8)
  | .denseItemComplete _ _ => true
  | .checksumVerdict _ _ _ => true
  | .sparseVerdict _ _ => true
  | .strikeExpiry _ => true
  | .sparseItemComplete _ _ => true
  | .segmentItemComplete _ _ => true
  | .updateShardComplete _ => true
  | .itemWatchdog _ _ => true
  | .unitFaultDetected _ _ => true
  | .sequencerHeartbeatMiss core => decide (core < 8)
  | .hbmPoisonRead _ _ _ => true
  | .hbmPatrol _ _ => true
  | .combineRun _ _ => true
  | .streamUnitStart _ => true
  | .streamUnitVisible _ _ => true
  | .streamHold _ _ _ _ => true
  | .flueMessageComplete _ => true
  | .drainComplete _ => true
  | .runPhaseEnd _ => true
  | .settleTokenSend => true
  | .settleToken msg => msg.wellFormed
  | .digestGate => true
  | .roundCommitComplete => true
  | .settleTimeout => true
  | .douseOriginate => true
  | .douse msg => msg.wellFormed
  | .douseReady msg => msg.wellFormed
  | .replayRoundStart => true
  | .versionWaitTimeout => true
  | .routeStart _ => true
  | .countFrame frame => frame.wellFormed
  | .grantFrame frame => frame.wellFormed
  | .dispatchVisible _ _ => true
  | .returnStart _ => true
  | .returnVisible _ _ => true
  | .combineStart _ => true
  | .routeCombineComplete _ => true
  | .routeTimeout _ => true
  | .maskGenerateComplete _ => true
  | .collectiveStart _ => true
  | .collectiveComplete _ => true
  | .collTimeout _ _ _ => true
  | .testStart _ core _ => decide (core < 8)
  | .testComplete core _ => decide (core < 8)
  | .testDue _ => true
  | .testOverdue _ => true
  | .laneFail channel _ _ => decide (channel < 28)
  | .spareLaneRotate channel => decide (channel < 28)
  | .flitError channel _ => decide (channel < 28)
  | .nak channel _ _ => decide (channel < 28)
  | .channelDown channel _ => decide (channel < 28)
  | .peerSilenceTimeout channel _ => decide (channel < 28)
  | .dataPacket packet => packet.wellFormed
  | .packetForward packet => packet.wellFormed
  | .sumPacket packet => packet.wellFormed
  | .timeExchange => true
  | .timeFlit channel _ _ _ _ => decide (channel < 28)
  | .timeUnlocked => true
  | .timebaseStep => true
  | .flagInc msg => msg.wellFormed
  | .barrierArrive msg => msg.wellFormed
  | .barrierRelease msg _ => msg.wellFormed
  | .barrierReleaseTime => true
  | .report suspect => suspect.wellFormed
  | .storm suspect => suspect.wellFormed
  | .reportHoldExpiry _ => true
  | .hello _ _ => true
  | .helloTick => true
  | .partnerLost => true
  | .bankOpen _ => true
  | .bankData _ _ _ => true
  | .seal _ _ => true
  | .bankAbort _ _ => true
  | .ack _ _ _ _ => true
  | .pull _ _ _ => true
  | .hostCopyComplete => true
  | .standbySupplyLost => true
  | .streamContextFault _ => true
  | .nocLinkFault _ => true
  | .dieFault _ => true
  | .bankExtentRead _ => true

/-- The port that a command arrives on or names. -/
def Instr.portOf : Instr → Option Nat
  | .nop h => some h.port
  | .identify h => some h.port
  | .statusRead h => some h.port
  | .attnAck h _ => some h.port
  | .ownerClaim h => some h.port
  | .ownerYield h => some h.port
  | .counterRead h _ _ _ => some h.port
  | .moduleReset h => some h.port
  | .moduleResetComplete => none
  | .distanceRead h => some h.port
  | .pstateSet h _ _ _ _ => some h.port
  | .pstateChangeComplete _ _ => none
  | .pstateQuery h => some h.port
  | .oppointRead h _ => some h.port
  | .railStatus h => some h.port
  | .regionRegister h _ _ _ _ => some h.port
  | .regionRevoke h _ => some h.port
  | .regionRevokeComplete _ => none
  | .regionQuery h _ => some h.port
  | .hbmPartition h _ _ _ _ => some h.port
  | .hbmPartitionComplete => none
  | .planLoad h _ => some h.port
  | .planLoadComplete _ => none
  | .planReport h => some h.port
  | .planStart h => some h.port
  | .planHalt h => some h.port
  | .planResume h => some h.port
  | .planUnload h => some h.port
  | .planUnloadComplete => none
  | .streamCreate h _ => some h.port
  | .streamArm h _ _ _ => some h.port
  | .commandStreamComplete _ _ => none
  | .streamResume h _ => some h.port
  | .streamRetire h _ => some h.port
  | .stepBegin h _ _ _ _ => some h.port
  | .groupSet h _ _ _ => some h.port
  | .stepStatus h => some h.port
  | .snapshotExport h _ _ => some h.port
  | .snapshotExportComplete _ => none
  | .bankConfigure h _ _ _ _ _ _ _ _ => some h.port
  | .bankNow h _ => some h.port
  | .bankStatus h => some h.port
  | .relight h _ _ _ _ _ _ => some h.port
  | .relightComplete _ => none
  | .relightStallTimeout => none
  | .bankServe h _ _ _ => some h.port
  | .bankServeComplete => none
  | .bankGrantExpiry => none
  | .testWindowForce h _ => some h.port
  | .forcedTestComplete _ _ => none
  | .patternInstall h _ => some h.port
  | .patternInstallComplete => none
  | .testResultRead h => some h.port
  | .marginTestRun h _ => some h.port
  | .marginTestComplete _ _ => none
  | .digestPolicySet h _ => some h.port
  | .unitDisable h _ _ => some h.port
  | .unitDrainComplete _ => none
  | .unitEnable h _ => some h.port
  | .unitEnableTestComplete _ _ => none
  | .faultLogRead h _ _ => some h.port
  | .fabricConfigure h _ _ _ _ _ _ _ => some h.port
  | .channelStatus h => some h.port
  | .channelDisable h _ _ => some h.port
  | .timebaseStatus h => some h.port
  | .fwStage h _ => some h.port
  | .fwStageComplete _ => none
  | .fwActivate h _ => some h.port
  | .attestQuote h _ => some h.port
  | .attestQuoteSigned => none
  | .identityRead h => some h.port
  | .ashRead h _ _ => some h.port
  | .ashNote h _ => some h.port
  | .ashStatus h => some h.port
  | .kindlingEnter h _ => some h.port
  | .kindlingEnterComplete _ => none
  | .kindlingExit h _ => some h.port
  | .diagRun h _ _ _ => some h.port
  | .diagRunComplete _ _ => none
  | .cmdDoorbell port _ => some port
  | .ringEnable port => some port
  | .ringDisable port => some port
  | .replyConsumed port _ => some port
  | .registerWrite port _ _ => some port
  | .hearthBeat => none
  | .hearthLockstepMismatch => none
  | .hearthRestartComplete => none
  | .ownerLapse => none
  | .linkDown port => some port
  | .hotReset port => some port
  | .functionLevelReset port => some port
  | .conventionalReset port => some port
  | .hostError _ => none
  | .ideFail port => some port
  | .getMeasurements port => some port
  | .keyExchange port _ => some port
  | .ideKmKeyProg port _ => some port
  | .kSetGo port => some port
  | .sidebandCommand _ => none
  | .sidebandBufferRead _ _ => none
  | .entdaa _ => none
  | .setdasa _ => none
  | .setaasa => none
  | .rstdaa => none
  | .getpid => none
  | .getbcr => none
  | .getdcr => none
  | .getstatus => none
  | .getmwl => none
  | .getmrl => none
  | .benchRead _ _ => none
  | .benchStatusRead => none
  | .debugToken _ => none
  | .inputPowerUp _ => none
  | .inputLost _ => none
  | .tripUndervolt _ => none
  | .tripOvervolt _ => none
  | .warnInput _ => none
  | .tripCurrent _ _ => none
  | .tripThermal _ _ => none
  | .tripSensor _ _ => none
  | .coolOkDeassert => none
  | .coolOkAssert _ => none
  | .tripFlow => none
  | .tripLeak => none
  | .tripPrecharge => none
  | .tripSwitch _ => none
  | .tripCauseCleared _ => none
  | .trayPresentBreak => none
  | .trayPresentMake => none
  | .warnThermal _ _ => none
  | .warnOverload _ _ => none
  | .guardSelfTestDone _ => none
  | .phaseLost _ _ => none
  | .railTrip _ => none
  | .coldStartStage _ => none
  | .coldStartComplete => none
  | .stackTrainingFail _ => none
  | .channelTrainDone _ _ => none
  | .pllLockLoss _ => none
  | .referenceLoss => none
  | .referenceRestored => none
  | .roundOpen => none
  | .barrierTimeout => none
  | .woodpileClaim _ => none
  | .denseItemComplete _ _ => none
  | .checksumVerdict _ _ _ => none
  | .sparseVerdict _ _ => none
  | .strikeExpiry _ => none
  | .sparseItemComplete _ _ => none
  | .segmentItemComplete _ _ => none
  | .updateShardComplete _ => none
  | .itemWatchdog _ _ => none
  | .unitFaultDetected _ _ => none
  | .sequencerHeartbeatMiss _ => none
  | .hbmPoisonRead _ _ _ => none
  | .hbmPatrol _ _ => none
  | .combineRun _ _ => none
  | .streamUnitStart _ => none
  | .streamUnitVisible _ _ => none
  | .streamHold _ _ _ _ => none
  | .flueMessageComplete _ => none
  | .drainComplete _ => none
  | .runPhaseEnd _ => none
  | .settleTokenSend => none
  | .settleToken _ => none
  | .digestGate => none
  | .roundCommitComplete => none
  | .settleTimeout => none
  | .douseOriginate => none
  | .douse _ => none
  | .douseReady _ => none
  | .replayRoundStart => none
  | .versionWaitTimeout => none
  | .routeStart _ => none
  | .countFrame _ => none
  | .grantFrame _ => none
  | .dispatchVisible _ _ => none
  | .returnStart _ => none
  | .returnVisible _ _ => none
  | .combineStart _ => none
  | .routeCombineComplete _ => none
  | .routeTimeout _ => none
  | .maskGenerateComplete _ => none
  | .collectiveStart _ => none
  | .collectiveComplete _ => none
  | .collTimeout _ _ _ => none
  | .testStart _ _ _ => none
  | .testComplete _ _ => none
  | .testDue _ => none
  | .testOverdue _ => none
  | .laneFail _ _ _ => none
  | .spareLaneRotate _ => none
  | .flitError _ _ => none
  | .nak _ _ _ => none
  | .channelDown _ _ => none
  | .peerSilenceTimeout _ _ => none
  | .dataPacket _ => none
  | .packetForward _ => none
  | .sumPacket _ => none
  | .timeExchange => none
  | .timeFlit _ _ _ _ _ => none
  | .timeUnlocked => none
  | .timebaseStep => none
  | .flagInc _ => none
  | .barrierArrive _ => none
  | .barrierRelease _ _ => none
  | .barrierReleaseTime => none
  | .report _ => none
  | .storm _ => none
  | .reportHoldExpiry _ => none
  | .hello _ _ => none
  | .helloTick => none
  | .partnerLost => none
  | .bankOpen _ => none
  | .bankData _ _ _ => none
  | .seal _ _ => none
  | .bankAbort _ _ => none
  | .ack _ _ _ _ => none
  | .pull _ _ _ => none
  | .hostCopyComplete => none
  | .standbySupplyLost => none
  | .streamContextFault _ => none
  | .nocLinkFault _ => none
  | .dieFault _ => none
  | .bankExtentRead _ => none

end Sys2Proof
end

