-- ==== Sys2Proof/Laws/PerInstr.lean ====
section
/-! SUPPORT. One law for every constructor: a well-formed command that names a port names port 0 or 1. -/
namespace Sys2Proof.Laws

/-- A port that the command names is one of the two. -/
def Port.Statement (i : Instr) : Prop := i.wellFormed = true → ∀ p, i.portOf = some p → p < 2

/-- A command that names a port and is well-formed only with a legal one. -/
theorem Port.of_port {i : Instr} {q : Nat} (hp : i.portOf = some q) (hw : i.wellFormed = true → portOk q = true) : Port.Statement i := by
  intro h p hq
  rw [hp] at hq
  cases hq
  exact of_decide_eq_true (hw h)

/-- A command that names no port. -/
theorem Port.of_none {i : Instr} (hp : i.portOf = none) : Port.Statement i := by
  intro _ p hq
  rw [hp] at hq
  cases hq

theorem Port.nop (a0 : Cmd) : Port.Statement (.nop a0) := Port.of_port rfl id
theorem Port.identify (a0 : Cmd) : Port.Statement (.identify a0) := Port.of_port rfl id
theorem Port.statusRead (a0 : Cmd) : Port.Statement (.statusRead a0) := Port.of_port rfl id
theorem Port.attnAck (a0 : Cmd) (a1 : Byte) : Port.Statement (.attnAck a0 a1) := Port.of_port rfl id
theorem Port.ownerClaim (a0 : Cmd) : Port.Statement (.ownerClaim a0) := Port.of_port rfl id
theorem Port.ownerYield (a0 : Cmd) : Port.Statement (.ownerYield a0) := Port.of_port rfl id
theorem Port.counterRead (a0 : Cmd) (a1 : Half) (a2 : Half) (a3 : Byte) : Port.Statement (.counterRead a0 a1 a2 a3) := Port.of_port rfl id
theorem Port.moduleReset (a0 : Cmd) : Port.Statement (.moduleReset a0) := Port.of_port rfl id
theorem Port.moduleResetComplete : Port.Statement (.moduleResetComplete) := Port.of_none rfl
theorem Port.distanceRead (a0 : Cmd) : Port.Statement (.distanceRead a0) := Port.of_port rfl id
theorem Port.pstateSet (a0 : Cmd) (a1 : Byte) (a2 : Byte) (a3 : Byte) (a4 : Byte) : Port.Statement (.pstateSet a0 a1 a2 a3 a4) := Port.of_port rfl id
theorem Port.pstateChangeComplete (a0 : Nat) (a1 : Nat) : Port.Statement (.pstateChangeComplete a0 a1) := Port.of_none rfl
theorem Port.pstateQuery (a0 : Cmd) : Port.Statement (.pstateQuery a0) := Port.of_port rfl id
theorem Port.oppointRead (a0 : Cmd) (a1 : Byte) : Port.Statement (.oppointRead a0 a1) := Port.of_port rfl id
theorem Port.railStatus (a0 : Cmd) : Port.Statement (.railStatus a0) := Port.of_port rfl id
theorem Port.regionRegister (a0 : Cmd) (a1 : Half) (a2 : Byte) (a3 : Dword) (a4 : Dword) : Port.Statement (.regionRegister a0 a1 a2 a3 a4) := Port.of_port rfl id
theorem Port.regionRevoke (a0 : Cmd) (a1 : Half) : Port.Statement (.regionRevoke a0 a1) := Port.of_port rfl id
theorem Port.regionRevokeComplete (a0 : Nat) : Port.Statement (.regionRevokeComplete a0) := Port.of_none rfl
theorem Port.regionQuery (a0 : Cmd) (a1 : Half) : Port.Statement (.regionQuery a0 a1) := Port.of_port rfl id
theorem Port.hbmPartition (a0 : Cmd) (a1 : Half) (a2 : Byte) (a3 : Byte) (a4 : Half) : Port.Statement (.hbmPartition a0 a1 a2 a3 a4) := Port.of_port rfl id
theorem Port.hbmPartitionComplete : Port.Statement (.hbmPartitionComplete) := Port.of_none rfl
theorem Port.planLoad (a0 : Cmd) (a1 : HostRead) : Port.Statement (.planLoad a0 a1) := Port.of_port rfl id
theorem Port.planLoadComplete (a0 : Bytes) : Port.Statement (.planLoadComplete a0) := Port.of_none rfl
theorem Port.planReport (a0 : Cmd) : Port.Statement (.planReport a0) := Port.of_port rfl id
theorem Port.planStart (a0 : Cmd) : Port.Statement (.planStart a0) := Port.of_port rfl id
theorem Port.planHalt (a0 : Cmd) : Port.Statement (.planHalt a0) := Port.of_port rfl id
theorem Port.planResume (a0 : Cmd) : Port.Statement (.planResume a0) := Port.of_port rfl id
theorem Port.planUnload (a0 : Cmd) : Port.Statement (.planUnload a0) := Port.of_port rfl id
theorem Port.planUnloadComplete : Port.Statement (.planUnloadComplete) := Port.of_none rfl
theorem Port.streamCreate (a0 : Cmd) (a1 : HostRead) : Port.Statement (.streamCreate a0 a1) := Port.of_port rfl id
theorem Port.streamArm (a0 : Cmd) (a1 : Word) (a2 : Dword) (a3 : Dword) : Port.Statement (.streamArm a0 a1 a2 a3) := Port.of_port rfl id
theorem Port.commandStreamComplete (a0 : Nat) (a1 : Bytes) : Port.Statement (.commandStreamComplete a0 a1) := Port.of_none rfl
theorem Port.streamResume (a0 : Cmd) (a1 : Word) : Port.Statement (.streamResume a0 a1) := Port.of_port rfl id
theorem Port.streamRetire (a0 : Cmd) (a1 : Word) : Port.Statement (.streamRetire a0 a1) := Port.of_port rfl id
theorem Port.stepBegin (a0 : Cmd) (a1 : Word) (a2 : F32) (a3 : F32) (a4 : Word) : Port.Statement (.stepBegin a0 a1 a2 a3 a4) := Port.of_port rfl id
theorem Port.groupSet (a0 : Cmd) (a1 : Half) (a2 : F32) (a3 : F32) : Port.Statement (.groupSet a0 a1 a2 a3) := Port.of_port rfl id
theorem Port.stepStatus (a0 : Cmd) : Port.Statement (.stepStatus a0) := Port.of_port rfl id
theorem Port.snapshotExport (a0 : Cmd) (a1 : Half) (a2 : Byte) : Port.Statement (.snapshotExport a0 a1 a2) := Port.of_port rfl id
theorem Port.snapshotExportComplete (a0 : Nat) : Port.Statement (.snapshotExportComplete a0) := Port.of_none rfl
theorem Port.bankConfigure (a0 : Cmd) (a1 : Half) (a2 : Byte) (a3 : Byte) (a4 : Byte) (a5 : Half) (a6 : Half) (a7 : Half) (a8 : Half) : Port.Statement (.bankConfigure a0 a1 a2 a3 a4 a5 a6 a7 a8) := Port.of_port rfl id
theorem Port.bankNow (a0 : Cmd) (a1 : Byte) : Port.Statement (.bankNow a0 a1) := Port.of_port rfl id
theorem Port.bankStatus (a0 : Cmd) : Port.Statement (.bankStatus a0) := Port.of_port rfl id
theorem Port.relight (a0 : Cmd) (a1 : Byte) (a2 : Word) (a3 : Half) (a4 : Half) (a5 : Half) (a6 : Half) : Port.Statement (.relight a0 a1 a2 a3 a4 a5 a6) := Port.of_port rfl id
theorem Port.relightComplete (a0 : Bytes) : Port.Statement (.relightComplete a0) := Port.of_none rfl
theorem Port.relightStallTimeout : Port.Statement (.relightStallTimeout) := Port.of_none rfl
theorem Port.bankServe (a0 : Cmd) (a1 : Half) (a2 : Word) (a3 : Half) : Port.Statement (.bankServe a0 a1 a2 a3) := Port.of_port rfl id
theorem Port.bankServeComplete : Port.Statement (.bankServeComplete) := Port.of_none rfl
theorem Port.bankGrantExpiry : Port.Statement (.bankGrantExpiry) := Port.of_none rfl
theorem Port.testWindowForce (a0 : Cmd) (a1 : Byte) : Port.Statement (.testWindowForce a0 a1) := Port.of_port rfl id
theorem Port.forcedTestComplete (a0 : Nat) (a1 : List TestOut) : Port.Statement (.forcedTestComplete a0 a1) := Port.of_none rfl
theorem Port.patternInstall (a0 : Cmd) (a1 : HostRead) : Port.Statement (.patternInstall a0 a1) := Port.of_port rfl id
theorem Port.patternInstallComplete : Port.Statement (.patternInstallComplete) := Port.of_none rfl
theorem Port.testResultRead (a0 : Cmd) : Port.Statement (.testResultRead a0) := Port.of_port rfl id
theorem Port.marginTestRun (a0 : Cmd) (a1 : Byte) : Port.Statement (.marginTestRun a0 a1) := Port.of_port rfl id
theorem Port.marginTestComplete (a0 : Nat) (a1 : List MarginOut) : Port.Statement (.marginTestComplete a0 a1) := Port.of_none rfl
theorem Port.digestPolicySet (a0 : Cmd) (a1 : Half) : Port.Statement (.digestPolicySet a0 a1) := Port.of_port rfl id
theorem Port.unitDisable (a0 : Cmd) (a1 : Half) (a2 : Byte) : Port.Statement (.unitDisable a0 a1 a2) := Port.of_port rfl id
theorem Port.unitDrainComplete (a0 : Half) : Port.Statement (.unitDrainComplete a0) := Port.of_none rfl
theorem Port.unitEnable (a0 : Cmd) (a1 : Half) : Port.Statement (.unitEnable a0 a1) := Port.of_port rfl id
theorem Port.unitEnableTestComplete (a0 : Half) (a1 : Bool) : Port.Statement (.unitEnableTestComplete a0 a1) := Port.of_none rfl
theorem Port.faultLogRead (a0 : Cmd) (a1 : Word) (a2 : Half) : Port.Statement (.faultLogRead a0 a1 a2) := Port.of_port rfl id
theorem Port.fabricConfigure (a0 : Cmd) (a1 : Half) (a2 : Byte) (a3 : Byte) (a4 : Half) (a5 : Half) (a6 : Dword) (a7 : Half) : Port.Statement (.fabricConfigure a0 a1 a2 a3 a4 a5 a6 a7) := Port.of_port rfl id
theorem Port.channelStatus (a0 : Cmd) : Port.Statement (.channelStatus a0) := Port.of_port rfl id
theorem Port.channelDisable (a0 : Cmd) (a1 : Byte) (a2 : Byte) : Port.Statement (.channelDisable a0 a1 a2) := Port.of_port rfl id
theorem Port.timebaseStatus (a0 : Cmd) : Port.Statement (.timebaseStatus a0) := Port.of_port rfl id
theorem Port.fwStage (a0 : Cmd) (a1 : HostRead) : Port.Statement (.fwStage a0 a1) := Port.of_port rfl id
theorem Port.fwStageComplete (a0 : Bytes) : Port.Statement (.fwStageComplete a0) := Port.of_none rfl
theorem Port.fwActivate (a0 : Cmd) (a1 : Nat) : Port.Statement (.fwActivate a0 a1) := Port.of_port rfl id
theorem Port.attestQuote (a0 : Cmd) (a1 : BitVec 256) : Port.Statement (.attestQuote a0 a1) := Port.of_port rfl id
theorem Port.attestQuoteSigned : Port.Statement (.attestQuoteSigned) := Port.of_none rfl
theorem Port.identityRead (a0 : Cmd) : Port.Statement (.identityRead a0) := Port.of_port rfl id
theorem Port.ashRead (a0 : Cmd) (a1 : Word) (a2 : Word) : Port.Statement (.ashRead a0 a1 a2) := Port.of_port rfl id
theorem Port.ashNote (a0 : Cmd) (a1 : BitVec 320) : Port.Statement (.ashNote a0 a1) := Port.of_port rfl id
theorem Port.ashStatus (a0 : Cmd) : Port.Statement (.ashStatus a0) := Port.of_port rfl id
theorem Port.kindlingEnter (a0 : Cmd) (a1 : Byte) : Port.Statement (.kindlingEnter a0 a1) := Port.of_port rfl id
theorem Port.kindlingEnterComplete (a0 : Nat) : Port.Statement (.kindlingEnterComplete a0) := Port.of_none rfl
theorem Port.kindlingExit (a0 : Cmd) (a1 : Byte) : Port.Statement (.kindlingExit a0 a1) := Port.of_port rfl id
theorem Port.diagRun (a0 : Cmd) (a1 : Byte) (a2 : Byte) (a3 : Half) : Port.Statement (.diagRun a0 a1 a2 a3) := Port.of_port rfl id
theorem Port.diagRunComplete (a0 : Nat) (a1 : List DiagOut) : Port.Statement (.diagRunComplete a0 a1) := Port.of_none rfl
theorem Port.cmdDoorbell (a0 : Nat) (a1 : Word) : Port.Statement (.cmdDoorbell a0 a1) := Port.of_port rfl id
theorem Port.ringEnable (a0 : Nat) : Port.Statement (.ringEnable a0) := Port.of_port rfl id
theorem Port.ringDisable (a0 : Nat) : Port.Statement (.ringDisable a0) := Port.of_port rfl id
theorem Port.replyConsumed (a0 : Nat) (a1 : Word) : Port.Statement (.replyConsumed a0 a1) := Port.of_port rfl id
theorem Port.registerWrite (a0 : Nat) (a1 : Nat) (a2 : Dword) : Port.Statement (.registerWrite a0 a1 a2) := Port.of_port rfl id
theorem Port.hearthBeat : Port.Statement (.hearthBeat) := Port.of_none rfl
theorem Port.hearthLockstepMismatch : Port.Statement (.hearthLockstepMismatch) := Port.of_none rfl
theorem Port.hearthRestartComplete : Port.Statement (.hearthRestartComplete) := Port.of_none rfl
theorem Port.ownerLapse : Port.Statement (.ownerLapse) := Port.of_none rfl
theorem Port.linkDown (a0 : Nat) : Port.Statement (.linkDown a0) := Port.of_port rfl id
theorem Port.hotReset (a0 : Nat) : Port.Statement (.hotReset a0) := Port.of_port rfl id
theorem Port.functionLevelReset (a0 : Nat) : Port.Statement (.functionLevelReset a0) := Port.of_port rfl id
theorem Port.conventionalReset (a0 : Nat) : Port.Statement (.conventionalReset a0) := Port.of_port rfl id
theorem Port.hostError (a0 : HostReader) : Port.Statement (.hostError a0) := Port.of_none rfl
theorem Port.ideFail (a0 : Nat) : Port.Statement (.ideFail a0) := Port.of_port rfl id
theorem Port.getMeasurements (a0 : Nat) : Port.Statement (.getMeasurements a0) := Port.of_port rfl id
theorem Port.keyExchange (a0 : Nat) (a1 : Nat) : Port.Statement (.keyExchange a0 a1) := Port.of_port rfl id
theorem Port.ideKmKeyProg (a0 : Nat) (a1 : Nat) : Port.Statement (.ideKmKeyProg a0 a1) := Port.of_port rfl id
theorem Port.kSetGo (a0 : Nat) : Port.Statement (.kSetGo a0) := Port.of_port rfl id
theorem Port.sidebandCommand (a0 : Bytes) : Port.Statement (.sidebandCommand a0) := Port.of_none rfl
theorem Port.sidebandBufferRead (a0 : Half) (a1 : Nat) : Port.Statement (.sidebandBufferRead a0 a1) := Port.of_none rfl
theorem Port.entdaa (a0 : Nat) : Port.Statement (.entdaa a0) := Port.of_none rfl
theorem Port.setdasa (a0 : Nat) : Port.Statement (.setdasa a0) := Port.of_none rfl
theorem Port.setaasa : Port.Statement (.setaasa) := Port.of_none rfl
theorem Port.rstdaa : Port.Statement (.rstdaa) := Port.of_none rfl
theorem Port.getpid : Port.Statement (.getpid) := Port.of_none rfl
theorem Port.getbcr : Port.Statement (.getbcr) := Port.of_none rfl
theorem Port.getdcr : Port.Statement (.getdcr) := Port.of_none rfl
theorem Port.getstatus : Port.Statement (.getstatus) := Port.of_none rfl
theorem Port.getmwl : Port.Statement (.getmwl) := Port.of_none rfl
theorem Port.getmrl : Port.Statement (.getmrl) := Port.of_none rfl
theorem Port.benchRead (a0 : Word) (a1 : Nat) : Port.Statement (.benchRead a0 a1) := Port.of_none rfl
theorem Port.benchStatusRead : Port.Statement (.benchStatusRead) := Port.of_none rfl
theorem Port.debugToken (a0 : Bytes) : Port.Statement (.debugToken a0) := Port.of_none rfl
theorem Port.inputPowerUp (a0 : Nat) : Port.Statement (.inputPowerUp a0) := Port.of_none rfl
theorem Port.inputLost (a0 : Nat) : Port.Statement (.inputLost a0) := Port.of_none rfl
theorem Port.tripUndervolt (a0 : Nat) : Port.Statement (.tripUndervolt a0) := Port.of_none rfl
theorem Port.tripOvervolt (a0 : Nat) : Port.Statement (.tripOvervolt a0) := Port.of_none rfl
theorem Port.warnInput (a0 : Nat) : Port.Statement (.warnInput a0) := Port.of_none rfl
theorem Port.tripCurrent (a0 : Bool) (a1 : Nat) : Port.Statement (.tripCurrent a0 a1) := Port.of_none rfl
theorem Port.tripThermal (a0 : Nat) (a1 : Int) : Port.Statement (.tripThermal a0 a1) := Port.of_none rfl
theorem Port.tripSensor (a0 : Nat) (a1 : Int) : Port.Statement (.tripSensor a0 a1) := Port.of_none rfl
theorem Port.coolOkDeassert : Port.Statement (.coolOkDeassert) := Port.of_none rfl
theorem Port.coolOkAssert (a0 : Nat) : Port.Statement (.coolOkAssert a0) := Port.of_none rfl
theorem Port.tripFlow : Port.Statement (.tripFlow) := Port.of_none rfl
theorem Port.tripLeak : Port.Statement (.tripLeak) := Port.of_none rfl
theorem Port.tripPrecharge : Port.Statement (.tripPrecharge) := Port.of_none rfl
theorem Port.tripSwitch (a0 : Bool) : Port.Statement (.tripSwitch a0) := Port.of_none rfl
theorem Port.tripCauseCleared (a0 : Trip) : Port.Statement (.tripCauseCleared a0) := Port.of_none rfl
theorem Port.trayPresentBreak : Port.Statement (.trayPresentBreak) := Port.of_none rfl
theorem Port.trayPresentMake : Port.Statement (.trayPresentMake) := Port.of_none rfl
theorem Port.warnThermal (a0 : Nat) (a1 : Int) : Port.Statement (.warnThermal a0 a1) := Port.of_none rfl
theorem Port.warnOverload (a0 : Nat) (a1 : Nat) : Port.Statement (.warnOverload a0 a1) := Port.of_none rfl
theorem Port.guardSelfTestDone (a0 : SelfTest) : Port.Statement (.guardSelfTestDone a0) := Port.of_none rfl
theorem Port.phaseLost (a0 : Nat) (a1 : Nat) : Port.Statement (.phaseLost a0 a1) := Port.of_none rfl
theorem Port.railTrip (a0 : Nat) : Port.Statement (.railTrip a0) := Port.of_none rfl
theorem Port.coldStartStage (a0 : ColdStage) : Port.Statement (.coldStartStage a0) := Port.of_none rfl
theorem Port.coldStartComplete : Port.Statement (.coldStartComplete) := Port.of_none rfl
theorem Port.stackTrainingFail (a0 : Nat) : Port.Statement (.stackTrainingFail a0) := Port.of_none rfl
theorem Port.channelTrainDone (a0 : Nat) (a1 : Bool) : Port.Statement (.channelTrainDone a0 a1) := Port.of_none rfl
theorem Port.pllLockLoss (a0 : Pll) : Port.Statement (.pllLockLoss a0) := Port.of_none rfl
theorem Port.referenceLoss : Port.Statement (.referenceLoss) := Port.of_none rfl
theorem Port.referenceRestored : Port.Statement (.referenceRestored) := Port.of_none rfl
theorem Port.roundOpen : Port.Statement (.roundOpen) := Port.of_none rfl
theorem Port.barrierTimeout : Port.Statement (.barrierTimeout) := Port.of_none rfl
theorem Port.woodpileClaim (a0 : Nat) : Port.Statement (.woodpileClaim a0) := Port.of_none rfl
theorem Port.denseItemComplete (a0 : Nat) (a1 : List (Nat × Byte)) : Port.Statement (.denseItemComplete a0 a1) := Port.of_none rfl
theorem Port.checksumVerdict (a0 : Nat) (a1 : CheckPlace) (a2 : Seen) : Port.Statement (.checksumVerdict a0 a1 a2) := Port.of_none rfl
theorem Port.sparseVerdict (a0 : Nat) (a1 : Seen) : Port.Statement (.sparseVerdict a0 a1) := Port.of_none rfl
theorem Port.strikeExpiry (a0 : Half) : Port.Statement (.strikeExpiry a0) := Port.of_none rfl
theorem Port.sparseItemComplete (a0 : Nat) (a1 : List (Nat × Byte)) : Port.Statement (.sparseItemComplete a0 a1) := Port.of_none rfl
theorem Port.segmentItemComplete (a0 : Nat) (a1 : List (Nat × Byte)) : Port.Statement (.segmentItemComplete a0 a1) := Port.of_none rfl
theorem Port.updateShardComplete (a0 : Nat) : Port.Statement (.updateShardComplete a0) := Port.of_none rfl
theorem Port.itemWatchdog (a0 : Nat) (a1 : Nat) : Port.Statement (.itemWatchdog a0 a1) := Port.of_none rfl
theorem Port.unitFaultDetected (a0 : Half) (a1 : FenceCause) : Port.Statement (.unitFaultDetected a0 a1) := Port.of_none rfl
theorem Port.sequencerHeartbeatMiss (a0 : Nat) : Port.Statement (.sequencerHeartbeatMiss a0) := Port.of_none rfl
theorem Port.hbmPoisonRead (a0 : Nat) (a1 : List Nat) (a2 : PoisonReader) : Port.Statement (.hbmPoisonRead a0 a1 a2) := Port.of_none rfl
theorem Port.hbmPatrol (a0 : Nat) (a1 : List Nat) : Port.Statement (.hbmPatrol a0 a1) := Port.of_none rfl
theorem Port.combineRun (a0 : Nat) (a1 : Seen) : Port.Statement (.combineRun a0 a1) := Port.of_none rfl
theorem Port.streamUnitStart (a0 : Nat) : Port.Statement (.streamUnitStart a0) := Port.of_none rfl
theorem Port.streamUnitVisible (a0 : Nat) (a1 : Bytes) : Port.Statement (.streamUnitVisible a0 a1) := Port.of_none rfl
theorem Port.streamHold (a0 : Nat) (a1 : HoldCause) (a2 : Nat) (a3 : Bytes) : Port.Statement (.streamHold a0 a1 a2 a3) := Port.of_none rfl
theorem Port.flueMessageComplete (a0 : Nat) : Port.Statement (.flueMessageComplete a0) := Port.of_none rfl
theorem Port.drainComplete (a0 : Nat) : Port.Statement (.drainComplete a0) := Port.of_none rfl
theorem Port.runPhaseEnd (a0 : Nat) : Port.Statement (.runPhaseEnd a0) := Port.of_none rfl
theorem Port.settleTokenSend : Port.Statement (.settleTokenSend) := Port.of_none rfl
theorem Port.settleToken (a0 : EmberMsg) : Port.Statement (.settleToken a0) := Port.of_none rfl
theorem Port.digestGate : Port.Statement (.digestGate) := Port.of_none rfl
theorem Port.roundCommitComplete : Port.Statement (.roundCommitComplete) := Port.of_none rfl
theorem Port.settleTimeout : Port.Statement (.settleTimeout) := Port.of_none rfl
theorem Port.douseOriginate : Port.Statement (.douseOriginate) := Port.of_none rfl
theorem Port.douse (a0 : EmberMsg) : Port.Statement (.douse a0) := Port.of_none rfl
theorem Port.douseReady (a0 : EmberMsg) : Port.Statement (.douseReady a0) := Port.of_none rfl
theorem Port.replayRoundStart : Port.Statement (.replayRoundStart) := Port.of_none rfl
theorem Port.versionWaitTimeout : Port.Statement (.versionWaitTimeout) := Port.of_none rfl
theorem Port.routeStart (a0 : Nat) : Port.Statement (.routeStart a0) := Port.of_none rfl
theorem Port.countFrame (a0 : Frame) : Port.Statement (.countFrame a0) := Port.of_none rfl
theorem Port.grantFrame (a0 : Frame) : Port.Statement (.grantFrame a0) := Port.of_none rfl
theorem Port.dispatchVisible (a0 : Nat) (a1 : Nat) : Port.Statement (.dispatchVisible a0 a1) := Port.of_none rfl
theorem Port.returnStart (a0 : Nat) : Port.Statement (.returnStart a0) := Port.of_none rfl
theorem Port.returnVisible (a0 : Nat) (a1 : Nat) : Port.Statement (.returnVisible a0 a1) := Port.of_none rfl
theorem Port.combineStart (a0 : Nat) : Port.Statement (.combineStart a0) := Port.of_none rfl
theorem Port.routeCombineComplete (a0 : Nat) : Port.Statement (.routeCombineComplete a0) := Port.of_none rfl
theorem Port.routeTimeout (a0 : Nat) : Port.Statement (.routeTimeout a0) := Port.of_none rfl
theorem Port.maskGenerateComplete (a0 : Nat) : Port.Statement (.maskGenerateComplete a0) := Port.of_none rfl
theorem Port.collectiveStart (a0 : Nat) : Port.Statement (.collectiveStart a0) := Port.of_none rfl
theorem Port.collectiveComplete (a0 : Nat) : Port.Statement (.collectiveComplete a0) := Port.of_none rfl
theorem Port.collTimeout (a0 : Nat) (a1 : Nat) (a2 : Nat) : Port.Statement (.collTimeout a0 a1 a2) := Port.of_none rfl
theorem Port.testStart (a0 : Nat) (a1 : Nat) (a2 : Nat) : Port.Statement (.testStart a0 a1 a2) := Port.of_none rfl
theorem Port.testComplete (a0 : Nat) (a1 : TestOut) : Port.Statement (.testComplete a0 a1) := Port.of_none rfl
theorem Port.testDue (a0 : TestTarget) : Port.Statement (.testDue a0) := Port.of_none rfl
theorem Port.testOverdue (a0 : TestTarget) : Port.Statement (.testOverdue a0) := Port.of_none rfl
theorem Port.laneFail (a0 : Nat) (a1 : Nat) (a2 : Bool) : Port.Statement (.laneFail a0 a1 a2) := Port.of_none rfl
theorem Port.spareLaneRotate (a0 : Nat) : Port.Statement (.spareLaneRotate a0) := Port.of_none rfl
theorem Port.flitError (a0 : Nat) (a1 : Nat) : Port.Statement (.flitError a0 a1) := Port.of_none rfl
theorem Port.nak (a0 : Nat) (a1 : Nat) (a2 : Bool) : Port.Statement (.nak a0 a1 a2) := Port.of_none rfl
theorem Port.channelDown (a0 : Nat) (a1 : Bool) : Port.Statement (.channelDown a0 a1) := Port.of_none rfl
theorem Port.peerSilenceTimeout (a0 : Nat) (a1 : Bool) : Port.Statement (.peerSilenceTimeout a0 a1) := Port.of_none rfl
theorem Port.dataPacket (a0 : Packet) : Port.Statement (.dataPacket a0) := Port.of_none rfl
theorem Port.packetForward (a0 : Packet) : Port.Statement (.packetForward a0) := Port.of_none rfl
theorem Port.sumPacket (a0 : Packet) : Port.Statement (.sumPacket a0) := Port.of_none rfl
theorem Port.timeExchange : Port.Statement (.timeExchange) := Port.of_none rfl
theorem Port.timeFlit (a0 : Nat) (a1 : Int) (a2 : Int) (a3 : Int) (a4 : Int) : Port.Statement (.timeFlit a0 a1 a2 a3 a4) := Port.of_none rfl
theorem Port.timeUnlocked : Port.Statement (.timeUnlocked) := Port.of_none rfl
theorem Port.timebaseStep : Port.Statement (.timebaseStep) := Port.of_none rfl
theorem Port.flagInc (a0 : FlagMsg) : Port.Statement (.flagInc a0) := Port.of_none rfl
theorem Port.barrierArrive (a0 : BarrierMsg) : Port.Statement (.barrierArrive a0) := Port.of_none rfl
theorem Port.barrierRelease (a0 : BarrierMsg) (a1 : Nat) : Port.Statement (.barrierRelease a0 a1) := Port.of_none rfl
theorem Port.barrierReleaseTime : Port.Statement (.barrierReleaseTime) := Port.of_none rfl
theorem Port.report (a0 : Suspect) : Port.Statement (.report a0) := Port.of_none rfl
theorem Port.storm (a0 : Suspect) : Port.Statement (.storm a0) := Port.of_none rfl
theorem Port.reportHoldExpiry (a0 : Nat) : Port.Statement (.reportHoldExpiry a0) := Port.of_none rfl
theorem Port.hello (a0 : Nat) (a1 : Nat) : Port.Statement (.hello a0 a1) := Port.of_none rfl
theorem Port.helloTick : Port.Statement (.helloTick) := Port.of_none rfl
theorem Port.partnerLost : Port.Statement (.partnerLost) := Port.of_none rfl
theorem Port.bankOpen (a0 : Bytes) : Port.Statement (.bankOpen a0) := Port.of_none rfl
theorem Port.bankData (a0 : Nat) (a1 : Nat) (a2 : Bytes) : Port.Statement (.bankData a0 a1 a2) := Port.of_none rfl
theorem Port.seal (a0 : Nat) (a1 : Bytes) : Port.Statement (.seal a0 a1) := Port.of_none rfl
theorem Port.bankAbort (a0 : Nat) (a1 : Nat) : Port.Statement (.bankAbort a0 a1) := Port.of_none rfl
theorem Port.ack (a0 : AckStatus) (a1 : Nat) (a2 : Nat) (a3 : Nat) : Port.Statement (.ack a0 a1 a2 a3) := Port.of_none rfl
theorem Port.pull (a0 : Nat) (a1 : Nat) (a2 : Nat) : Port.Statement (.pull a0 a1 a2) := Port.of_none rfl
theorem Port.hostCopyComplete : Port.Statement (.hostCopyComplete) := Port.of_none rfl
theorem Port.standbySupplyLost : Port.Statement (.standbySupplyLost) := Port.of_none rfl
theorem Port.streamContextFault (a0 : Nat) : Port.Statement (.streamContextFault a0) := Port.of_none rfl
theorem Port.nocLinkFault (a0 : Nat) : Port.Statement (.nocLinkFault a0) := Port.of_none rfl
theorem Port.dieFault (a0 : DiePart) : Port.Statement (.dieFault a0) := Port.of_none rfl
theorem Port.bankExtentRead (a0 : Nat) : Port.Statement (.bankExtentRead a0) := Port.of_none rfl

end Sys2Proof.Laws
end

