-- ==== Sys2Proof/Tests/Slice0.lean ====
section
/-! SUPPORT. Tests: the checks of WellFormed refuse ill-formed commands; a state and operands that meet the hypotheses of
every statement, clause by clause; what a few commands do. The numbers of the last part come from the spec. -/
namespace Sys2Proof.Tests
open Sys2Proof Sys2Proof.Machine

/-! ### Small states -/

/-- A ring that runs, with one packet to fetch. -/
def ring : Port :=
  { Port.reset with cmdBase := 0x1000, replyBase := 0x2000, enable := true, running := true, producer := 1 }

/-- Region 1, readable and writable, of port 0. -/
def region : Region := ⟨.active, 0, true, true, 1, 0x10000, 2 ^ 20, 0, none⟩

/-- READY, owned by port 0, every stack ON, every core in RUN at operating point 3. -/
def ready : Mod :=
  { Mod.reset with
    ctl := { Ctl.reset with state := .ready, owner := some 0 },
    regions := [(1, region)],
    pwr := { Power.reset with
      hbmStacks := (List.range 12).map (fun k => (k, ⟨2, 1⟩)),
      cores := (List.range 8).map (fun k => (k, { CoreRec.off with ps := .run, op := 3 })) } }

/-- Both rings run; the module is what f makes of the READY one. -/
def live (f : Mod → Mod) : State := { pending := [], io := ⟨ring, ring, []⟩, m := f ready }

def inState (x : ModState) (m : Mod) : Mod := { m with ctl := { m.ctl with state := x } }
def ownedBy (x : Option Nat) (m : Mod) : Mod := { m with ctl := { m.ctl with owner := x } }

/-- A packet of port 0 without a buffer, and one whose buffer is region 1. -/
def pkt : Cmd := ⟨0, 7, 0, 0xFFFF, 0⟩
def buf : Cmd := ⟨0, 7, 0, 1, 0⟩
def ticket : Ticket := ⟨0, 7⟩

theorem starts_of {s : State} {h : Cmd}
    (e : (s.fetches h.port && (s.io.port h.port).hasRoom && h.rsv == 0 && s.m.out == Outbox.empty) = true) : s.Starts h := by
  simp only [Bool.and_eq_true, beq_iff_eq] at e
  exact ⟨e.1.1.1, e.1.1.2, e.1.2, e.2⟩

theorem accepts_of {s : State} {op : Nat}
    (e : (s.m.ctl.state.accepts op && (!waitsForPartition op || s.m.hbm.repart.isNone)) = true) : s.accepts op := by
  simp only [Bool.and_eq_true, Bool.or_eq_true, Bool.not_eq_true', Option.isNone_iff_eq_none] at e
  refine ⟨e.1, fun h => ?_⟩
  cases e.2 with
  | inl x => rw [x] at h; cases h
  | inr x => exact x

/-! ### What the statements assume can be met -/

theorem witness_StatusCommandsReply :
    (live id).Starts pkt ∧ noBuffer pkt = true ∧ (live id).accepts Op.nop
    ∧ (live id).accepts Op.statusRead ∧ (live id).accepts Op.ashStatus := by
  refine ⟨starts_of (by decide), by decide, ?_, ?_, ?_⟩ <;> exact accepts_of (by decide)

theorem witness_TableCommandsWriteBuffer :
    (live id).Starts buf
    ∧ (∀ op ∈ [Op.distanceRead, Op.pstateQuery, Op.oppointRead, Op.planReport, Op.stepStatus, Op.bankStatus,
        Op.testResultRead, Op.identityRead], (live id).accepts op)
    ∧ (7 : Byte).toNat ≤ 7 ∧ (∀ n ∈ [24944, 216, 160, 256, 64, 56784, 18304], ((live id).found buf).bufferOk buf n true = true) := by
  refine ⟨starts_of (by decide), fun op h => accepts_of ?_, by decide, by decide⟩
  revert op; decide

theorem witness_RecordCommandsWriteBuffer :
    (live id).Starts buf ∧ (live id).Starts pkt ∧ noBuffer pkt = true
    ∧ (∀ op ∈ [Op.counterRead, Op.faultLogRead, Op.ashRead, Op.railStatus, Op.regionQuery, Op.channelStatus,
        Op.identify, Op.timebaseStatus],
        (live id).accepts op)
    ∧ (0xFF00 : Half).toNat + (256 : Half).toNat ≤ 0x10000 ∧ (live id).m.ctl.owner = some buf.port
    ∧ (∀ n ∈ [16 * 256, 64 * 4096, 64 * 16384, 560, 32, 896], ((live id).found buf).bufferOk buf n true = true) := by
  refine ⟨starts_of (by decide), starts_of (by decide), by decide, fun op h => accepts_of ?_, by decide, rfl, by decide⟩
  revert op; decide

theorem witness_OwnershipChangesHands :
    (∀ s ∈ [live (ownedBy none), live id, live (fun m => { ownedBy (some 1) m with ctl := { m.ctl with owner := some 1, lapsed := true } })],
      s.Starts pkt ∧ s.accepts Op.ownerClaim ∧ s.accepts Op.ownerYield)
    ∧ (live (ownedBy none)).m.ctl.owner = none ∧ (live id).m.ctl.owner = some pkt.port
    ∧ (let m := (live (fun m => { m with ctl := { m.ctl with ownerIdleMs := 2000 } })).m
       m.ctl.owner ≠ none ∧ m.ctl.lapsed = false ∧ 2000 ≤ m.ctl.ownerIdleMs) := by
  refine ⟨fun s h => ⟨starts_of ?_, accepts_of ?_, accepts_of ?_⟩, by decide, by decide, by decide⟩ <;> (revert s; decide)

theorem witness_AttnAckClearsOneCopy : (live id).Starts pkt ∧ noBuffer pkt = true ∧ (live id).accepts Op.attnAck :=
  ⟨starts_of (by decide), by decide, accepts_of (by decide)⟩


theorem witness_RegionsRegisterAndRevoke :
    (live id).Starts pkt ∧ noBuffer pkt = true ∧ (live id).accepts Op.regionRegister ∧ (live id).accepts Op.regionRevoke
    ∧ 4095 < (4096 : Half).toNat ∧ ((1 : Dword).toNat % 4096 ≠ 0) ∧ ((live id).m.region 1).state ≠ .free
    ∧ (3 : Byte).toNat ≤ 3 ∧ regionIllegal 4095 3 (2 ^ 64 - 2 ^ 40) (2 ^ 40) = false ∧ ((live id).m.region 4095).state = .free
    ∧ ((live id).m.region 1).state = .active ∧ ((live id).m.region 1).port = pkt.port
    ∧ (∀ k ∈ [none, some ticket],
        let s := live (fun m => m.setRegion 1 { region with state := .revoking, ticket := k })
        s.m.out = Outbox.empty ∧ (s.m.region 1).state = .revoking ∧ (s.m.region 1).ticket = k) :=
  ⟨starts_of (by decide), by decide, accepts_of (by decide), accepts_of (by decide), by decide, by decide, by decide,
    by decide, by decide, by decide, by decide, by decide, by decide⟩

theorem witness_RingControl :
    let s : State := { live id with io := ⟨{ ring with enable := false, running := false }, Port.reset, []⟩ }
    s.serves 0 = true ∧ s.serves 1 = true ∧ s.io.p0.enable = false ∧ s.io.p0.basesOk = true ∧ s.io.p1.enable = false
    ∧ s.io.p1.basesOk = false ∧ s.m.out = Outbox.empty := by decide

/-- 4,096 ahead of CMD_CONSUMED is in range, 4,097 is not; REPLY_PRODUCED itself is in range, one more is not. -/
theorem witness_SerialRegisters :
    (live id).serves 1 = true ∧ ((live id).io.port 1).enable = true ∧ (live id).m.out = Outbox.empty
    ∧ (0 ≤ ((4096 : Word) - ring.consumed).toInt ∧ ((4096 : Word) - ring.consumed).toInt ≤ 4096)
    ∧ ¬ (0 ≤ ((4097 : Word) - ring.consumed).toInt ∧ ((4097 : Word) - ring.consumed).toInt ≤ 4096)
    ∧ (0 ≤ (ring.replyProduced - (0 : Word)).toInt ∧ (ring.replyProduced - (0 : Word)).toInt ≤ 4096)
    ∧ ¬ (0 ≤ (ring.replyProduced - (1 : Word)).toInt ∧ (ring.replyProduced - (1 : Word)).toInt ≤ 4096) := by decide

theorem witness_RegisterWriteStoresBases :
    (live id).serves 0 = true ∧ ((live id).io.port 0).running = true
    ∧ ({ live id with io := ⟨Port.reset, ring, []⟩ } : State).serves 0 = true ∧ Port.reset.running = false := by decide

theorem witness_ModuleResetClears :
    (live id).Starts pkt ∧ noBuffer pkt = true ∧ (live id).accepts Op.moduleReset ∧ (live id).m.ctl.owner = some pkt.port
    ∧ (let s := live (fun m => { m with ctl := { m.ctl with restart := some .reset } })
       s.m.out = Outbox.empty ∧ s.m.ctl.restart = some .reset) :=
  ⟨starts_of (by decide), by decide, accepts_of (by decide), rfl, by decide⟩

theorem witness_HearthControllerRestarts :
    (live id).m.out = Outbox.empty ∧ (live id).m.ctl.state ≠ .off ∧ (live id).m.ctl.restart = none
    ∧ ∀ r ∈ [Restart.lockstep, Restart.activate],
        let s := live (fun m => { m with ctl := { m.ctl with restart := some r } })
        s.m.out = Outbox.empty ∧ s.m.ctl.restart = some r := by decide

theorem witness_LinkEventsEndAPort : (live id).m.out = Outbox.empty ∧ (live id).m.ctl.state ≠ .off ∧ 1 < 2 := by decide

theorem witness_SpdmSessionsAndKeys :
    let s := live (fun m => m.setLink 1 (fun l => { l with session := some 5, progKey := some 6 }))
    s.m.out = Outbox.empty ∧ s.m.ctl.state ≠ .off ∧ s.m.side.scopes = 0 ∧ (s.m.link 1).session = some 5
    ∧ (s.m.link 1).progKey = some 6 := by decide

theorem witness_SidebandAddressesAndReads : State.reset.m.ctl.state ≠ .off := by decide

theorem witness_SidebandCommandReplies :
    let s := live id
    let status : Bytes := [2, 0, 0, 0, 7, 0, 0, 0] ++ zeros 46 ++ [0xFF, 0xFF] ++ zeros 8
    let nop : Bytes := zeros 54 ++ [0xFF, 0xFF] ++ zeros 8
    s.m.out = Outbox.empty ∧ s.m.ctl.state ≠ .off ∧ s.m.ctl.restart = none ∧ packetRsv nop = 0 ∧ packetRsv status = 0
    ∧ noBuffer (sideCmd nop) = true ∧ noBuffer (sideCmd status) = true ∧ fieldAt nop 0 2 = Op.nop
    ∧ fieldAt status 0 2 = Op.statusRead := by decide

theorem witness_BenchReadsAsh :
    (0x3FFFFFF : Word).toNat < 2 ^ 26 ∧ (live (inState .off)).m.ctl.state = .off ∧ (live id).m.ctl.state ≠ .off := by decide

theorem witness_TripsOpenTheRails :
    let s := live (fun m => m.setGuard (fun g => { g with coolOk := false }))
    s.m.railsUp = true ∧ s.m.pwr.guard.causes = [] ∧ s.m.pwr.guard.coolOk = false := by decide

theorem witness_TripInStandbyIsRecorded :
    State.reset.m.out = Outbox.empty ∧ State.reset.m.ctl.state = .standby ∧ State.reset.m.pwr.guard.causes = [] := by decide

theorem witness_WarningsAreRecorded :
    let s := live (fun m => m.setGuard (fun g => { g with coolOk := false }))
    s.m.out = Outbox.empty ∧ s.m.railsUp = true ∧ s.m.ctl.state ≠ .off ∧ s.m.pwr.guard.coolOk = false ∧ 99 < 100 := by decide

theorem witness_PowerComesAndGoes :
    (live id).m.out = Outbox.empty ∧ (live id).m.ctl.state ≠ .off
    ∧ (let s := live (fun m => { inState .off m with fw := { m.fw with slotA := ⟨true, 0, 3, 1, [], []⟩, fuses := 3 } })
       s.m.out = Outbox.empty ∧ s.m.ctl.state = .off ∧ 5200 ≤ 5200 ∧ s.m.pwr.guard.present = true ∧ s.m.fw.boot.isSome = true)
    ∧ (live (fun m => m.setGuard (fun g => { g with present := false }))).m.pwr.guard.present = false
    ∧ Trip.leak ≠ .switch := by decide

theorem witness_RegulatorPhasesAndCoreRails :
    let s := live (fun m => { m with pwr := { m.pwr with groups := [(15, ⟨0x0F, 0⟩)] } })
    s.m.out = Outbox.empty ∧ s.m.railsUp = true ∧ bit (s.m.group 23).mask 5 = true ∧ healthyPhases (s.m.group 15).mask ≤ 4
    ∧ s.m.rail (15 / 2) ≠ 3 ∧ s.m.tests.margin = none := by decide

def cold (n : Nat) : State :=
  live (fun m =>
    { inState .kindling m with pwr := { m.pwr with cold := some ⟨ticket, n⟩, guard := { m.pwr.guard with selfTestOk := true } } })

theorem witness_ColdStartGoesStageByStage :
    (∀ n ∈ [0, 1, 2, 3, 4, 5, 6], (cold n).m.out = Outbox.empty ∧ (cold n).m.pwr.cold = some ⟨ticket, n⟩)
    ∧ (cold 0).m.pwr.guard.selfTestOk = true ∧ (cold 0).m.bank.upd = none := by decide

theorem witness_PowerStatesChange :
    (∀ s ∈ [live (inState .standby), live id], s.Starts pkt ∧ s.accepts Op.pstateSet ∧ s.m.ctl.owner = some pkt.port
        ∧ s.m.ctl.refLost = false)
    ∧ noBuffer pkt = true
    ∧ (let s := live (inState .standby)
       pstateLegal 4 0 1 0 = true ∧ s.m.changing 4 0 = false ∧ s.m.ctl.state = .standby ∧ s.m.pwr.guard.coolOk = true
       ∧ s.m.pwr.guard.lockout = false)
    ∧ (let s := live id
       pstateLegal 0 7 2 0 = true ∧ s.m.changing 0 7 = false ∧ s.m.coreMayGo 7 2 0 = true ∧ s.m.ctl.state = .ready
       ∧ s.m.pstateSame 0 7 2 0 = false)
    ∧ (let s := live id
       pstateLegal 1 11 2 0 = true ∧ s.m.changing 1 11 = false ∧ s.m.pstateSame 1 11 2 0 = true
       ∧ s.m.targetMayGo pkt.port 1 11 2 = true ∧ s.m.bankRuns = false ∧ s.m.streamBusy = false)
    ∧ (let s := live id
       pstateLegal 0 7 3 3 = true ∧ s.m.changing 0 7 = false ∧ s.m.pstateSame 0 7 3 3 = true ∧ s.m.coreMayGo 7 3 3 = true)
    ∧ (let c : Change := ⟨0, 7, 2, 0, ticket, true⟩
       let s := live (fun m => { m with pwr := { m.pwr with changes := [c] } })
       s.m.out = Outbox.empty ∧ s.m.pwr.changes.find? (fun c => c.kind == 0 && c.index == 7 && c.applied) = some c) := by
  refine ⟨fun s h => ⟨starts_of ?_, accepts_of ?_, ?_, ?_⟩, ?_⟩
  · revert s; decide
  · revert s; decide
  · revert s; decide
  · revert s; decide
  · decide

def chan (x : ChanSt) (m : Mod) : Mod :=
  { m with fab := { m.fab with chans := [(27, { Chan.off with powered := true, st := x })] } }

theorem witness_TrainingAndClocks :
    (let s := cold 4
     s.m.out = Outbox.empty ∧ s.m.pwr.cold = some ⟨ticket, 4⟩ ∧ 11 < 12 ∧ s.m.bank.upd = none)
    ∧ (let s := live (chan .training)
       s.m.out = Outbox.empty ∧ 27 < 28 ∧ (s.m.chan 27).powered = true ∧ (s.m.chan 27).st = .training
       ∧ s.m.ctl.refLost = false ∧ s.m.ctl.state = .ready ∧ s.powered = true ∧ s.m.railsUp = true)
    ∧ (live (fun m => { m with ctl := { m.ctl with refLost := true } })).m.ctl.refLost = true := by decide

def coreIs (k : Nat) (f : CoreRec → CoreRec) (m : Mod) : Mod := m.setCore k f

theorem witness_KindlingModeAndDiagnostics :
    (let s := live (coreIs 7 (fun r => { r with ps := .idle }))
     s.Starts pkt ∧ s.m.ctl.owner = some pkt.port ∧ s.m.ctl.refLost = false ∧ noBuffer pkt = true
     ∧ s.accepts Op.kindlingEnter ∧ (s.m.core 7).ps ≠ .off ∧ (s.m.core 7).ps ≠ .gated ∧ (s.m.core 7).kindling = false
     ∧ (s.m.core 7).kindleWait = none ∧ s.m.noRelief 7 = false ∧ s.m.corePending 7 = false ∧ s.m.plan.st ≠ .running)
    ∧ (let s := live (fun m => { coreIs 7 (fun r => { r with ps := .idle }) (inState .running m) with
         plan := { m.plan with st := .running } })
       s.Starts pkt ∧ s.accepts Op.kindlingEnter ∧ s.m.noRelief 7 = false ∧ s.m.corePending 7 = false
       ∧ s.m.plan.st = .running)
    ∧ (let s := live (coreIs 7 (fun r => { r with ps := .idle, kindling := true }))
       s.Starts buf ∧ s.accepts Op.kindlingExit ∧ s.accepts Op.diagRun ∧ (s.m.core 7).kindling = true
       ∧ s.m.pwr.diags.any (fun d => d.core == 7) = false ∧ unitReserved 0xE000 = false ∧ unitIllegal 0xE000 = false
       ∧ unitCore 0xE000 = 7 ∧ (s.found buf).bufferOk buf (16 + 16 * (diagUnits 0xE000).length) true = true)
    ∧ (let s := live (coreIs 7 (fun r => { r with kindleDone := some ticket }))
       s.m.out = Outbox.empty ∧ (s.m.core 7).kindleDone = some ticket)
    ∧ (let d : Diag := ⟨7, 2, 0xE000, ticket, 1, 0, []⟩
       let s := live (fun m => { m with pwr := { m.pwr with diags := [d] } })
       s.m.out = Outbox.empty ∧ s.m.pwr.diags.find? (fun d => d.core == 7) = some d) := by
  refine ⟨⟨starts_of (by decide), by decide, by decide, by decide, accepts_of (by decide), ?_⟩,
    ⟨starts_of (by decide), accepts_of (by decide), ?_⟩, ⟨starts_of (by decide), accepts_of (by decide), accepts_of (by decide), ?_⟩, ?_, ?_⟩ <;> decide

theorem witness_FirmwareQuotesAndNotes :
    (let s := live (fun m => m)
     s.Starts buf ∧ s.Starts pkt ∧ noBuffer pkt = true ∧ s.m.ctl.owner = some pkt.port ∧ s.accepts Op.fwStage
     ∧ s.accepts Op.attestQuote ∧ s.accepts Op.ashNote
     ∧ s.m.fw.staging = none ∧ s.m.fw.quote = none ∧ s.m.side.scopes = 0 ∧ (s.found buf).bufferOk buf (fwLength []) false = true
     ∧ (s.found buf).bufferOk buf 1728 true = true ∧ s.m.ash.noteAt pkt.port ≠ some s.m.ctl.powerOnMs)
    ∧ (let s := live (fun m => { inState .standby m with fw := { m.fw with slotB := ⟨true, 0, 5, 1, [], []⟩, staged := true, fuses := 4 } })
       s.Starts pkt ∧ s.accepts Op.fwActivate ∧ s.m.fw.staged = true ∧ s.m.ctl.state = .standby ∧ s.m.side.scopes = 0
       ∧ s.m.fw.staging = none ∧ s.m.bankBusy = false ∧ s.m.fw.other.judge s.m.fw.fuses = (Cls.ok, Detail.none)
       ∧ s.m.fw.other.security ≤ max s.m.fw.fuses 5)
    ∧ (let s := live (fun m => { m with fw := { m.fw with staging := some ticket, quote := some ⟨ticket, 1, 2 ^ 20 - 1728, []⟩ } })
       s.m.out = Outbox.empty ∧ s.m.fw.staging = some ticket ∧ s.m.fw.quote = some ⟨ticket, 1, 2 ^ 20 - 1728, []⟩
       ∧ s.m.regionCovers 0 1 (2 ^ 20 - 1728) 1728 true = true ∧ s.powered = true) := by
  refine ⟨⟨starts_of (by decide), starts_of (by decide), by decide, by decide, accepts_of (by decide), accepts_of (by decide),
    accepts_of (by decide), ?_⟩, ⟨starts_of (by decide), accepts_of (by decide), ?_⟩, ?_⟩ <;> decide

/-- A copy of four-byte elements from region 1 to HBM, at home on core 0. -/
def copyDesc : StreamDesc :=
  { StreamDesc.none with
    esize := 8, srcBase := hostAddr 1 0, dstBase := 2 ^ 36, extent := [4, 1, 1, 1, 1, 1], srcStride := [1, 0, 0, 0, 0, 0],
    dstStride := [1, 0, 0, 0, 0, 0] }

theorem witness_HostErrorsEndReaders :
    let r : Relight := ⟨ticket, 1, 0, 0, 0, 1, 1, [], 0⟩
    let c : Ctx := Ctx.fresh .command .active 0xFFFFFFFF 0 copyDesc
    let s := live (fun m => { m with
      plan := { m.plan with loading := some ticket }, fw := { m.fw with staging := some ticket },
      tests := { m.tests with install := some (ticket, []) }, bank := { m.bank with relight := some r }, ctxs := [(480, some c)] })
    s.m.out = Outbox.empty ∧ s.m.plan.loading = some ticket ∧ s.m.fw.staging = some ticket
    ∧ s.m.tests.install = some (ticket, []) ∧ s.m.bank.relight = some r ∧ r.source = 1 ∧ s.m.ctx 480 = some c
    ∧ c.st = .active ∧ c.desc.srcHost = true ∧ c.cause = 0 := by decide

theorem witness_PartitionsAndPoison :
    (let s := live id
     s.Starts pkt ∧ s.m.ctl.owner = some pkt.port ∧ s.accepts Op.hbmPartition ∧ noBuffer pkt = true
     ∧ 4 + 64 + 384 ≤ 3 * 192 ∧ s.m.ctl.state = .ready ∧ s.m.noPlan = true ∧ s.m.ctl.refLost = false
     ∧ s.m.stacksOn = true ∧ s.m.bankRuns = false ∧ s.m.streamBusy = false ∧ s.m.out = Outbox.empty ∧ hbmEnd - 1 < hbmEnd
     ∧ s.m.dataPlane = true ∧ (s.m.stack (s.m.hbm.decode (hbmEnd - 1)).1).ps = 2
     ∧ SMap.get [] s.m.hbm.poison ((hbmEnd - 1) / 64 * 64) = []
     ∧ (List.range 8).any (fun c => decide (poolBase c ≤ hbmEnd) && decide (hbmEnd < poolBase c + poolSize)) = false)
    ∧ (live (fun m => { m with hbm := { m.hbm with repart := some ticket } })).m.hbm.repart = some ticket
    ∧ (let s := live (fun m => { m with run := { m.run with phase := .run, ents := [(3, { Ent.free with st := .running })] } })
       s.m.out = Outbox.empty ∧ s.m.dataPlane = true ∧ (s.m.stack (s.m.hbm.decode 0).1).ps = 2 ∧ s.m.run.phase = .run
       ∧ (s.m.ent 3).st = .running ∧ s.m.run.mark = none) := by
  refine ⟨⟨starts_of (by decide), by decide, accepts_of (by decide), ?_⟩, ?_, ?_⟩ <;> decide

theorem witness_PlanLoadJudgesTheImage :
    (let s := live id
     s.Starts buf ∧ s.accepts Op.planLoad ∧ s.m.ctl.owner = some buf.port ∧ s.m.ctl.state = .ready ∧ s.m.plan.st = .none
     ∧ s.m.ctl.refLost = false ∧ (s.found buf).bufferOk buf (s.m.imageLength (zeros 0x0E ++ [0x10])) false = true)
    ∧ (let s := live (fun m => { m with plan := { m.plan with st := .loading, loading := some ticket } })
       s.m.out = Outbox.empty ∧ s.m.plan.loading = some ticket
       ∧ imgSize s.m.fresh.plan.header ≤ s.m.fresh.hbm.planArea.hi - s.m.fresh.hbm.planArea.lo) := by
  refine ⟨⟨starts_of (by decide), accepts_of (by decide), ?_⟩, ?_⟩ <;> decide

/-! A plan of one round, whose fields a state sets as it needs. -/

def hdr : RoundHdr :=
  { roundNo := 0, stepEnd := true, fabric := false, barrierFlag := false, stepGate := false, budgetNs := 1000, firstEntry := 0,
    itemCount := 0, firstGroup := 0, groupCount := 0, openBarrier := 0xFFFF, settleSet := 0xFFFF, slotTable := 0xFFFF,
    streamCount := 0, firstStream := 0, firstRoute := 0xFFFFFFFF, firstCollective := 0xFFFFFFFF, updateRef := 0xFFFFFFFF,
    testWindow := 0xFFFFFFFF }

def plan : Plan :=
  { planId := 9, seed := 0, opPoint := 3, bodyStart := 0, itilakar := 1, imageSize := 4096, rounds := [hdr], woodpile := [],
    combines := [], barriers := [], items := [], tensors := [], streams := [], sets := [], slots := [], detours := [],
    routes := [], colls := [], updates := [], tests := [] }

def withPlan (st : PlanSt) (p : Plan) (m : Mod) : Mod := { m with plan := { m.plan with st := st, plan := some p } }

/-- RUNNING with the plan's round in a phase. -/
def inRound (ph : Phase) (p : Plan) (m : Mod) : Mod :=
  { withPlan .running p (inState .running m) with run := { m.run with phase := ph } }

theorem witness_PlansStartHaltAndUnload :
    (let s := live (withPlan .loaded plan)
     s.Starts pkt ∧ s.m.ctl.owner = some pkt.port ∧ noBuffer pkt = true ∧ s.accepts Op.planStart ∧ s.accepts Op.planUnload
     ∧ s.m.ctl.state = .ready ∧ s.m.plan.st = .loaded
     ∧ s.m.cannotRun = false ∧ s.m.bank.relightFailed = false ∧ s.m.usesFabric = false ∧ s.m.bank.relight = none
     ∧ s.m.planMetByStream = false ∧ s.m.fab.early = [] ∧ s.m.fab.flagWait = [])
    ∧ (let s := live (fun m => withPlan .halted plan (inState .halted m))
       s.Starts pkt ∧ s.accepts Op.planResume ∧ s.m.ctl.state = .halted ∧ s.m.plan.st = .halted ∧ s.m.cannotRun = false
       ∧ s.m.planMetByStream = false ∧ s.m.hdr.isSome = true ∧ s.m.plan.halts = [])
    ∧ (let s := live (inRound .run plan)
       s.Starts pkt ∧ s.accepts Op.planHalt ∧ s.m.ctl.state = .running ∧ s.m.run.phase = .run ∧ s.m.lateWait = false)
    ∧ (let s := live (inRound .waiting plan)
       s.Starts pkt ∧ s.accepts Op.planHalt ∧ s.m.ctl.state = .running ∧ s.m.run.phase = .waiting)
    ∧ (live (fun m => { m with plan := { m.plan with unload := some ticket } })).m.plan.unload = some ticket := by
  refine ⟨⟨starts_of (by decide), by decide, by decide, accepts_of (by decide), accepts_of (by decide), ?_⟩,
    ⟨starts_of (by decide), accepts_of (by decide), ?_⟩, ⟨starts_of (by decide), accepts_of (by decide), ?_⟩,
    ⟨starts_of (by decide), accepts_of (by decide), ?_⟩, ?_⟩ <;> decide

/-- The bytes of copyDesc (spec 06, R175). -/
def copyBytes : Bytes :=
  zeros 6 ++ [0, 0x60] ++ leBytes 8 (hostAddr 1 0) ++ leBytes 8 (2 ^ 36) ++ [0xFF, 0xFF, 0xFF, 0xFF] ++ zeros 4
    ++ leBytes 4 4 ++ ((List.range 5).map (fun _ => leBytes 4 1)).flatten
    ++ leBytes 5 1 ++ zeros 25 ++ leBytes 5 1 ++ zeros 25 ++ zeros 4 ++ [0xFF, 0xFF, 0xFF, 0xFF, 0xFF, 0xFF, 0xFF, 0xFF]

def context (x : CtxSt) : Ctx := { Ctx.fresh .command x 0xFFFFFFFF 0 copyDesc with ticket := some ticket }
def hasCtx (c : Ctx) (m : Mod) : Mod := { m with ctxs := [(480, some c)] }

theorem witness_CommandStreams :
    (let s := live id
     s.Starts buf ∧ s.accepts Op.streamCreate ∧ s.m.ctl.refLost = false ∧ (s.found buf).bufferOk buf 128 false = true
     ∧ fitBytes 128 copyBytes = copyBytes ∧ parseStream copyBytes = copyDesc ∧ streamWordsBad copyBytes = false
     ∧ s.m.commandSub copyDesc = 0 ∧ (s.m.cmdCtxs 0).head? = some 480)
    ∧ (let s := live (hasCtx (context .idle))
       s.Starts pkt ∧ s.accepts Op.streamArm ∧ s.accepts Op.streamRetire ∧ noBuffer pkt = true
       ∧ s.m.ctx 480 = some (context .idle) ∧ (context .idle).use = .command ∧ (context .idle).port = pkt.port
       ∧ s.m.commandSub { copyDesc with dstBase := 2 ^ 37 } = 0 ∧ s.m.keptOut { copyDesc with dstBase := 2 ^ 37 } = false)
    ∧ (let s := live (hasCtx { context .held with cause := 2, region := 1, reading := true })
       s.Starts pkt ∧ s.accepts Op.streamResume ∧ s.m.ctx 480 = some { context .held with cause := 2, region := 1, reading := true }
       ∧ s.m.resumable { context .held with cause := 2, region := 1, reading := true } = true)
    ∧ (let s := live (hasCtx (context .active))
       let c := context .active
       s.m.out = Outbox.empty ∧ s.m.ctx 480 = some c ∧ c.cause = 0 ∧ s.m.dataPlane = true
       ∧ c.desc.dataFits none c.resume c.desc.positions (zeros 16) = true
       ∧ s.m.settledOk c c.resume c.desc.positions = true ∧ c.ticket = some ticket) := by
  refine ⟨⟨starts_of (by decide), accepts_of (by decide), ?_⟩, ⟨starts_of (by decide), accepts_of (by decide),
    accepts_of (by decide), ?_⟩, ⟨starts_of (by decide), accepts_of (by decide), ?_⟩, ?_⟩ <;> decide +kernel

/-- A record of 16 FP32 elements in one row. -/
def tensor (cls : PClass) (id base : Nat) : Alloc :=
  ⟨cls, .hbmWide, 1, id, base, 0, 0, 0, 0, [16, 1, 1, 1, 1, 1], [64, 64, 64, 64, 64], 0, 0⟩

def vsetPlan : Plan :=
  { plan with tensors := [.alloc (tensor .version 5 0x100000), .alloc (tensor .version 6 0x101000)],
              updates := [.vset ⟨2, 0, 1, 0⟩, .group ⟨255, 0, 0, 0, 0, 0⟩] }

theorem witness_StepsGroupsAndExports :
    (let s := live (withPlan .loaded vsetPlan)
     s.Starts buf ∧ s.Starts pkt ∧ s.accepts Op.stepBegin ∧ s.accepts Op.groupSet ∧ s.accepts Op.snapshotExport
     ∧ s.m.holdsPlan = true ∧ s.m.ctl.owner = some pkt.port ∧ noBuffer pkt = true ∧ stepValueOk 0x7F7FFFFF = true
     ∧ stepValueOk 0 = true ∧ s.m.hasBody = true ∧ s.m.step.admissions.length < 2 ∧ s.m.run.phase ≠ .waiting
     ∧ vsetPlan.hasGroup 255 = true ∧ s.m.exportBad buf 0 0 = false ∧ s.m.ctl.refLost = false
     ∧ s.m.oldestExport 0 = none ∧ (s.m.exportEntry 0).isSome = true ∧ (s.m.cmdCtxs 0).head? = some 480)
    ∧ (let c : Ctx := Ctx.fresh .snapshot .active 0xFFFFFFFF 0 (exportDesc 0 0x100000 64 (hostAddr 1 0))
       let x : Export := ⟨480, 0, 0, false, [], ticket⟩
       let s := live (fun m => { hasCtx c m with step := { m.step with exports := [x] } })
       s.m.out = Outbox.empty ∧ s.m.ctx 480 = some c ∧ s.m.step.exports.find? (fun x => x.handle == 480) = some x
       ∧ c.cause = 0 ∧ s.m.dataPlane = true ∧ s.m.settledOk c c.resume c.desc.positions = true ∧ x.partner = false
       ∧ s.m.run.phase ≠ .waiting) := by
  refine ⟨⟨starts_of (by decide), starts_of (by decide), accepts_of (by decide), accepts_of (by decide), accepts_of (by decide), ?_⟩, ?_⟩
  all_goals decide

/-- Regions 1 of port 0 and 2 of port 1; a bank region of 64 GiB; slot 1 holds a sealed image of member 3, step 8. -/
def banked (m : Mod) : Mod :=
  { m with regions := [(1, region), (2, { region with port := 1 })], hbm := { m.hbm with bankGib := 64 },
           bank := { m.bank with held1 := ⟨3, 2, 8, 1, 4096, 9⟩ } }

theorem witness_BankCommands :
    (let s := live banked
     s.Starts pkt ∧ s.m.ctl.owner = some pkt.port ∧ s.m.ctl.refLost = false ∧ s.accepts Op.bankConfigure
     ∧ noBuffer pkt = true ∧ 64 ≤ s.m.hbm.bankGib ∧ s.m.pairLegal true 1 2 = true ∧ s.m.pairLegal false 0xFFFF 0xFFFF = true
     ∧ s.m.ctl.state = .ready ∧ s.m.bankBusy = false)
    ∧ (let s := live (fun m => banked (inRound .run plan m))
       s.Starts pkt ∧ s.accepts Op.bankNow ∧ (3 : Byte).toNat ≤ 3 ∧ s.m.plan.st = .running ∧ s.m.bank.upd = none
       ∧ s.m.bank.now = none)
    ∧ (let s := live (fun m => banked (withPlan .loaded plan m))
       s.Starts pkt ∧ s.Starts buf ∧ s.accepts Op.relight ∧ s.accepts Op.bankServe ∧ s.m.ctl.state = .ready
       ∧ s.m.plan.st = .loaded ∧ s.m.relightBad 0 2047 2047 0xFFFF 0xFFFF = false ∧ s.m.relightBad 1 2047 0xFFFF 1 2 = false
       ∧ s.m.bank.relight = none ∧ s.m.ownTransfer = false
       ∧ s.m.serveBad pkt 3 8 2047 = false ∧ s.m.serveBad buf 3 8 0xFFFF = false ∧ s.m.bank.serving = false
       ∧ (s.m.servedImage 3 8 2047).isSome = true ∧ (s.m.servedImage 3 8 0xFFFF).isSome = true) := by
  refine ⟨⟨starts_of (by decide), by decide, by decide, accepts_of (by decide), ?_⟩, ⟨starts_of (by decide), accepts_of (by decide), ?_⟩,
    ⟨starts_of (by decide), starts_of (by decide), accepts_of (by decide), accepts_of (by decide), ?_⟩⟩ <;> decide

theorem witness_BankTransfersEnd :
    (let r : Relight := ⟨ticket, 0, 0, 3, 4, 0xFFFF, 0xFFFF, zeros 0x20 ++ leBytes 8 64 ++ zeros 24, 64⟩
     let s := live (fun m => { m with bank := { m.bank with relight := some r } })
     s.m.out = Outbox.empty ∧ s.m.bank.relight = some r ∧ s.m.dataPlane = true ∧ r.source = 0 ∧ r.headIn = true
     ∧ fieldAt r.image 0x20 8 ≤ r.got ∧ fieldAt r.image 0x20 8 ≤ r.image.length)
    ∧ (let x : Serve := ⟨ticket, 3, 8, 2047, 0xFFFF, 0, true⟩
       let s := live (fun m => { banked m with bank := { (banked m).bank with serves := [x, { x with active := false }] } })
       s.m.out = Outbox.empty ∧ s.m.dataPlane = true ∧ s.m.bank.pulled = none ∧ s.m.bank.serves.find? (fun x => x.active) = some x
       ∧ x.target ≠ 0xFFFF ∧ s.m.poisoned (s.m.serveSpan x).1 (s.m.serveSpan x).2 = false
       ∧ s.m.bank.serves.find? (fun x => !x.active) = some { x with active := false }) := by decide

theorem witness_FieldTestCommands :
    (let s := live id
     s.Starts pkt ∧ s.Starts buf ∧ s.accepts Op.testWindowForce ∧ s.accepts Op.marginTestRun ∧ s.accepts Op.patternInstall
     ∧ s.accepts Op.digestPolicySet
     ∧ s.m.ctl.owner = some pkt.port ∧ noBuffer pkt = true ∧ s.m.noForce 7 = false ∧ s.m.noRelief 7 = false
     ∧ (s.found buf).bufferOk buf (patLength []) false = true ∧ s.m.tests.install = none ∧ (1024 : Half).toNat ≤ 1024
     ∧ s.m.plan.st ≠ .running)
    ∧ (let s := live (inRound .run plan)
       s.Starts pkt ∧ s.accepts Op.testWindowForce ∧ s.accepts Op.marginTestRun ∧ s.m.noForce 7 = false ∧ s.m.noRelief 7 = false
       ∧ s.m.plan.st = .running)
    ∧ (let c : CoreTest := ⟨7, ticket, true, false⟩
       let s := live (fun m => { m with tests := { m.tests with forced := some c, margin := some c, install := some (ticket, []) } })
       s.m.out = Outbox.empty ∧ s.m.tests.forced = some c ∧ s.m.tests.margin = some c ∧ c.core = 7 ∧ c.begun = true
       ∧ s.m.tests.install = some (ticket, [])) := by
  refine ⟨⟨starts_of (by decide), starts_of (by decide), accepts_of (by decide), accepts_of (by decide), accepts_of (by decide),
    accepts_of (by decide), ?_⟩, ⟨starts_of (by decide), accepts_of (by decide), accepts_of (by decide), ?_⟩, ?_⟩ <;> decide

/-- Tile 16 of cluster 17 of core 0; the word of core 7. -/
theorem witness_UnitsAndChannelsByCommand :
    (∀ u ∈ [tileWord 0 17 16, coreWord 7],
        unitReserved u = false ∧ unitIllegal u = false ∧ (ready.unit u).draining = none ∧ (ready.unit u).isClinker = false
        ∧ (ready.unit u).disabled = false ∧ ready.otherWithdrawn (unitCore u) = false ∧ (ready.unit u).testing = none)
    ∧ (∀ s ∈ [live id, live (inRound .run plan)], s.Starts pkt ∧ s.accepts Op.unitDisable ∧ s.m.ctl.owner = some pkt.port)
    ∧ noBuffer pkt = true ∧ (live id).m.plan.st ≠ .running ∧ (live (inRound .run plan)).m.plan.st = .running
    ∧ (let u := tileWord 0 17 16
       let d := live (fun m => m.setUnit u (fun r => { r with disabled := true }))
       let c := live (fun m => m.setUnit u (fun r => { r with clinker := true }))
       d.Starts pkt ∧ d.accepts Op.unitEnable ∧ (d.m.unit u).draining = none ∧ (d.m.unit u).testing = none
       ∧ (d.m.unit u).disabled = true ∧ c.Starts pkt ∧ c.accepts Op.unitEnable ∧ (c.m.unit u).draining = none
       ∧ (c.m.unit u).testing = none ∧ (c.m.unit u).disabled = false ∧ (c.m.unit u).isClinker = true)
    ∧ (let s := live (chan .disabled)
       s.Starts pkt ∧ s.accepts Op.fabricConfigure ∧ s.accepts Op.channelDisable ∧ timeRoleOk 0x15 = true ∧ timeRoleOk 0xFF = true
       ∧ reportWordOk 2047 = true ∧ reportWordOk 0xFFFF = true ∧ 5 ≤ (5 : Half).toNat ∧ (1000 : Half).toNat ≤ 1000
       ∧ s.m.ctl.state = .ready ∧ (27 : Byte).toNat < 28 ∧ (s.m.chan 27).st = .disabled)
    ∧ (let u := tileWord 0 17 16
       let s := live (fun m => m.setUnit u (fun r => { r with draining := some ticket, testing := some ticket }))
       s.m.out = Outbox.empty ∧ (s.m.unit u).draining = some ticket ∧ s.m.unitOpen u = false ∧ (s.m.unit u).testing = some ticket) := by
  refine ⟨by decide, fun s h => ⟨starts_of ?_, accepts_of ?_, ?_⟩, by decide, by decide, by decide,
    ⟨starts_of (by decide), accepts_of (by decide), by decide, by decide, by decide, starts_of (by decide), accepts_of (by decide), ?_⟩,
    ⟨starts_of (by decide), accepts_of (by decide), accepts_of (by decide), ?_⟩, ?_⟩
  · revert s; decide
  · revert s; decide
  · revert s; decide
  all_goals decide

/-! The position straps are a constant that no proof can see: the tray neighbour in role 0 stands for another member. -/

def peer : Nat := Config.position / 8 * 8 + (Config.position % 8 + 1) % 8

theorem position_lt : Config.position < 2048 := Config.straps.isLt

theorem peer_ne : peer ≠ Config.position := by unfold peer; omega

theorem firstHops_peer : firstHops peer = [0, 1] := by
  have h : hopRole peer = some 0 := by
    have := position_lt
    have h1 : (peer / 64 + 32 - Config.position / 64 % 32) % 32 = 0 := by unfold peer; omega
    have h2 : (peer / 8 % 8 + 8 - Config.position / 8 % 8) % 8 = 0 := by unfold peer; omega
    have h3 : (peer % 8 + 8 - Config.position % 8) % 8 = 1 := by unfold peer; omega
    unfold hopRole
    dsimp only
    rw [h1, h2, h3]
    rfl
  unfold firstHops
  rw [h]

/-- A settle set of this module and its neighbour. -/
def pair : SettleSet := ⟨true, false, false, 100, 0, 0, [Config.position, peer]⟩

theorem others_pair {m : Mod} (h : m.set = some pair) : m.others = [peer] := by
  unfold Mod.others
  rw [h]
  simp [pair, peer_ne]

/-- A plan of one round, whose header f gives. -/
def planOf (f : RoundHdr → RoundHdr) : Plan := { plan with rounds := [f hdr] }

/-- A plan whose round settles with the neighbour. -/
def pairPlan : Plan := { planOf (fun r => { r with settleSet := 0 }) with sets := [pair] }

def upd : UpdDesc := ⟨.sgdm, true, false, 255, 0, 0, 0, 0, 0, 0, 0, 0, 16, 1, 1, 16, 16⟩

/-- A round that updates a set of two slots. -/
def updPlan : Plan :=
  { vsetPlan with rounds := [{ hdr with updateRef := 2 }], updates := vsetPlan.updates ++ [.update upd] }

def runIs (f : Run → Run) (m : Mod) : Mod := { m with run := f m.run }
def planIs (f : PlanCtl → PlanCtl) (m : Mod) : Mod := { m with plan := f m.plan }

def barrierPlan : Plan :=
  { planOf (fun r => { r with barrierFlag := true, openBarrier := 0 }) with
    barriers := [⟨true, 0, 100⟩], slots := [.members [Config.position, peer]] }

/-- A barrier message of the round that opens next. -/
def arrival (b : Nat) : BarrierMsg := ⟨peer, b, 1, 1, 9⟩

theorem witness_RoundsOpenAtTheirBarriers :
    (∀ s ∈ [live (inRound .waiting plan), live (inRound .waiting (planOf (fun r => { r with fabric := true }))),
        live (fun m => planIs (fun p => { p with halts := [ticket] }) (inRound .waiting plan m)), live (inRound .barrier barrierPlan)],
      s.m.out = Outbox.empty ∧ s.m.ctl.state = .running ∧ s.m.ctl.refLost = false ∧ s.m.fab.early = [] ∧ s.m.fab.flagWait = [])
    ∧ (let s := live (inRound .waiting plan)
       s.m.run.phase = .waiting ∧ s.m.hdr = some hdr ∧ s.m.plan.halts = [] ∧ s.m.gateShut = false ∧ s.m.openWaits = []
       ∧ hdr.barrierFlag = false ∧ s.m.plan.reopen = false)
    ∧ (let s := live (inRound .waiting (planOf (fun r => { r with fabric := true })))
       s.m.run.phase = .waiting ∧ s.m.hdr.isSome = true ∧ s.m.gateShut = false ∧ s.m.openWaits ≠ [])
    ∧ (live (fun m => planIs (fun p => { p with halts := [ticket] }) (inRound .waiting plan m))).m.plan.halts ≠ []
    ∧ (let x : Export := ⟨480, 0, 1, false, [], ticket⟩
       let s := live (fun m => { inRound .waiting updPlan m with step := { m.step with exports := [x] } })
       s.m.run.phase = .waiting ∧ s.m.hdr = some { hdr with updateRef := 2 } ∧ s.m.plan.halts = [] ∧ 3 ∈ s.m.openWaits
       ∧ s.m.plan.plan = some updPlan ∧ updPlan.updSet { hdr with updateRef := 2 } = some (0, ⟨2, 0, 1, 0⟩)
       ∧ s.m.oldestExport 0 = some x)
    ∧ (let s := live (inRound .barrier barrierPlan)
       s.m.run.phase.atBarrier = true ∧ s.m.run.release = none ∧ s.m.run.barrierOut = false)
    ∧ (let s := live (inRound .waiting barrierPlan)
       s.m.ownBarrier (arrival 0) = true ∧ s.m.run.phase.atBarrier = false ∧ (arrival 0).sender ∉ s.m.run.arrivals)
    ∧ (let s := live (fun m => runIs (fun r => { r with arrived := true }) (inRound .barrier barrierPlan m))
       s.m.run.phase.atBarrier = true ∧ s.m.run.arrived = true ∧ s.m.ownBarrier (arrival 0) = true ∧ s.m.fab.time ≤ 0)
    ∧ (let s := live (fun m => runIs (fun r => { r with release := some 4000 }) (inRound .barrier barrierPlan m))
       s.m.run.release = some 4000 ∧ s.m.run.phase.atBarrier = true) := by
  refine ⟨by decide, ?_, ?_, by decide, ?_, by decide, ?_, ?_, by decide⟩ <;> decide +kernel

/-- A message of the open attempt from the neighbour. -/
def word (attempt cause : Nat) : EmberMsg := ⟨attempt, peer, 0, 9, 0, cause⟩

theorem own_word {s : State} (h : s.m.set = some pair)
    (e : (s.m.run.phase.isOpen && decide ((9 : Word) = BitVec.ofNat 32 s.m.planId) && decide (0 = s.m.setId)
      && decide ((0 : Word) = s.m.run.serial)) = true) (cause : Nat) :
    s.m.ownMsg (word s.m.curAttempt cause) = true := by
  unfold Mod.ownMsg Mod.ownRound
  rw [others_pair h]
  simp only [Bool.and_eq_true, decide_eq_true_eq] at e ⊢
  exact ⟨⟨⟨⟨⟨e.1.1.1, e.1.1.2⟩, e.1.2⟩, e.2⟩, List.mem_singleton.mpr rfl⟩, beq_self_eq_true _⟩

/-- A plan whose round closes with the digest of two replicas, gathered at 0x100000. -/
def digestColl : Coll := ⟨.allGather, true, true, 0, 0, 2, 1, 1, 0xFFFF, 0, 896, 0, 1, 0, 0xFFFF, 100, 0xFFFF, 0, 0xFFFF, 0⟩

def digestPlan : Plan :=
  { planOf (fun r => { r with firstCollective := 0, testWindow := 0 }) with
    colls := [digestColl], tests := [.digest true 0 0],
    tensors := [.alloc { tensor .scratch 5 0x200000 with extent := [896, 1, 1, 1, 1, 1] },
                .alloc { tensor .scratch 6 0x100000 with extent := [1792, 1, 1, 1, 1, 1] }] }

theorem witness_RunsEndAndSettle :
    (let s := live (inRound .run plan)
     s.m.out = Outbox.empty ∧ s.m.ctl.state = .running ∧ s.m.run.phase = .run ∧ s.m.run.mark = none ∧ s.m.runDone = true
     ∧ 1000 ≤ (s.m.hdr.map (·.budgetNs)).getD 0)
    ∧ (let s := live (inRound .ended pairPlan)
       s.m.run.phase = .ended ∧ s.m.run.mark = none ∧ s.m.allTokens = false)
    ∧ (let s := live (inRound .ended plan)
       s.m.run.phase = .ended ∧ s.m.run.mark = none ∧ s.m.allTokens = true ∧ s.m.set = none)
    ∧ (let s := live (inRound .run pairPlan)
       s.m.ownMsg (word 0 0) = true ∧ s.m.run.phase ≠ .settling ∧ (word 0 0).sender ∉ s.m.run.tokens)
    ∧ (let s := live (fun m => { inRound .digest digestPlan m with hbm := { m.hbm with mem := [(0x100002, 2), (0x100E02, 2)] } })
       s.m.run.phase = .digest ∧ s.m.plan.plan = some digestPlan
       ∧ s.m.hdr = some { hdr with firstCollective := 0, testWindow := 0 }
       ∧ digestPlan.digestOf { hdr with firstCollective := 0, testWindow := 0 } = some (0, 0)
       ∧ s.m.collDesc 0 = some digestColl
       ∧ (let bs := s.m.digestBlocks digestColl
          let interval := fieldAt (bs.headD []) 2 2
          interval ≠ 0 ∧ s.m.step.reg.step.toNat % interval = 0 ∧ largestSet bs = bs.length))
    ∧ (let u : OwnUpd := ⟨8, 1, .none, some 0, [], [], [(64, 0, 64, none)], []⟩
       let s := live (fun m => { runIs (fun r => { r with staged := [⟨63, [1], 0, 0, 0⟩], holdSeen := true }) (inRound .commit plan m) with
         bank := { m.bank with upd := some u } })
       s.m.run.phase = .commit ∧ s.m.commitHeld = true ∧ s.m.run.holdSeen = true)
    ∧ (let s := live (fun m => runIs (fun r => { r with staged := [⟨hbmEnd - 1, [1], 0, 0, 0⟩] }) (inRound .commit plan m))
       s.m.run.phase = .commit ∧ s.m.commitHeld = false ∧ s.m.plan.plan = some plan ∧ s.m.hdr = some hdr
       ∧ s.m.fab.early = [] ∧ s.m.fab.flagWait = [] ∧ s.m.hbm.Canonical)
    ∧ (let s := live (inRound .settling pairPlan)
       s.m.run.phase = .settling ∧ s.m.run.settleOut = false) := by
  refine ⟨by decide, ⟨rfl, rfl, ?_⟩, by decide, ⟨own_word rfl (by decide) 0, by decide, by decide⟩, by decide, by decide, ?_, by decide⟩
  · unfold Mod.allTokens
    rw [others_pair rfl]
    rfl
  · refine ⟨by decide, by decide, by decide, by decide, by decide, by decide, ?_⟩
    unfold Hbm.Canonical
    decide

theorem witness_DousedRoundsReplay :
    (∀ a ∈ [0, 1],
      let s := live (fun m => runIs (fun r => { r with mark := some 1, attempt := a }) (inRound .run plan m))
      s.m.out = Outbox.empty ∧ s.m.ctl.state = .running ∧ s.m.run.mark = some 1 ∧ s.m.run.phase.runs = true ∧ s.m.run.attempt = a)
    ∧ 1 ≠ Douse.halt
    ∧ (let s := live (inRound .ended pairPlan)
       s.m.ownMsg (word 0 1) = true ∧ s.m.run.phase.runs = true ∧ s.m.run.attempt = 0 ∧ (word 0 1).cause ≠ Douse.halt
       ∧ s.m.run.phase ≠ .doused ∧ (word 0 1).sender ∉ s.m.run.readies)
    ∧ (let s := live (inRound .replay plan)
       s.m.run.phase = .replay ∧ s.m.fab.early = [] ∧ s.m.fab.flagWait = []) := by
  refine ⟨by decide, by decide, ⟨own_word rfl (by decide) 1, by decide⟩, by decide⟩

/-! A plan whose round has an entry of each kind and a combine group; its items lie in order. -/

def denseBytes : Bytes :=
  leBytes 2 0 ++ leBytes 2 0 ++ leBytes 2 0 ++ leBytes 2 1 ++ leBytes 2 2 ++ leBytes 2 0xFFFF ++ leBytes 2 0xFFFF ++ leBytes 2 32
    ++ zeros 16 ++ leBytes 4 1 ++ leBytes 4 1 ++ leBytes 4 1 ++ zeros 20

/-- SPMM of one row of A by one column of B. -/
def sparseBytes : Bytes :=
  zeros 4 ++ leBytes 2 0 ++ leBytes 2 1 ++ leBytes 2 2 ++ leBytes 2 0xFFFF ++ leBytes 2 3 ++ leBytes 2 0xFFFF
    ++ leBytes 4 1 ++ zeros 4 ++ leBytes 4 1 ++ zeros 4 ++ leBytes 4 1 ++ leBytes 4 1 ++ zeros 24

def segmentBytes : Bytes := [0, 0x40] ++ zeros 6 ++ leBytes 8 64 ++ zeros 48

def entry (e : Engine) (ref : Nat) : WpEntry := ⟨ref / 64, e, 1, 1, 0xFFFF, 0, 0xFFFF, 0, 0xFFFF, 100, ref⟩

def workHdr : RoundHdr := { hdr with itemCount := 4, groupCount := 1, updateRef := 2 }

def workPlan : Plan :=
  { vsetPlan with
    rounds := [workHdr], items := [denseBytes, sparseBytes, segmentBytes],
    woodpile := [entry .dense 0, entry .sparse 64, entry .sparse 128, entry .update 0],
    combines := [⟨0x102000, 0x103000, 64, 7, 0, 64, 16, 1, 16, 0, 1, false⟩],
    tensors := [.alloc (tensor .scratch 5 0x100000), .alloc (tensor .scratch 6 0x101000), .alloc (tensor .scratch 7 0x102000),
                .alloc (tensor .state 8 0x104000)],
    updates := vsetPlan.updates ++ [.update { upd with ctrRec := 3 }] }

/-- Entry i of the running round is e. -/
def work (i : Nat) (e : Ent) : State := live (fun m => runIs (fun r => { r with ents := [(i, e)] }) (inRound .run workPlan m))

def ran (st : EntSt) : Ent := { Ent.free with st := st, units := [tileWord 0 0 0] }

theorem witness_WorkIsClaimedAndWritten :
    (∀ s ∈ [work 0 (ran .awaiting), work 0 (ran .running), work 1 (ran .rerun), work 2 (ran .passed)],
      s.m.out = Outbox.empty ∧ s.m.running = true)
    ∧ (let m := (work 0 (ran .awaiting)).m.fresh
       m.withdrawn 0 = false ∧ (m.reClaim m.busyUnits 0).isSome = true)
    ∧ (let m := (work 0 (ran .running)).m.fresh
       m.withdrawn 7 = false ∧ m.reClaim m.busyUnits 7 = none ∧ (m.freshClaim m.busyUnits 7).isSome = true)
    ∧ (let m := (work 0 (ran .running)).m.fresh
       m.wpEntry 0 = some (entry .dense 0) ∧ (m.ent 0).active = true
       ∧ (match m.jobOf 0 (entry .dense 0) with
         | none => false
         | some jb => match m.destOf (entry .dense 0) jb.x.d with
           | none => false
           | some dst =>
             jb.x.d.m != 0 && m.nmFault jb dst ((FmtWord.parse jb.x.d.outFmt).getD FmtWord.plain) (m.srKey dst.tensorId)
               (m.outValue jb dst) == none) = true)
    ∧ (let m := (work 1 (ran .rerun)).m.fresh
       m.wpEntry 1 = some (entry .sparse 64) ∧ (m.ent 1).active = true
       ∧ (match m.spWork (entry .sparse 64) (m.ent 1).engine with | some (.item _) => true | _ => false) = true)
    ∧ (let m := (work 3 (ran .running)).m.fresh
       m.wpEntry 3 = some (entry .update 0) ∧ (m.ent 3).st = .running ∧ m.plan.plan = some workPlan ∧ m.hdr = some workHdr
       ∧ workPlan.updateOf workHdr = some (2, { upd with ctrRec := 3 }) ∧ (workPlan.groupRec 255).isSome = true
       ∧ (workPlan.alloc 3).isSome = true)
    ∧ (let m := (work 2 (ran .passed)).m.fresh
       m.wpEntry 2 = some (entry .sparse 128) ∧ (m.ent 2).st = .passed
       ∧ (match m.spWork (entry .sparse 128) (tileWord 0 0 0) with
         | some (.segment j _ seg) => m.rdNat (j.segAddr seg.firstSlot + 0x10) 4 + 1 != seg.segCount
         | _ => false) = true)
    ∧ (let m := (work 0 (ran .running)).m.fresh
       ((workPlan.groupsOf workHdr)[0]?).isSome = true ∧ (workPlan.allocById 7).isSome = true ∧ 0 ∉ m.run.groups
       ∧ m.groupReady 0 = true ∧ 0 ∉ m.run.combineFailed) := by
  refine ⟨?_, ?_, ?_, ?_, ?_, ?_, ?_, ?_⟩ 
  · decide
  · decide
  · decide
  · decide +kernel
  · decide +kernel
  · decide
  · decide +kernel
  · decide

theorem witness_VerdictsHoldOrPassEntries :
    (∀ s ∈ [work 0 (ran .checking), work 1 (ran .checking)], s.m.out = Outbox.empty ∧ s.m.running = true)
    ∧ (let m := (work 0 (ran .checking)).m.fresh
       m.wpEntry 0 = some (entry .dense 0) ∧ (m.ent 0).st = .checking
       ∧ (match m.jobOf 0 (entry .dense 0) with
         | none => false
         | some jb =>
           let place : CheckPlace := ⟨true, 0, 0, 0, 0, 0⟩
           m.uncompared jb == []
           && !m.skipped jb.x place.row place.pass place.kBlock (jb.unitAt place).1 (jb.unitAt place).2 place.pos) = true)
    ∧ (let m := (work 1 (ran .checking)).m.fresh
       m.wpEntry 1 = some (entry .sparse 64) ∧ (m.ent 1).st = .checking
       ∧ (match m.spWork (entry .sparse 64) 0 with | some (.item _) => true | _ => false) = true) := by
  decide +kernel

theorem witness_FaultsFenceElements :
    (let s := live id
     s.m.out = Outbox.empty ∧ s.m.railsUp = true ∧ s.m.inService (tileWord 7 17 16) = true ∧ s.m.inService (coreWord 7) = true
     ∧ SMap.wf CoreRec.off s.m.pwr.cores = true ∧ 4095 ∉ s.m.fenced ∧ 5 ∉ s.m.units.linkPending ∧ 5 ∉ s.m.units.linkUsed)
    ∧ (let s := work 0 (ran .running)
       s.m.out = Outbox.empty ∧ s.m.wpEntry 0 = some (entry .dense 0) ∧ (s.m.ent 0).runsOn = [tileWord 0 0 0]
       ∧ s.m.run.phase = .run ∧ min (2 * (entry .dense 0).estNs) 20000 < 201) := by decide

/-- A copy of 64 bytes within HBM, which goes on the flue. -/
def flueDesc : StreamDesc := { copyDesc with srcBase := 0x100000 }

/-- The stream of the running round is d, on context 480 unless it goes on the flue, and stands as r. -/
def streaming (d : StreamDesc) (r : StrRun) (m : Mod) : Mod :=
  let p := { planOf (fun r => { r with streamCount := 1, firstStream := 0 }) with streams := [d] }
  hasCtx (Ctx.fresh .plan .active 0 0 d) (runIs (fun x => { x with streams := [(0, r)] }) (inRound .run p m))

def copying : State := live (streaming copyDesc ⟨.armed, some 480, 0, 0, 0, none, []⟩)
def copied : State := live (streaming copyDesc ⟨.active, some 480, 1, 0, 0, none, []⟩)
def flueing : State := live (streaming flueDesc ⟨.armed, none, 0, 0, 0, none, []⟩)
def flued : State := live (streaming flueDesc ⟨.active, none, 1, 0, 0, none, []⟩)

/-- A drain into region 1. -/
def draining : Ctx :=
  { Ctx.fresh .drain .active 7 0 { copyDesc with srcBase := 2 ^ 36, dstBase := hostAddr 1 0 } with
    serial := 3, writes := [⟨hostAddr 1 (2 ^ 20 - 16), zeros 16, 481, 7, 0⟩] }

theorem witness_StreamsMoveUnitByUnit :
    (∀ x ∈ [(copying, copyDesc), (flueing, flueDesc)],
      let m := x.1.m.fresh
      x.1.m.out = Outbox.empty ∧ x.1.m.moving = true ∧ m.roundStream 0 = some x.2
      ∧ (m.strRun 0).map (fun r => (r.st, r.begun)) = some (.armed, 0) ∧ 0 < x.2.units ∧ m.unitGate x.2 0 = true
      ∧ m.flueOut x.2.homeCore < 64)
    ∧ copyDesc.isFlue = false ∧ flueDesc.isFlue = true ∧ copyDesc.srcHost = true
    ∧ copying.m.fresh.drainInto (hostRegion copyDesc.srcBase) = false
    ∧ (let s := live (fun m =>
         let m := streaming copyDesc ⟨.armed, some 480, 0, 0, 0, none, []⟩ m
         { m with ctxs := m.ctxs ++ [(481, some draining)] })
       s.m.out = Outbox.empty ∧ s.m.moving = true ∧ s.m.drainInto (hostRegion copyDesc.srcBase) = true ∧ 16 ∉ s.m.run.waitsSeen)
    ∧ (let m := copied.m.fresh
       m.unitReady copyDesc ⟨.active, some 480, 1, 0, 0, none, []⟩ (zeros 16) = true)
    ∧ (let m := flued.m.fresh
       m.unitReady flueDesc ⟨.active, none, 1, 0, 0, none, []⟩ [] = true) := by
  decide +kernel

theorem witness_StreamsHoldAndDrain :
    (let c := context .active
     let s := live (hasCtx c)
     s.m.out = Outbox.empty ∧ s.m.dataPlane = true ∧ s.m.ctx 480 = some c ∧ c.st = .active ∧ c.use = .command ∧ c.resume ≤ 3
     ∧ 3 < c.desc.positions ∧ c.desc.dataFits none c.resume 3 (zeros 12) = true ∧ s.m.settledOk c c.resume 3 = true
     ∧ s.m.failing (s.m.readerOf c.desc none c.resume (zeros 12)) 3 .hostError true
         = some (hostAddr 1 12, 4, false, 3))
    ∧ (let m := copied.m.fresh
       let r : StrRun := ⟨.active, some 480, 1, 0, 0, none, []⟩
       m.ctx 480 = some (Ctx.fresh .plan .active 0 0 copyDesc) ∧ m.moving = true ∧ m.roundStream 0 = some copyDesc
       ∧ m.strRun 0 = some r ∧ copyDesc.dataFits none 0 3 (zeros 12) = true ∧ 3 < (r.seen + 1) * copyDesc.unitSize
       ∧ m.indicesReady copyDesc (ceilDiv 4 (copyDesc.ext 0)) = true
       ∧ (let x := m.planReader copyDesc none 0 (zeros 12)
          m.readsOk x 0 3 = true ∧ (m.failing x 3 .hostError false).isSome = true))
    ∧ (let s := live (hasCtx draining)
       s.m.out = Outbox.empty ∧ s.m.dataPlane = true ∧ s.m.ctx 480 = some draining ∧ draining.use = .drain ∧ draining.cause = 0
       ∧ (draining.writes.all (fun w => (s.m.accessCause w.addr w.data.length true).isNone)) = true
       ∧ s.m.run.phase ≠ .waiting ∧ s.m.roundStream draining.stream = none) := by
  decide +kernel

/-! A plan whose round has a route of two members, a mask generator and a collective of two members. -/

def routeDesc : RouteDesc :=
  { mode := .hash, last := false, scaleDispatch := false, weightedCombine := false, k := 1, weightMode := .unit, h := 1, tokens := 1,
    countAddr := 0, salt := 1, keyRec := 0, scoreRec := 0xFFFF, tableRec := 0xFFFF, maskRec := 0xFFFF, inRec := 0, outRec := 1,
    retRec := 2, qhdrRec := 0xFFFF, qvecRec := 0xFFFF, qoutRec := 0xFFFF, sourceRoute := 0xFFFF, capacity := 1, firstBinding := 0,
    bindingCount := 0, dispatchFlag := 768, returnFlag := 769, outFlag := 0, combineFlag := 1, outValue := 0, timeoutUs := 100,
    startFlag := 0xFFFF, startValue := 0, group := [0, 1] }

def maskGen : MaskGen := ⟨.causal, true, 0, 0, 1, 0, 0, 1, 0, 0, 0xFFFF, 3, 0xFFFF, 64⟩

def coll (op : CollOp) : Coll := ⟨op, true, true, 0, 0, 2, 1, 1, 0xFFFF, 0, 896, 0, 1, 0xFFFF, 0xFFFF, 100, 0xFFFF, 0, 0xFFFF, 0⟩

def fabricPlan (op : CollOp) : Plan :=
  { planOf (fun r => { r with firstRoute := 0, firstCollective := 0, settleSet := 0 }) with
    sets := [pair], routes := [.route routeDesc, .mask maskGen], colls := [coll op],
    tensors := [.alloc (tensor .scratch 5 0x100000), .alloc (tensor .scratch 6 0x101000), .alloc (tensor .scratch 7 0x102000),
                .alloc (tensor .scratch 8 0x103000)] }

/-- The round runs; route 0 stands as x. -/
def routing (x : RouteRun) : State :=
  live (fun m => runIs (fun r => { r with routes := [(0, x)] }) (inRound .run (fabricPlan .seed) m))

/-- A frame of the second member. -/
def frame : Frame := ⟨1, 0, 0, [(0xFFFF, 0xFFFF)]⟩

theorem witness_RoutesChooseCountAndGrant :
    let s := routing RouteRun.idle
    s.m.out = Outbox.empty ∧ s.m.running = true ∧ s.m.routeDesc 0 = some routeDesc ∧ (s.m.route 0).st = .idle
    ∧ s.m.flagMet routeDesc.startFlag routeDesc.startValue = true ∧ s.m.frameRoute frame = some routeDesc ∧ frame.entries ≠ []
    ∧ (s.m.route 0).counts = []
    ∧ (let s := routing { RouteRun.idle with requests := [(0, [1])] }
       (SMap.put [] (s.m.route 0).requests (routeDesc.rankOf 1) (frame.entries.map (·.1))).length = routeDesc.group.length) := by
  decide

theorem witness_RoutesDispatchReturnAndCombine :
    (∀ x ∈ [(⟨.dispatching, 1, [], [], [1], [], [], false, [], false⟩ : RouteRun), ⟨.returning, 1, [], [], [0, 1], [], [1], false, [], false⟩,
        ⟨.returning, 1, [], [], [0, 1], [], [1], true, [0], false⟩, ⟨.combining, 1, [], [], [0, 1], [], [1], true, [0, 1], false⟩,
        ⟨.counting, 1, [], [], [], [], [], false, [], false⟩],
      let s := routing x
      s.m.out = Outbox.empty ∧ s.m.running = true ∧ s.m.routeDesc 0 = some routeDesc ∧ s.m.route 0 = x)
    ∧ 0 ∈ routeDesc.group ∧ 1 ∈ routeDesc.group ∧ 0 ∉ [1] ∧ 1 ∉ [0] ∧ [1] ≠ []
    ∧ (routing RouteRun.idle).m.flagMet routeDesc.outFlag routeDesc.outValue = true
    ∧ (let s := live (fun m => runIs (fun r => { r with flags := [(769, 2)] }) (inRound .run (fabricPlan .seed) m))
       s.m.flagMet routeDesc.returnFlag routeDesc.group.length = true)
    ∧ ((fabricPlan .seed).alloc routeDesc.retRec).isSome = true ∧ ((fabricPlan .seed).alloc routeDesc.outRec).isSome = true
    ∧ (let s := routing ⟨.counting, 1, [], [], [], [], [], false, [], false⟩
       (s.m.routeMissing routeDesc (s.m.route 0)).filter (fun w => w != Config.position) ≠ []) := by
  refine ⟨by decide, by decide, by decide, by decide, by decide, by decide, by decide, by decide, by decide, by decide, ?_⟩
  have h : (routing ⟨.counting, 1, [], [], [], [], [], false, [], false⟩).m.routeMissing routeDesc
    ((routing ⟨.counting, 1, [], [], [], [], [], false, [], false⟩).m.route 0) = [0, 1] := by decide
  dsimp only
  rw [h]
  intro e
  have h0 := List.filter_eq_nil_iff.mp e 0 (by decide)
  have h1 := List.filter_eq_nil_iff.mp e 1 (by decide)
  simp at h0 h1
  omega

theorem witness_MasksAreGenerated :
    let s := routing RouteRun.idle
    s.m.out = Outbox.empty ∧ s.m.running = true ∧ s.m.maskDesc 1 = some maskGen ∧ s.m.plan.plan = some (fabricPlan .seed)
    ∧ ((fabricPlan .seed).alloc maskGen.outRec).isSome = true ∧ 1 ∉ s.m.run.masks := by
  refine ⟨by decide, by decide, by decide, rfl, by decide, by decide⟩

/-- The round runs; collective 0 stands as x. -/
def collecting (op : CollOp) (x : CollRun) : State :=
  live (fun m => runIs (fun r => { r with colls := [(0, x)] }) (inRound .run (fabricPlan op) m))

theorem witness_CollectivesRun :
    (let s := collecting .tieSum CollRun.idle
     s.m.out = Outbox.empty ∧ s.m.running = true ∧ s.m.plan.plan = some (fabricPlan .tieSum) ∧ s.m.collDesc 0 = some (coll .tieSum)
     ∧ (s.m.coll 0).started = false ∧ s.m.flagMet (coll .tieSum).startFlag (coll .tieSum).startValue = true)
    ∧ (let s := collecting .allGather { CollRun.idle with started := true, here := [0, 1] }
       s.m.collDesc 0 = some (coll .allGather) ∧ (s.m.coll 0).started = true ∧ (s.m.coll 0).done = false
       ∧ s.m.collReady (fabricPlan .allGather) 0 (coll .allGather) = true)
    ∧ (let s := collecting .reduceScatter { CollRun.idle with started := true, got := [(gotKey 0 0 0, some emptyChunk)] }
       let gone := (List.range ((coll .reduceScatter).size 0)).filter (fun k => ((s.m.coll 0).held 0 0 k).isNone)
       0 ∈ (coll .reduceScatter).stages ∧ gone ≠ [] ∧ gone.length < (coll .reduceScatter).size 0
       ∧ sumKey 0 0 ∉ (s.m.coll 0).late) := by
  refine ⟨⟨by decide, by decide, rfl, by decide, by decide, by decide⟩, by decide, by decide⟩

/-- A packet for this module from its neighbour: eight bytes for an address. -/
def packet (t : PktTarget) (attempt addr : Nat) : Packet := ⟨0, Config.position, peer, t, true, attempt, 0, addr, zeros 8, true, true⟩

/-- A contribution of its neighbour: 896 values for slot 1 of chunk 0. -/
def sumPacket : Packet := { packet .reduction 0 (2 ^ 48) with data := zeros 3584 }

theorem takeOf_now {s : State} {k : Packet} (h : s.m.set = some pair) (hk : k.src = peer)
    (e : (s.m.run.phase.isOpen && s.m.run.phase != .doused && s.m.run.phase != .replay && decide (k.attempt = s.m.run.attempt)
      && decide (k.serialLo = s.m.run.serial.toNat % 16)) = true) : s.m.takeOf k = .now := by
  unfold Mod.takeOf
  dsimp only
  rw [if_pos e, others_pair h, hk, if_pos (List.mem_singleton.mpr rfl)]

/-- The state of channel 0. -/
def chan0 (x : ChanSt) (m : Mod) : Mod :=
  { m with fab := { m.fab with chans := [(0, { Chan.off with powered := true, st := x })] } }

theorem witness_PacketsAndFlagsAreTaken :
    (let s := collecting .reduceScatter CollRun.idle
     s.m.out = Outbox.empty ∧ s.m.dataPlane = true ∧ s.m.plan.plan = some (fabricPlan .reduceScatter)
     ∧ s.m.collDesc 0 = some (coll .reduceScatter) ∧ (s.m.coll 0).held 0 0 1 = none ∧ s.m.run.phase.isOpen = true)
    ∧ packetBad (packet .memory 0 0x100038) = false ∧ (packet .memory 0 0x100038).dst = Config.position
    ∧ packetBad sumPacket = false ∧ bits sumPacket.addr 63 56 = 0
    ∧ ((collecting .reduceScatter CollRun.idle).m.packetParts 0x100038 (zeros 8)).all
        (fun w => (fabricPlan .reduceScatter).takesWrite ⟨w.1, w.1 + w.2.length⟩) = true
    ∧ (collecting .reduceScatter CollRun.idle).m.sumFits sumPacket = true
    ∧ (collecting .reduceScatter CollRun.idle).m.sumFits (packet .reduction 0 (2 ^ 48)) = false
    ∧ (collecting .reduceScatter CollRun.idle).m.takeOf (packet .memory 0 0x100038) = .now
    ∧ (collecting .reduceScatter CollRun.idle).m.takeOf sumPacket = .now
    ∧ (live (inRound .replay (fabricPlan .seed))).m.takeOf (packet .memory 1 0) = .hold
    ∧ (live id).m.takeOf (packet .reduction 1 0) = .drop
    ∧ (bits (2 ^ 48) 31 0 = 0 ∧ bits (2 ^ 48) 47 32 = 0 ∧ bits (2 ^ 48) 55 48 = 1)
    ∧ (let s := collecting .reduceScatter { CollRun.idle with got := [(gotKey 0 0 1, some emptyChunk)] }
       ((s.m.coll 0).held 0 0 1).isSome = true)
    ∧ packetValues (zeros 3584) ≠ [] ∧ (coll .reduceScatter).nextStage 0 = none
    ∧ (let s := collecting .reduceScatter CollRun.idle
       let stored := s.m.setColl 0 (fun x => { x with got := SMap.put none x.got (gotKey 0 0 1) (some ⟨packetValues (zeros 3584), 0, false⟩) })
       sumKey 0 0 ∉ (stored.coll 0).summed ∧ (stored.coll 0).sumOf (coll .reduceScatter) 0 0 = none)
    ∧ (let s := collecting .reduceScatter { CollRun.idle with got := [(gotKey 0 0 0, some emptyChunk)] }
       let stored := s.m.setColl 0 (fun x => { x with got := SMap.put none x.got (gotKey 0 0 1) (some ⟨packetValues (zeros 3584), 0, false⟩) })
       ((stored.coll 0).sumOf (coll .reduceScatter) 0 0).isSome = true ∧ (stored.operand (coll .reduceScatter).dstRec).isSome = true)
    ∧ (let s := live (chan0 .up)
       peer ≠ Config.position ∧ (firstHops peer).filter (fun r => (s.m.liveChannel r).isSome) = [0])
    ∧ (768 ≤ 768 ∧ 1023 ≤ 1023 ∧ 767 < 768)
    ∧ (let s := live (inRound .run (fabricPlan .seed))
       s.m.run.phase.isOpen = true ∧ s.m.run.phase ≠ .doused ∧ s.m.run.phase ≠ .replay ∧ peer ∈ s.m.others)
    ∧ ((live id).m.run.phase = .none ∧ (live id).m.plan.st ≠ .running)
    ∧ (let s := live (fun m => runIs (fun r => { r with phase := .none }) (inRound .run (fabricPlan .seed) m))
       s.m.run.phase = .none ∧ s.m.plan.st = .running ∧ s.m.nextRoundSerial = 1) := by
  refine ⟨⟨by decide, by decide, rfl, by decide, by decide, by decide⟩, by decide, rfl, by decide +kernel, by decide,
    by decide, by decide +kernel, by decide, takeOf_now rfl rfl (by decide), takeOf_now rfl rfl (by decide),
    by decide, by decide, by decide, by decide, by decide +kernel, by decide, by decide +kernel, by decide +kernel,
    ⟨peer_ne, ?_⟩, by decide, ⟨by decide, by decide, by decide, ?_⟩, by decide, by decide⟩
  · rw [firstHops_peer]; decide
  · rw [others_pair rfl]; exact List.mem_singleton.mpr rfl

/-- A window of 40 µs for tiles on core 7. -/
def testPlan : Plan := { planOf (fun r => { r with testWindow := 0 }) with tests := [.window true 1 0 40000 0x80] }

theorem witness_TestsRunInWindows :
    (let s := live (inRound .run testPlan)
     let t : TestTarget := ⟨.tile, tileWord 7 0 0⟩
     s.m.out = Outbox.empty ∧ s.m.testWindow 0 = some (1, 0x80) ∧ s.m.run.phase = .run ∧ bit 0x80 7 = true
     ∧ s.m.withdrawnCores = [] ∧ s.m.tests.running.any (fun t => t.core == 7) = false
     ∧ s.m.earliest (s.m.candidates 7 1) = some t ∧ TestKind.ns t.kind ≤ 40000)
    ∧ (∀ a ∈ [false, true],
       let x : RunTest := ⟨7, ⟨.sparse, engineWord 7 17 1⟩, none, a⟩
       let s := live (fun m => { m with tests := { m.tests with running := [x] } })
       s.m.out = Outbox.empty ∧ s.m.tests.running.find? (fun t => t.core == 7) = some x ∧ x.aborted = a)
    ∧ (let s := live (fun m => { m with ctl := { m.ctl with powerOnMs := 48 * 3600 * 1000 } })
       let t : TestTarget := ⟨.channel, 27⟩
       s.m.out = Outbox.empty ∧ s.m.dueAt t ≤ s.m.powerOnS ∧ (s.m.testRow t).dueSeen = false
       ∧ (s.m.testRow t).last + TestKind.overdueS t.kind ≤ s.m.powerOnS ∧ (s.m.testRow t).overdueSeen = false) := by
  decide +kernel

theorem witness_ChannelsFailAndReplay :
    (∀ s ∈ [live (chan .up), live (chan .shadow)],
       s.m.out = Outbox.empty ∧ ((s.m.chan 27).st = .up ∨ (s.m.chan 27).st = .shadow) ∧ (s.m.chan 27).failedLane = none)
    ∧ 27 < 28 ∧ 8 < 9
    ∧ (let s := live (fun m => (chan .up m).setChan 27 (fun c => { c with failedLane := some 3, tries := 3, acked := 4095 }))
       s.m.out = Outbox.empty ∧ (s.m.chan 27).st = .up ∧ (s.m.chan 27).failedLane.isSome = true
       ∧ 0 < (s.m.chan 27).tries ∧ (s.m.chan 27).acked = 4095 % 4096 ∧ 3 ≤ (s.m.chan 27).tries) := by decide

def timed (st : TimeSt) (f : Fab → Fab) : State :=
  live (fun m => { chan0 .up m with fab := f { (chan0 .up m).fab with timeState := st, configured := true, timeParent := 0 } })

theorem witness_TheTimeBaseLocks :
    (∀ st ∈ [TimeSt.free, .acquiring, .locked],
       let s := timed st id
       s.m.out = Outbox.empty ∧ s.m.dataPlane = true ∧ (s.m.chan 0).st = .up ∧ s.m.fab.parentOf (s.m.roleNow 0) = some false
       ∧ s.m.run.phase ≠ .waiting ∧ s.m.fab.timeState = st ∧ s.m.fab.stepped = false)
    ∧ (let s := timed .acquiring (fun f => { f with stepped := true, good := 15 })
       s.m.fab.timeState = .acquiring ∧ s.m.fab.stepped = true ∧ s.m.fab.onAlt = false ∧ 15 ≤ s.m.fab.good
       ∧ thetaOver ((4 - 0) - (4 - 4)) 2 = false ∧ thetaOver ((51 - 0) - (4 - 4)) 25 = true ∧ thetaOver ((50 - 0) - (4 - 4)) 25 = false)
    ∧ (let s := timed .holdover id
       s.m.out = Outbox.empty ∧ s.m.fab.timeState = .holdover ∧ s.m.fab.answered = false)
    ∧ (let s := timed .acquiring (fun f => { f with answered := true, theta2 := -10 })
       s.m.out = Outbox.empty ∧ s.m.fab.timeState = .acquiring ∧ s.m.fab.answered = true ∧ s.m.fab.stepped = false
       ∧ s.m.fabricOpen = false ∧ s.m.fab.theta2 % 2 = 0) := by decide

def suspect : Suspect := ⟨9, .noToken, 3, 1000, 4, 1, 0⟩

theorem witness_SuspectsClimbTheTree :
    (let s := live id
     s.m.out = Outbox.empty ∧ s.m.dataPlane = true ∧ s.m.fab.suspects.any (fun x => suspectSame x suspect) = false)
    ∧ (let s := live (fun m => { m with fab := { m.fab with suspects := [suspect] } })
       s.m.fab.suspects[0]? = some suspect ∧ s.m.fab.reportParent = 0xFFFF)
    ∧ (let s := live (fun m => { chan0 .up m with fab := { (chan0 .up m).fab with
         suspects := [suspect], reportParent := 9, reportAlt := 2047, sentRecords := 63 } })
       s.m.fab.suspects[0]? = some suspect ∧ s.m.fab.reportParent ≠ 0xFFFF ∧ s.m.reportTo suspect = some 2047
       ∧ suspect.cls ≠ .storm ∧ s.m.fab.sentRecords < 64) := by decide

/-- An image header for a step and a length. -/
def imageHeader (n : Nat) : Bytes := zeros 0x18 ++ leBytes 4 8 ++ leBytes 4 1 ++ leBytes 8 n ++ zeros 24

theorem witness_TheHolderKeepsImages :
    (let s := live banked
     s.m.out = Outbox.empty ∧ s.m.dataPlane = true ∧ (heldOf 1 (fitBytes 64 (imageHeader s.m.bankQ))).imageBytes ≤ s.m.bankQ
     ∧ s.m.bankQ < (heldOf 1 (fitBytes 64 (imageHeader (s.m.bankQ + 64)))).imageBytes ∧ 64 ≤ s.m.bankQ)
    ∧ (let s := live (fun m => { banked m with bank := { (banked m).bank with
         slots := 2, snapGib := 1, held1 := { (banked m).bank.held1 with st := 1 } } })
       (s.m.bank.held 1).st = 1 ∧ (zeros 64).length ≤ 3824 ∧ (s.m.bankQ - 64) + (zeros 64).length ≤ s.m.bankQ
       ∧ (s.m.bankX - 64) + (zeros 64).length ≤ s.m.bankX ∧ 64 ≤ s.m.bankQ ∧ (s.m.bank.held 1).serial.toNat = 1) := by decide

/-- This module's own update: a directory of one extent. -/
def own (ph : SendPh) (host : Option Nat) (read : List Nat) : OwnUpd :=
  ⟨8, 1, ph, host, imageHeader 192, zeros 64, [(128, 0x100000, 64, none)], read⟩

def sending (u : OwnUpd) : State := live (fun m => { banked m with bank := { (banked m).bank with upd := some u } })

theorem witness_TheSenderAndThePartner :
    (let s := sending (own .opened none [])
     s.m.out = Outbox.empty ∧ s.m.dataPlane = true ∧ s.m.run.phase ≠ .waiting ∧ s.m.bank.upd = some (own .opened none [])
     ∧ s.m.bank.relight = none ∧ 1 < 2)
    ∧ (own (.sealed 1) none [0]).send = .sealed 1 ∧ (own (.sealed 1) none [0]).host = none
    ∧ (let u := own (.sending 1) none []
       u.extents[u.read.length]? = some (128, 0x100000, 64, none) ∧ (sending u).m.poisoned 0x100000 64 = false ∧ u.host = none)
    ∧ (let u := own .none (some 0) [0]
       let s := live (fun m => { banked m with bank := { (banked m).bank with upd := some u, pairs := 1, p0a := 1, p1a := 2 } })
       u.read.length = u.extents.length ∧ s.m.pairOk 0 u.bytes = true)
    ∧ (let r : Relight := ⟨ticket, 0, 8, 3, 4, 0xFFFF, 0xFFFF, [], 0⟩
       (live (fun m => { m with bank := { m.bank with relight := some r } })).m.bank.relight = some r ∧ r.source = 0)
    ∧ (let s := live banked
       s.m.bank.partner ≠ 2 ∧ s.m.bank.upd = none ∧ 8 < 2 ^ 32 ∧ s.m.bank.sealedSlot 3 (BitVec.ofNat 32 9) = none
       ∧ s.m.bank.sealedSlot 3 (BitVec.ofNat 32 8) = some 1 ∧ s.m.bank.serving = false
       ∧ s.m.bank.grantFor 5 3 (BitVec.ofNat 32 8) = none ∧ 5 ≠ 3)
    ∧ (let s := live (fun m => { banked m with bank := { (banked m).bank with pulled := some (3, 1) } })
       s.m.bank.sealedSlot 3 (BitVec.ofNat 32 8) = some 1 ∧ s.m.bank.serving = true) := by decide

/-- The state after reset, and one with running rings and a completion owed. -/
theorem witness_EveryStepLeavesALegalState :
    State.reset.Settled
    ∧ (let s : State := { live id with io := ⟨{ ring with owed := [⟨7, Op.planLoad⟩] }, ring, [(0, 1)]⟩ }
       s.Settled) := by
  refine ⟨⟨rfl, by decide, ⟨by decide, by decide⟩, ⟨by decide, by decide⟩⟩,
    ⟨by decide, by decide, ⟨by decide, by decide⟩, ⟨by decide, by decide⟩⟩⟩

theorem witness_RingCommandsAreChecked :
    ringCommand (.planLoad buf (.data [])) = some (buf, Op.planLoad, true)
    ∧ (live id).fetches buf.port = true ∧ ((live id).io.port buf.port).hasRoom = true ∧ (live id).m.out = Outbox.empty
    ∧ State.reset.fetches buf.port = false
    ∧ (let s : State := { live id with io := ⟨{ ring with owed := List.replicate 4095 ⟨7, Op.planLoad⟩ }, ring, []⟩ }
       s.fetches buf.port = true ∧ (s.io.port buf.port).hasRoom = false)
    ∧ ringCommand (.nop ⟨1, 7, 0, 0xFFFF, 1⟩) = some (⟨1, 7, 0, 0xFFFF, 1⟩, Op.nop, false)
    ∧ (live (ownedBy (some 1))).m.ctl.owner ≠ some buf.port
    ∧ (live (inState .expelled)).m.ctl.state.accepts Op.planLoad = false := by
  refine ⟨rfl, by decide, by decide, by decide, by decide, ⟨by decide, by decide +kernel⟩, rfl, by decide, by decide⟩

theorem witness_MemoryHoldsWhatIsWritten :
    Mod.reset.hbm.Canonical ∧ Memory.wf [(0, 1), (5, 2)] = true
    ∧ (let io : HostIo := ⟨{ ring with owed := [⟨7, Op.planLoad⟩] }, ring, []⟩
       let r : Reply := ⟨0, 7, Op.planLoad, Cls.ok, 0, []⟩
       (io.port r.port).running = true ∧ io.owes r = true) := by
  refine ⟨?_, by decide, by decide⟩
  unfold Hbm.Canonical
  decide

/-! ### Ill-formed commands -/

theorem test_wf_port : (Instr.nop ⟨2, 0, 0, 0xFFFF, 0⟩).wellFormed = false ∧ (Instr.nop ⟨1, 0, 0, 0xFFFF, 0⟩).wellFormed = true
    ∧ (Instr.cmdDoorbell 2 0).wellFormed = false ∧ (Instr.ringEnable 2).wellFormed = false ∧ (Instr.linkDown 2).wellFormed = false := by
  decide
theorem test_wf_core : (Instr.woodpileClaim 8).wellFormed = false ∧ (Instr.sequencerHeartbeatMiss 8).wellFormed = false
    ∧ (Instr.kindlingEnterComplete 8).wellFormed = false ∧ (Instr.testStart 0 8 0).wellFormed = false
    ∧ (Instr.woodpileClaim 7).wellFormed = true := by decide
theorem test_wf_channel : (Instr.channelDown 28 false).wellFormed = false ∧ (Instr.laneFail 28 0 false).wellFormed = false
    ∧ (Instr.nak 28 0 false).wellFormed = false ∧ (Instr.timeFlit 28 0 0 0 0).wellFormed = false
    ∧ (Instr.channelDown 27 false).wellFormed = true := by decide
theorem test_wf_stack : (Instr.stackTrainingFail 12).wellFormed = false ∧ (Instr.stackTrainingFail 11).wellFormed = true := by decide
theorem test_wf_pll : (Instr.pllLockLoss (.core 8)).wellFormed = false ∧ (Instr.pllLockLoss (.channel 28)).wellFormed = false
    ∧ (Instr.pllLockLoss (.port 2)).wellFormed = false ∧ (Instr.pllLockLoss (.noc 2)).wellFormed = false
    ∧ (Instr.pllLockLoss (.hbmPhy 12)).wellFormed = false ∧ (Instr.pllLockLoss (.noc 1)).wellFormed = true := by decide
theorem test_wf_ember : (Instr.settleToken ⟨256, 0, 0, 0, 0, 0⟩).wellFormed = false
    ∧ (Instr.douse ⟨0, 65536, 0, 0, 0, 0⟩).wellFormed = false ∧ (Instr.douseReady ⟨0, 0, 0, 0, 65536, 0⟩).wellFormed = false
    ∧ (Instr.douse ⟨0, 0, 0, 0, 0, 65536⟩).wellFormed = false ∧ (Instr.douse ⟨1, 171, 0, 0, 3, 1⟩).wellFormed = true := by decide
theorem test_wf_frame : (Instr.countFrame ⟨65536, 0, 0, []⟩).wellFormed = false ∧ (Instr.grantFrame ⟨0, 65536, 0, []⟩).wellFormed = false
    ∧ (Instr.countFrame ⟨0, 0, 0, List.replicate 17 (0, 0)⟩).wellFormed = false
    ∧ (Instr.grantFrame ⟨0, 0, 0, [(65536, 0)]⟩).wellFormed = false ∧ (Instr.grantFrame ⟨0, 0, 0, [(0, 65536)]⟩).wellFormed = false := by
  decide
theorem test_wf_flag : (Instr.flagInc ⟨65536, 768, 1, 0, 0, 0⟩).wellFormed = false ∧ (Instr.flagInc ⟨0, 65536, 1, 0, 0, 0⟩).wellFormed = false
    ∧ (Instr.flagInc ⟨0, 768, 65536, 0, 0, 0⟩).wellFormed = false ∧ (Instr.flagInc ⟨0, 768, 1, 0, 256, 0⟩).wellFormed = false
    ∧ (Instr.flagInc ⟨0, 768, 1, 0, 0, 2 ^ 32⟩).wellFormed = false := by decide
theorem test_wf_barrier : (Instr.barrierArrive ⟨65536, 0, 0, 0, 0⟩).wellFormed = false
    ∧ (Instr.barrierArrive ⟨0, 65536, 0, 0, 0⟩).wellFormed = false ∧ (Instr.barrierRelease ⟨0, 0, 65536, 0, 0⟩ 0).wellFormed = false := by
  decide
theorem test_wf_suspect : (Instr.report ⟨65536, .noToken, 0, 0, 0, 0, 0⟩).wellFormed = false
    ∧ (Instr.storm ⟨0, .noToken, 0, 2 ^ 64, 0, 0, 0⟩).wellFormed = false ∧ (Instr.report ⟨0, .noToken, 0, 0, 65536, 0, 0⟩).wellFormed = false
    ∧ (Instr.report ⟨0, .noToken, 0, 0, 0, 65536, 0⟩).wellFormed = false ∧ (Instr.report ⟨0, .noToken, 0, 0, 0, 0, 65536⟩).wellFormed = false := by
  decide
def anyPacket : Packet := ⟨0, 0, 0, .memory, false, 0, 0, 0, [], true, true⟩
theorem test_wf_packet : (Instr.dataPacket anyPacket).wellFormed = true ∧ (Instr.dataPacket { anyPacket with channel := 28 }).wellFormed = false
    ∧ (Instr.packetForward { anyPacket with dst := 65536 }).wellFormed = false
    ∧ (Instr.sumPacket { anyPacket with src := 65536 }).wellFormed = false ∧ (Instr.dataPacket { anyPacket with attempt := 2 }).wellFormed = false
    ∧ (Instr.dataPacket { anyPacket with serialLo := 16 }).wellFormed = false
    ∧ (Instr.dataPacket { anyPacket with addr := 2 ^ 64 }).wellFormed = false
    ∧ (Instr.dataPacket { anyPacket with data := List.replicate 3825 0 }).wellFormed = false := by decide +kernel

/-! ### Worked examples of the spec -/

/-- Spec 02, after R69: one FP8E4 product whose first and third terms cancel leaves 2^-18. -/
def fp8 : State := live (fun m =>
  let one (a : Alloc) (x k : Nat) : TensorRec := .alloc { a with extent := [x, k, 1, 1, 1, 1], scale := 0x3F800000, invScale := 0x3F800000 }
  let p := { planOf (fun r => { r with itemCount := 1 }) with
    woodpile := [entry .dense 0]
    items := [leBytes 2 0 ++ leBytes 2 0xFFFF ++ leBytes 2 0 ++ leBytes 2 1 ++ leBytes 2 2 ++ leBytes 2 0xFFFF ++ leBytes 2 0xFFFF
      ++ leBytes 2 32 ++ zeros 16 ++ leBytes 4 1 ++ leBytes 4 1 ++ leBytes 4 3 ++ zeros 20]
    tensors := [one { tensor .working 5 0x100000 with fmt := 3 } 3 1, one { tensor .working 6 0x101000 with fmt := 3 } 1 3,
                one (tensor .scratch 7 0x102000) 1 1] }
  { runIs (fun r => { r with ents := [(0, ran .running)] }) (inRound .run p m) with
    hbm := { m.hbm with mem := [(0x100000, 0x7E), (0x100001, 0x01), (0x100002, 0xFE), (0x101000, 0x7E), (0x101040, 0x01), (0x101080, 0x7E)] } })

theorem test_fp8_product_is_exact :
    (match exec (.denseItemComplete 0 []) fp8 with
      | .next t => (t.m.rdBytes 0x102000 4, (t.m.ent 0).st)
      | _ => ([], .free)) = ([0, 0, 0x80, 0x36], .checking) := by decide +kernel

/-- Spec 02, after R80: 1.3 as BF16 by stochastic rounding. -/
theorem test_stochastic_rounding :
    (Fmt.encode .bf16 (.sr 0x50000000) false (F32.num 0x3FA66666)).1 = 0x3FA7
    ∧ (Fmt.encode .bf16 (.sr 0x80000000) false (F32.num 0x3FA66666)).1 = 0x3FA6 := by decide +kernel

/-- Spec 03, after R109: five partials of a combine. -/
theorem test_combine_tree :
    F32.tree 6 [0x3F800000, 0x33800000, 0x33800000, 0x33800000, 0x33800000] = 0x3F800002 := by decide +kernel

/-- Spec 05, after R147: with w 64, a near address and a wide one. -/
theorem test_address_decode :
    ({ Hbm.reset with w := 64 }).decode 0x6D23456A40 = (8, 7, 0x1308B940)
    ∧ ({ Hbm.reset with w := 64 }).decode 0xD00 = (1, 1, 0) := by decide

/-- Spec 06, after R210: the data stream of the gather, 16,384 indices into a ring of 16 MiB. -/
def gather : Bytes :=
  leBytes 4 0x40 ++ leBytes 2 0x1442 ++ leBytes 2 0x4000 ++ leBytes 8 0x200000000 ++ leBytes 8 0x100008000000 ++ leBytes 2 4 ++ leBytes 2 5
    ++ zeros 4 ++ leBytes 4 4096 ++ leBytes 4 1024 ++ leBytes 4 16 ++ leBytes 4 1 ++ leBytes 4 1 ++ leBytes 4 1
    ++ leBytes 5 1 ++ leBytes 5 4096 ++ zeros 20 ++ leBytes 5 1 ++ leBytes 5 4096 ++ leBytes 5 4194304 ++ zeros 15
    ++ leBytes 4 262144 ++ leBytes 2 1 ++ leBytes 2 10 ++ leBytes 2 11 ++ leBytes 2 0xFFFF

theorem test_gather_stream :
    gather.length = 128 ∧ (parseStream gather).indexCount = 16384 ∧ (parseStream gather).aliasBad = false
    ∧ (parseStream gather).homeCore = 2 ∧ (parseStream gather).unitSize = 4096 * 1024 ∧ (parseStream gather).units = 16
    ∧ (parseStream gather).dstExtent = (2 * 0x100008000000, 2 * (0x100008000000 + 16 * 2 ^ 20)) := by decide +kernel

/-- Spec 07, after R242: the busy cycles of an item on a 4 by 4 gang. -/
theorem test_dense_cycles :
    ({ plan with tensors := [.alloc { tensor .working 5 0 with fmt := 1 }, .alloc { tensor .working 6 0x1000 with fmt := 1 }] }).denseCycles
      { entry .dense 0 with gang := 4 }
      ((DenseItem.parse (leBytes 2 0x1000 ++ leBytes 2 0xFFFF ++ leBytes 2 0 ++ leBytes 2 1 ++ leBytes 2 0xFFFF ++ leBytes 2 0xFFFF
        ++ leBytes 2 0xFFFF ++ leBytes 2 1024 ++ zeros 16 ++ leBytes 4 512 ++ leBytes 4 256 ++ leBytes 4 1024 ++ zeros 20)).getD
        ⟨.mm, false, false, false, false, false, false, false, 0, 0, 0, 0, 0, 0, 0, 0, 0, 0, 0, 0, 0, 0, 0⟩) = 8336 := by decide +kernel

/-- Spec 08, after R249: row 5 of a BF16 tensor of 300 columns, its directory entry, and a run of 255. -/
theorem test_rlz_row :
    rlzEncode 300 2 [(3, 0x3F80), (4, 0xC000), (290, 0x3F00)]
      = [0x02, 0x00, 0x03, 0x80, 0x3F, 0x00, 0x00, 0xC0, 0x01, 0x00, 0x22, 0x00, 0x3F]
    ∧ rlzEntry 3 1024 = leBytes 8 0x0000000300000010 ∧ runBytes 255 = [0xFF, 0x00]
    ∧ (rlzBlocks 2 64 2 0 ([0x02, 0x00, 0x03, 0x80, 0x3F, 0x00, 0x00, 0xC0, 0x01, 0x00, 0x22, 0x00, 0x3F] ++ zeros 51)).map
        (fun r => r.1.map (fun e => (e.pos, e.code))) = some [(3, 0x3F80), (4, 0xC000), (290, 0x3F00)] := by decide +kernel

/-- Spec 08, after R258: the bucket of column 1,000. -/
theorem test_hash_bucket : bucketOf 1000 = 139 := by decide

/-- Spec 08, after R277: the bounds of an SPMM item and of its segments. -/
theorem test_sparse_cycles :
    (match SpRec.parse (leBytes 2 0 ++ leBytes 2 0x1100 ++ leBytes 2 20 ++ leBytes 2 21 ++ leBytes 2 22 ++ leBytes 2 0xFFFF
        ++ leBytes 2 23 ++ leBytes 2 24 ++ leBytes 4 4096 ++ leBytes 4 64 ++ leBytes 4 64 ++ leBytes 4 0 ++ leBytes 4 128
        ++ leBytes 4 8192 ++ leBytes 4 1 ++ leBytes 4 3072 ++ leBytes 4 16 ++ leBytes 2 8 ++ leBytes 2 1024 ++ zeros 8) with
      | some (.item x) => (x.itemCycles, x.segCycles)
      | _ => (0, 0)) = (13360, 4168) := by decide +kernel

/-- Spec 08, after R277: row 81 posts three segments from slot 16; the entry in slot 17. -/
theorem test_segment_entry :
    (let j : SpJob :=
       { x := ⟨.spmm, .bf16, .bf16, .bf16, 20, 21, 22, 0xFFFF, 23, 24, 4096, 64, 64, 0, 128, 8192, 1, 3072, 16, 8, 1024, 0, 0, 0⟩,
         a := tensor .state 20 0, b := tensor .state 21 0, mask := none, c := none, seg := some (tensor .scratch 23 0), part := none,
         slot := none, spill := 0, key := Mod.reset.srKey 0 }
     (j.postRow ⟨false, 2500, 0, [], []⟩ 81 3 0).st.writes[1]?)
      = some (17 * 32, leBytes 4 0x51 ++ leBytes 2 1 ++ leBytes 2 3 ++ leBytes 4 1024 ++ leBytes 4 1024 ++ zeros 4 ++ leBytes 4 16 ++ zeros 8) := by
  decide +kernel

/-- Spec 09, after R310: the route word, and the grants of expert 13 to ranks 5, 6 and 7. -/
theorem test_route_word :
    (let d := parseRoute ⟨0, leBytes 2 1 ++ leBytes 2 0xA67E ++ zeros 124⟩
     (d.last, d.weightedCombine, d.scaleDispatch, d.k, d.weightMode, d.h, d.group.length))
      = (true, true, false, 2, .norm, 8, 8) := by decide

theorem test_grants :
    (let d := { routeDesc with capacity := 2560, h := 1, group := [0x50, 0x51, 0x52, 0x53, 0x54, 0x55, 0x56, 0x57] }
     let r : SMap (List Nat) := [(0, [410]), (1, [388]), (2, [402]), (3, [350]), (4, [371]), (5, [395]), (6, [380]), (7, [301])]
     (grantFor d r 5, grantFor d r 6, grantFor d r 7, homeCounts d r)) = ([(395, 1921)], [(244, 2316)], [(0, 2560)], [2560]) := by decide

/-- Spec 11, after R370: rank, chunks and stage shards of a reduction over 128 modules. -/
theorem test_collective_grid :
    (let c := { coll .reduceScatter with a := 8, b := 8, c := 2, shardElems := 229376 }
     (c.shardChunks, c.rank 1 3 6, (c.gets 0 94).length, (c.gets 1 94).length, c.gets 2 94)) = (256, 94, 16, 2, [94]) := by decide

/-- Spec 12, the worked example: clip, one SGDM element, and its BF16 refresh. -/
theorem test_sgdm_update :
    clipOf 0x40800000 0x41000000 = 0x3F000000
    ∧ sgdm ⟨0x3A800000, 0, 0x3F000000, 0x3F600000, 0, 0, 1, 0, 0⟩ false 0x3F800000 0x3E800000 0x3F000000 = (0x3F7FD400, 0x3F300000)
    ∧ (Fmt.encode .bf16 .rne false (F32.num 0x3F7FD400)).1 = 0x3F80
    ∧ (Fmt.encode .bf16 (.sr 0xD3FFFFFF) false (F32.num 0x3F7FD400)).1 = 0x3F80
    ∧ (Fmt.encode .bf16 (.sr 0xD4000000) false (F32.num 0x3F7FD400)).1 = 0x3F7F := by decide +kernel

theorem test_update_cycles :
    (let p := { plan with tensors := [.alloc { tensor .state 5 0 with extent := [67108864, 1, 1, 1, 1, 1] }] }
     let u := { upd with shardElems := 262144, ruleShards := 4, refreshShards := 256, elems := 1048576, fullRec := 0 }
     (p.updCycles u 3, p.updCycles u 4)) = (8256, 4160) := by decide +kernel

/-- Spec 13, after R415: the unit words, and the payload of the CHECKSUM record. -/
theorem test_checksum_record :
    tileWord 3 7 12 = 0x670C ∧ tileWord 6 2 4 = 0xC204
    ∧ (checksumReport 2210 41 (entry .dense 0)
        { Ent.free with units := [0x670C], reUnits := [0xC204], failed := [⟨false, ⟨false, 3, 0, 0, 17, 0⟩⟩] } 1).payload
      = leBytes 4 0x8A2 ++ leBytes 2 0x29 ++ leBytes 2 0x670C ++ leBytes 2 0xC204 ++ [0, 0, 1, 0] ++ leBytes 4 3 ++ leBytes 4 17 := by
  decide

/-- Spec 14, after R458: Q of the relight example. -/
theorem test_bank_q :
    (live (fun m => { m with hbm := { m.hbm with bankGib := 242 }, bank := { m.bank with slots := 2, snapGib := 16 } })).m.bankQ
      = 113 * 2 ^ 30 := by decide

/-- Spec 15, the worked example: the reply to PLAN_LOAD lands in slot 10 with status 0x0110_0000. -/
theorem test_plan_load_reply :
    (let x : Port := { ring with
       cmdBase := 0x80000000, replyBase := 0x80040000, producer := 0x1005, consumed := 0x1004, replyProduced := 0x100A,
       replyConsumed := 0x100A, attn := 1 }
     let s : State := { live (fun m => { m with regions := [(0x12, { region with size := 2 ^ 40 })] }) with io := ⟨x, ring, []⟩ }
     match exec (.planLoad ⟨0, 0x777, 0, 0x12, 0x400000⟩ (.data (zeros 64))) s with
     | .next t => ((List.range 16).map (fun i => SMap.get 0 t.io.mem (hostKey 0 0x80040140 + i)), t.io.p0.consumed, t.io.p0.replyProduced)
     | _ => ([], 0, 0))
      = (leBytes 4 0x100A ++ leBytes 4 0x777 ++ leBytes 4 0x01100000 ++ leBytes 2 0x30 ++ zeros 2, 0x1005, 0x100B) := by
  decide +kernel

/-- Spec 17, after R519: FW_ACTIVATE blows fuses 12 and 13, slot B runs next, slot A then fails ROLLBACK. -/
theorem test_fw_activate :
    (let s := live (fun m => { m with fw := { m.fw with
       slotA := ⟨true, 0, 11, 0x30400, [], []⟩, slotB := ⟨true, 0, 13, 0x30500, [], []⟩, staged := true, fuses := 11 } })
     match exec (.fwActivate pkt 13) s with
     | .next t => (t.m.fw.fuses, t.m.fw.active, t.m.ctl.restart, (t.m.fw.other.judge t.m.fw.fuses).2)
     | _ => (0, 0, none, 0)) = (13, 1, some .activate, Detail.rollback) := by decide +kernel

/-- Spec 18, the worked example: the TRIP entry of TRIP_FLOW. -/
theorem test_trip_entry :
    (let s := live (fun m =>
       let m := inState .running m
       { m with
         ctl := { m.ctl with bootCount := 23, powerOnMs := 10000000000 }
         ash := { m.ash with next := 0x41B2C }
         pwr := { m.pwr with
           rails := (List.range 17).map (fun k => (k, 2))
           guard := { m.pwr.guard with coolOk := false, vin := 6012, iinPeak := 5140, dieTemps := [(3, 986)], coolantIn := 310 } } })
     match exec .tripFlow s with
     | .next t => (t.m.ctl.state, (SMap.get [] t.m.ash.slots 0x41B2C).take 40)
     | _ => (.off, []))
      = (.tripped, leBytes 4 0x41B2C ++ [3, 0, 0x17, 0] ++ leBytes 4 0x989680 ++ leBytes 4 0x703 ++ [0xFF, 4, 0, 0] ++ leBytes 2 0x177C
          ++ leBytes 2 0x1414 ++ leBytes 2 0x3DA ++ leBytes 2 0x136 ++ zeros 8 ++ leBytes 4 0x1FFFF) := by decide +kernel

end Sys2Proof.Tests
end

/-! PROOFS. Events as the host sees them: what an event hands over that stops nothing, and the rings of one that stops them. -/
namespace Sys2Proof.Machine

/-! ### Events that stop nothing -/

/-- The attention bits of a record, in a module that hands over nothing else. -/
theorem Mod.report_out_quiet {m : Mod} {r : Report} (hm : m.out = Outbox.empty) :
    (m.report r).out = { Outbox.empty with attn := r.attn } := by
  rw [Mod.report_out, hm]; simp [Outbox.empty]

/-- The same of a fault whose report names ATTN_FAULT. -/
theorem Mod.reportFault_out_quiet {m : Mod} {r : Report} (hm : m.out = Outbox.empty) (hr : r.attn ||| Attn.fault = r.attn) :
    (m.reportFault r).out = { Outbox.empty with attn := r.attn } := by
  rw [Mod.reportFault_out m r hr, hm]; simp [Outbox.empty]

/-- What the host sees of an event that hands over attention bits and completions, none of them REJECTED. -/
theorem State.event_observed {s : State} {f : Mod → Mod} {a : Byte} {ks : List Reply}
    (ho : (f s.m.fresh).out = { Outbox.empty with attn := a, completions := ks })
    (hk : ∀ r ∈ ks, r.cls ≠ Cls.rejected := by simp) : Observed s (s.event f) a [] ks := by
  have hp : (f s.m.fresh).out.Plain := by rw [ho]; exact ⟨hk, rfl, rfl, rfl⟩
  rw [State.event_plain s f hp, ho]
  exact ⟨rfl, rfl⟩

/-- The module after such an event. -/
theorem State.event_m {s : State} {f : Mod → Mod} {a : Byte} {ks : List Reply}
    (ho : (f s.m.fresh).out = { Outbox.empty with attn := a, completions := ks })
    (hk : ∀ r ∈ ks, r.cls ≠ Cls.rejected := by simp) : (s.event f).m = { f s.m.fresh with out := Outbox.empty } := by
  have hp : (f s.m.fresh).out.Plain := by rw [ho]; exact ⟨hk, rfl, rfl, rfl⟩
  rw [State.event_plain s f hp]

/-- An event that hands over attention bits alone, whichever they are. -/
theorem State.event_observed_any {s : State} {f : Mod → Mod} (hq : s.Quiet)
    (ho : ∃ a, (f s.m.fresh).out = { s.m.out with attn := a }) : ∃ a, Observed s (s.event f) a [] [] := by
  obtain ⟨a, ha⟩ := ho
  exact ⟨a, State.event_observed (by rw [ha, show s.m.out = Outbox.empty from hq]; rfl)⟩

/-- An event whose last effect is a fault record. -/
theorem State.event_reportFault {s : State} {f : Mod → Mod} {n : Mod} {x : Report} (hq : s.Quiet)
    (hf : f s.m.fresh = n.reportFault x) (hout : n.out = s.m.out) : ∃ a, Observed s (s.event f) a [] [] :=
  State.event_observed_any hq (by rw [hf, ← hout]; exact n.reportFault_out_any x)

/-! ### Events that stop a ring -/

/-- A ring that an outbox stops does not run after it is settled (spec 15, R465). -/
theorem HostIo.settle_stops {o : Outbox} {p : Nat} (h : p ∈ o.ringsOff) (hp : p < 2) (io : HostIo) :
    ((io.settle o).port p).running = false := by
  obtain rfl | rfl : p = 0 ∨ p = 1 := by omega
  all_goals
    simp only [HostIo.settle, HostIo.port, h, if_true]
    simp [Port.stop, Port.reset, apply_ite Port.running]

/-- An event that stops a ring. -/
theorem State.event_stops {s : State} {f : Mod → Mod} {p : Nat} (h : p ∈ (f s.m.fresh).out.ringsOff) (hp : p < 2) :
    ((s.event f).io.port p).running = false :=
  HostIo.settle_stops h hp _

end Sys2Proof.Machine

/-! PROOFS. Commands that write a table to their buffer (O2). -/
namespace Sys2Proof.Machine

/-- A command that starts came over one of the two rings, not over the sideband. -/
theorem State.Starts.port_lt {s : State} {h : Cmd} (hs : s.Starts h) : h.port < 2 := by
  have hf := hs.fetched
  simp only [State.fetches, Bool.and_eq_true, decide_eq_true_eq] at hf
  obtain ⟨⟨⟨⟨⟨hport, -⟩, -⟩, -⟩, -⟩, -⟩ := hf
  exact hport

/-- A port of a ring hands its buffer over as a host write. -/
theorem Mod.writeBuffer_of_port {m : Mod} {h : Cmd} (hp : h.port < 2) (bs : Bytes) :
    m.writeBuffer h bs = { m with out := { m.out with host := m.out.host ++ m.bufferWrite h bs } } :=
  if_neg (show ¬ h.port = 2 by omega)

@[simp] theorem State.found_generation (s : State) (h : Cmd) : (s.found h).ctl.generation = s.m.ctl.generation := by
  unfold State.found Mod.renew; split <;> rfl

@[simp] theorem State.found_core (s : State) (h : Cmd) (c : Nat) : (s.found h).core c = s.m.core c := by
  simp [Mod.core]

/-- The frame of a command that any port may send and whose whole effect is a table in its buffer (spec 15, R470, R474). -/
theorem replies_of_table {i : Instr} {s : State} {h : Cmd} {op len : Nat} {bad : Bool} {run : Mod → Ans} {bs result : Bytes}
    (hx : exec i s = .next (runCmd h { opcode := op, ownerOnly := false, params := bufParams h len bad, run := run } s))
    (hs : s.Starts h) (ha : s.accepts op) (hbad : bad = false) (hb : (s.found h).bufferOk h len true = true)
    (hrun : run (s.found h) = Ans.ok ((s.found h).writeBuffer h bs) result) :
    Replies i s h 0 ((s.found h).bufferWrite h bs) op Cls.ok result (s.found h) := by
  have hq : (s.found h).out = Outbox.empty := (State.found_out s h).trans hs.quiet
  rw [Mod.writeBuffer_of_port hs.port_lt, hq] at hrun
  obtain ⟨hans, hm⟩ := runCmd_runs hs
    (c := { opcode := op, ownerOnly := false, params := bufParams h len bad, run := run }) rfl (by simp) rfl
    (by simp [bufParams, hbad, hb]) (by simpa using ha.1) (by simpa using ha.2) hrun
    (show Cls.ok ≠ Cls.rejected by decide) (show Cls.ok ≠ Cls.busy by decide)
    ⟨by simp [Ans.ok, Outbox.empty], rfl, rfl, rfl⟩ rfl rfl
  refine ⟨_, hx, hans, hm.trans ?_⟩
  simp only [Ans.ok, ← hq]

/-- Settles O2: each command is `replies_of_table` with its own table. -/
theorem tableCommandsWriteBuffer : Obligations.TableCommandsWriteBuffer := by
  intro s h hs
  refine ⟨fun ha hb => ?_, fun ha hb => ?_, fun core hc ha hb => ?_, fun ha hb => ?_, fun ha hb => ?_, fun ha hb => ?_,
    fun ha hb => ?_, fun ha hb => ?_⟩
  · exact replies_of_table rfl hs ha rfl hb (by simp)
  · exact ⟨_, replies_of_table rfl hs ha rfl hb rfl, by simp [zeros]⟩
  · exact replies_of_table rfl hs ha (by simpa using hc) hb (by simp)
  all_goals exact replies_of_table rfl hs ha rfl hb rfl

end Sys2Proof.Machine

/-! PROOFS. Regulator phases and core rails (O21). -/
namespace Sys2Proof.Machine

/-! ### Work that a fence returns -/

/-- A douse mark changes the open round alone. -/
theorem Mod.markDouse_eq (m : Mod) (cause : Nat) : ∃ r, m.markDouse cause = { m with run := r } := by
  unfold Mod.markDouse
  split
  · exact ⟨_, rfl⟩
  · exact ⟨m.run, rfl⟩

/-- Returned entries change the open round alone. -/
theorem Mod.returnEntries_eq : ∀ (es : List (Nat × Ent)) (m : Mod),
    ∃ r, es.foldl (fun m e => m.returnEntry e.1) m = { m with run := r }
  | [], m => ⟨m.run, rfl⟩
  | e :: es, m => Mod.returnEntries_eq es (m.returnEntry e.1)

/-- The return of an element's work changes the open round alone (spec 01, R39). -/
theorem Mod.returnWork_eq (m : Mod) (u cause : Nat) : ∃ r, m.returnWork u cause = { m with run := r } := by
  obtain ⟨r, hr⟩ := Mod.returnEntries_eq (m.entsOn u) m
  unfold Mod.returnWork
  dsimp only
  rw [hr]
  split
  · exact Mod.markDouse_eq { m with run := r } cause
  · exact ⟨r, rfl⟩

@[simp] theorem Mod.returnWork_ctl (m : Mod) (u c : Nat) : (m.returnWork u c).ctl = m.ctl := by
  obtain ⟨r, hr⟩ := m.returnWork_eq u c; rw [hr]
@[simp] theorem Mod.returnWork_pwr (m : Mod) (u c : Nat) : (m.returnWork u c).pwr = m.pwr := by
  obtain ⟨r, hr⟩ := m.returnWork_eq u c; rw [hr]
@[simp] theorem Mod.returnWork_hbm (m : Mod) (u c : Nat) : (m.returnWork u c).hbm = m.hbm := by
  obtain ⟨r, hr⟩ := m.returnWork_eq u c; rw [hr]
@[simp] theorem Mod.returnWork_plan (m : Mod) (u c : Nat) : (m.returnWork u c).plan = m.plan := by
  obtain ⟨r, hr⟩ := m.returnWork_eq u c; rw [hr]
@[simp] theorem Mod.returnWork_tests (m : Mod) (u c : Nat) : (m.returnWork u c).tests = m.tests := by
  obtain ⟨r, hr⟩ := m.returnWork_eq u c; rw [hr]
@[simp] theorem Mod.returnWork_out (m : Mod) (u c : Nat) : (m.returnWork u c).out = m.out := by
  obtain ⟨r, hr⟩ := m.returnWork_eq u c; rw [hr]

/-! ### Phases and rails -/

@[simp] theorem Mod.setRail_ctl (m : Mod) (r n : Nat) : (m.setRail r n).ctl = m.ctl := rfl
@[simp] theorem Mod.setRail_tests (m : Mod) (r n : Nat) : (m.setRail r n).tests = m.tests := rfl
@[simp] theorem Mod.setRail_cores (m : Mod) (r n : Nat) : (m.setRail r n).pwr.cores = m.pwr.cores := rfl

@[simp] theorem Mod.dropCoreMemory_ctl (m : Mod) (c : Nat) : (m.dropCoreMemory c).ctl = m.ctl := rfl
@[simp] theorem Mod.dropCoreMemory_tests (m : Mod) (c : Nat) : (m.dropCoreMemory c).tests = m.tests := rfl
@[simp] theorem Mod.dropCoreMemory_pwr (m : Mod) (c : Nat) : (m.dropCoreMemory c).pwr = m.pwr := rfl

@[simp] theorem Mod.setCore_ctl (m : Mod) (c : Nat) (f : CoreRec → CoreRec) : (m.setCore c f).ctl = m.ctl := rfl
@[simp] theorem Mod.setCore_tests (m : Mod) (c : Nat) (f : CoreRec → CoreRec) : (m.setCore c f).tests = m.tests := rfl
@[simp] theorem Mod.setCore_cores (m : Mod) (c : Nat) (f : CoreRec → CoreRec) :
    (m.setCore c f).pwr.cores = SMap.upd CoreRec.off m.pwr.cores c f := rfl

/-- A rail that takes a state other than OFF shows it. -/
theorem Mod.rail_setRail (m : Mod) (r : Nat) {n : Nat} (hn : n ≠ 0) : (m.setRail r n).rail r = n :=
  SMap.get_put_same hn m.pwr.rails r

/-- With no margin test in progress there is none to abort. -/
theorem Mod.abortMargin_none {m : Mod} (h : m.tests.margin = none) (c : Nat) : m.abortMargin c = m := by
  simp [Mod.abortMargin, h]

/-- Completions that are handed over stand in the outbox alone. -/
theorem Mod.completeAll_eq (cls d : Nat) : ∀ (ts : List (Ticket × Nat)) (m : Mod),
    ∃ o, ts.foldl (fun m t => m.complete t.1 t.2 cls d []) m = { m with out := o }
  | [], m => ⟨m.out, rfl⟩
  | t :: ts, m => Mod.completeAll_eq cls d ts (m.complete t.1 t.2 cls d [])

/-- The rail of a core group trips while no margin test is in progress: its core is OFF and its rail TRIPPED; the module's
state stays (spec 01, R41). -/
theorem Mod.coreRailTrip_off {m : Mod} (hm : m.tests.margin = none) (c : Nat) :
    (m.coreRailTrip c).pwr.cores = SMap.upd CoreRec.off m.pwr.cores c (fun r =>
        { r with ps := .off, op := 0, kindling := false, changing := false, kindleWait := none, kindleDone := none })
      ∧ (m.coreRailTrip c).rail c = 3 ∧ (m.coreRailTrip c).ctl = m.ctl := by
  obtain ⟨o, ho⟩ := Mod.completeAll_eq Cls.faulted Detail.railTrip ((m.returnWork (coreWord c) Douse.fence).coreTickets c)
    (m.returnWork (coreWord c) Douse.fence)
  unfold Mod.coreRailTrip
  simp only [ho]
  rw [Mod.abortMargin_none (by simpa using hm)]
  exact ⟨by simp, Mod.rail_setRail _ c (by decide), by simp⟩

/-- A core group with four healthy phases or fewer trips, if its rail has not tripped yet (spec 01, R41). -/
theorem Mod.railTrip_core {m : Mod} {g : Nat} (hg : g < 16) (hn : healthyPhases (m.group g).mask ≤ 4) (hu : m.railsUp = true)
    (hr : m.rail (g / 2) ≠ 3) :
    m.railTrip g = ((m.draw.2.coreRailTrip (g / 2)).setGuard (fun y => { y with lastTrip := Detail.railTrip })).reportFault
      { cls := Rec.power, attn := Attn.safety ||| Attn.fault, detail := Detail.railTrip, scope := Scope.outOfBound,
        payload := powerPayload g (m.draw.1 % 256) (healthyPhases (m.group g).mask) 1 } := by
  have hrail : groupRail g = g / 2 := if_pos hg
  simp [Mod.railTrip, hn, hu, hrail, hr, hg, show g < 24 by omega]

@[simp] theorem Mod.setGuard_ctl (m : Mod) (f : Guard → Guard) : (m.setGuard f).ctl = m.ctl := rfl
@[simp] theorem Mod.setGuard_pwr (m : Mod) (f : Guard → Guard) :
    (m.setGuard f).pwr = { m.pwr with guard := f m.pwr.guard } := rfl

@[simp] theorem Mod.setGuard_rail (m : Mod) (f : Guard → Guard) (r : Nat) : (m.setGuard f).rail r = m.rail r := rfl
@[simp] theorem Mod.reportFault_rail (m : Mod) (x : Report) (r : Nat) : (m.reportFault x).rail r = m.rail r := by
  simp [Mod.rail]
@[simp] theorem State.event_rail (s : State) (f : Mod → Mod) (r : Nat) : (s.event f).m.rail r = (f s.m.fresh).rail r := by
  simp [Mod.rail]

/-- A healthy phase that is lost while rails are up leaves its group, with a POWER record (spec 01, R41). -/
theorem Mod.phaseLost_healthy {m : Mod} {g ph : Nat} (hg : g < 24) (hph : ph < 6) (hb : bit (m.group g).mask ph = true)
    (hu : m.railsUp = true) :
    m.phaseLost g ph =
      (Mod.count { m with
        pwr := { m.pwr with
          groups := SMap.upd Group.whole m.pwr.groups g (fun x => { x with mask := (m.group g).mask - 2 ^ ph }) } }
        Cnt.phaseLost 1).report
      { cls := Rec.power, attn := Attn.safety, detail := Detail.phaseLost, scope := Scope.inBound,
        payload := powerPayload g ph (healthyPhases ((m.group g).mask - 2 ^ ph)) 0 } :=
  if_pos ⟨hg, hph, hb, hu⟩

/-- Settles O21: a lost phase by the record that PHASE_LOST writes, a core rail by `Mod.coreRailTrip_off`. -/
theorem regulatorPhasesAndCoreRails : Obligations.RegulatorPhasesAndCoreRails := by
  intro s g hq hup
  refine ⟨fun ph hg hph hbit => ⟨_, rfl, ?_⟩, fun hg hn hr hm => ⟨_, rfl, ?_⟩⟩
  · have hlost := Mod.phaseLost_healthy (m := s.m.fresh) hg hph hbit hup
    have hout : (s.m.fresh.phaseLost g ph).out = { Outbox.empty with attn := Attn.safety } := by
      rw [hlost]; exact Mod.report_out_quiet hq
    exact ⟨State.event_observed hout, by simp [hlost]; rfl, by simp [hlost], by simp [hlost]⟩
  · have htrip := Mod.railTrip_core (m := s.m.fresh) hg hn hup hr
    obtain ⟨hcores, hrail, hctl⟩ := Mod.coreRailTrip_off (m := s.m.fresh.draw.2) hm (g / 2)
    refine ⟨?_, ?_, ?_, ?_⟩
    · rw [State.event_pwr, htrip, Mod.reportFault_pwr, Mod.setGuard_pwr, hcores]; rfl
    · rw [State.event_rail, htrip, Mod.reportFault_rail, Mod.setGuard_rail, hrail]
    · rw [State.event_pwr, htrip, Mod.reportFault_pwr, Mod.setGuard_pwr]
    · rw [State.event_ctl, htrip, Mod.reportFault_ctl, Mod.setGuard_ctl, hctl]; rfl

end Sys2Proof.Machine

/-! PROOFS. Training, the reference, PLLs (O24). -/
namespace Sys2Proof.Machine

/-! ### A cold start that fails -/

/-- With no own transfer there is none to end. -/
theorem Mod.endUpdate_none {m : Mod} (h : m.bank.upd = none) (r : Nat) (b : Bool) : m.endUpdate r b = m := by
  simp [Mod.endUpdate, h]

/-- A loss of the rails leaves no cold start in progress and no powered stack. -/
theorem Mod.railsGone_pwr (m : Mod) : m.railsGone.pwr.cold = none ∧ m.railsGone.pwr.hbmStacks = [] := ⟨rfl, rfl⟩

/-- Without an own transfer a loss of the rails hands nothing over. -/
theorem Mod.railsGone_out {m : Mod} (h : m.bank.upd = none) : m.railsGone.out = m.out := by
  unfold Mod.railsGone
  dsimp only
  rw [Mod.endUpdate_none h, foldl_keeps Mod.out]
  · rfl
  · intro m r; split <;> rfl

/-- A cold start that fails leaves STANDBY with its rails open (spec 16, R498). -/
theorem Mod.coldFail_standby {m : Mod} {c : Cold} (hc : m.pwr.cold = some c) (d : Nat) :
    (m.coldFail d).ctl.state = .standby ∧ (m.coldFail d).pwr.cold = none ∧ (m.coldFail d).pwr.hbmStacks = [] := by
  obtain ⟨hcold, hstacks⟩ := m.railsGone_pwr
  simp [Mod.coldFail, hc, hcold, hstacks]

/-- A cold start that fails completes its command FAULTED and, without an own transfer, hands nothing else over. -/
theorem Mod.coldFail_out {m : Mod} {c : Cold} (hc : m.pwr.cold = some c) (hu : m.bank.upd = none) (d : Nat) :
    (m.coldFail d).out = { m.out with
      completions := m.out.completions ++ [⟨c.ticket.port, c.ticket.tag, Op.pstateSet, Cls.faulted, d, []⟩] } := by
  simp [Mod.coldFail, hc, Mod.complete, Mod.railsGone_out hu]

/-- A stack that fails its training ends a cold start which stands at that stage (spec 16, R498). -/
theorem Mod.stackFail_cold {m : Mod} {c : Cold} {k : Nat} (hc : m.pwr.cold = some c) (hst : c.stage = 4) (hk : k < 12) :
    m.stackFail k = ((m.count Cnt.trainRetry 3).reportFault (stackReport k)).coldFail Detail.unitFenced := by
  simp [Mod.stackFail, hc, hst, hk]

/-- What such a failure hands over while nothing else waits and no own transfer runs: ATTN_FAULT for its record, and the
FAULTED completion of the cold start. -/
theorem Mod.stackFail_cold_out {m : Mod} {c : Cold} {k : Nat} (hq : m.out = Outbox.empty) (hu : m.bank.upd = none)
    (hc : m.pwr.cold = some c) (hst : c.stage = 4) (hk : k < 12) :
    (m.stackFail k).out = { Outbox.empty with
      attn := Attn.fault
      completions := [⟨c.ticket.port, c.ticket.tag, Op.pstateSet, Cls.faulted, Detail.unitFenced, []⟩] } := by
  rw [Mod.stackFail_cold hc hst hk, Mod.coldFail_out (by simpa using hc) (by simpa using hu),
    Mod.reportFault_out_quiet (m := m.count Cnt.trainRetry 3) hq (BitVec.or_self : Attn.fault ||| _ = _)]
  rfl

/-! ### Channels and the reference -/

/-- A powered channel in training that succeeds: UP, or SHADOW for a spare without a role (spec 10, R315). -/
theorem Mod.trainDone_up {m : Mod} {k : Nat} (hk : k < 28) (hp : (m.chan k).powered = true) (ht : (m.chan k).st = .training) :
    m.trainDone k true = m.setChan k (fun x =>
      { x with st := if (spareRole k).isSome && x.taken.isNone then .shadow else .up, acked := 0, recvSeq := 0, tries := 0 }) := by
  simp [Mod.trainDone, show ¬ 28 ≤ k by omega, hp, ht]

/-- A powered channel in training that fails is counted and tries again. -/
theorem Mod.trainDone_retry {m : Mod} {k : Nat} (hk : k < 28) (hp : (m.chan k).powered = true)
    (ht : (m.chan k).st = .training) :
    m.trainDone k false = (m.setChan k (fun x => { x with st := .training })).count Cnt.trainRetry 1 := by
  simp [Mod.trainDone, show ¬ 28 ≤ k by omega, hp, ht]

@[simp] theorem Mod.fresh_chans (m : Mod) : m.fresh.fab.chans = m.fab.chans := rfl
@[simp] theorem Mod.fresh_configured (m : Mod) : m.fresh.fab.configured = m.fab.configured := rfl
@[simp] theorem Mod.fresh_timeParent (m : Mod) : m.fresh.fab.timeParent = m.fab.timeParent := rfl

/-- The reference is lost in READY (spec 01, R47). -/
theorem Mod.referenceLoss_ready {m : Mod} (hr : m.ctl.refLost = false) (hs : m.ctl.state = .ready) :
    m.referenceLoss = { (m.reportFault (referenceReport Scope.relight)).stopChannels with
      ctl := { m.ctl with refLost := true } } := by
  have hup : m.railsUp = true := by simp [Mod.railsUp, hs]
  simp [Mod.referenceLoss, hr, hup, hs, Mod.stopChannels]

/-- The reference returns (spec 01, R47; spec 10, R329). -/
theorem Mod.referenceBack_lost {m : Mod} (hr : m.ctl.refLost = true) :
    ∃ f, f.timeState = (if m.fab.configured = false then .free else if m.fab.timeParent = 0xFF then .locked else .acquiring)
      ∧ m.referenceBack =
        Mod.report { m with ctl := { m.ctl with refLost := false }, fab := f } (referenceReport Scope.none) := by
  refine ⟨_, ?_, if_pos hr⟩
  cases m.fab.configured <;> rfl

/-! ### The link of a port -/

/-- A link that goes down leaves the module's state and plan. -/
theorem Mod.linkDown_keeps (m : Mod) (n : Nat) : (m.linkDown n).ctl.state = m.ctl.state ∧ (m.linkDown n).plan = m.plan := by
  have hlapse : ∀ x : Mod, x.lapse.ctl.state = x.ctl.state ∧ x.lapse.plan = x.plan := by
    intro x; unfold Mod.lapse; split <;> exact ⟨rfl, rfl⟩
  have hlink : ∀ (x : Mod) (g : Link → Link), (x.setLink n g).ctl = x.ctl ∧ (x.setLink n g).plan = x.plan := by
    intro x g; unfold Mod.setLink; split <;> exact ⟨rfl, rfl⟩
  simp only [Mod.linkDown, Mod.attentionAt_ctl, Mod.attentionAt_plan, hlink]
  split
  · exact hlapse (m.revokePort n)
  · exact ⟨rfl, rfl⟩

/-- A link that goes down stops the rings of its port (spec 15, R463). -/
theorem Mod.linkDown_ringsOff (m : Mod) (n : Nat) : n ∈ (m.linkDown n).out.ringsOff := by
  simp [Mod.linkDown]

/-- Settles O24: a cold start ends by `Mod.coldFail_standby` and `Mod.coldFail_out`, a port's PLL takes its link down
(`Mod.linkDown_keeps`, `State.event_stops`), and every other event is its equation above with the record it writes. -/
theorem trainingAndClocks : Obligations.TrainingAndClocks := by
  intro s hq
  refine ⟨fun k c hc hst hk => ⟨_, rfl, ?_⟩, fun k hk hp ht => ⟨_, rfl, ?_⟩, fun k hk hp ht => ⟨_, rfl, ?_⟩,
    fun hr hs => ⟨_, rfl, ?_⟩, fun hr => ⟨_, rfl, ?_⟩, fun n hn hp =>
      ⟨s.event (fun m => m.pllLost (.port n)), congrArg Host.Outcome.next (if_pos (by simp [hp, hn])), ?_⟩,
    fun k hup => ⟨_, rfl, ?_⟩⟩
  · have hfail := Mod.stackFail_cold (m := s.m.fresh) hc hst hk
    obtain ⟨hstate, hcold, hstacks⟩ := Mod.coldFail_standby
      (m := (s.m.fresh.count Cnt.trainRetry 3).reportFault (stackReport k)) (by simpa using hc) Detail.unitFenced
    refine ⟨by simp [hfail, hstate], by simp [hfail, hcold], by simp [hfail, hstacks], fun hu => ?_⟩
    have hout := Mod.stackFail_cold_out (m := s.m.fresh) hq hu hc hst hk
    exact (State.event_observed (f := fun m => m.stackFail k) hout (by simp)).2
  · have hdone := Mod.trainDone_up (m := s.m.fresh) hk hp ht
    have hout : (s.m.fresh.trainDone k true).out = Outbox.empty := by rw [hdone]; exact hq
    have hev := State.event_m (f := fun m => m.trainDone k true) (a := 0) (ks := []) hout
    refine ⟨State.event_observed hout, hev.trans ?_⟩
    rw [← hout, hdone]
  · have hdone := Mod.trainDone_retry (m := s.m.fresh) hk hp ht
    have hout : (s.m.fresh.trainDone k false).out = Outbox.empty := by rw [hdone]; exact hq
    refine ⟨State.event_observed hout, by simp [hdone]; rfl, ?_⟩
    rw [State.event_m (f := fun m => m.trainDone k false) (a := 0) (ks := []) hout, hdone]; rfl
  · have hloss := Mod.referenceLoss_ready (m := s.m.fresh) hr hs
    have hout : s.m.fresh.referenceLoss.out = { Outbox.empty with attn := Attn.fault } := by
      rw [hloss]; exact Mod.reportFault_out_quiet hq (by decide)
    refine ⟨State.event_observed hout, ?_, ?_, ?_, ?_⟩
    · simp [hloss]
    · simp [hloss, Mod.stopChannels]
    · simp [hloss, Mod.stopChannels]
    · simp [hloss, Mod.stopChannels]
  · obtain ⟨f, hf, hback⟩ := Mod.referenceBack_lost (m := s.m.fresh) hr
    have hout : s.m.fresh.referenceBack.out = { Outbox.empty with attn := Attn.fault } := by
      rw [hback]; exact Mod.report_out_quiet hq
    refine ⟨State.event_observed hout, by simp [hback], ?_, by simp [hback], by simp [hback]⟩
    rw [State.event_fab, hback, Mod.report_fab]
    exact hf
  · have hlost : s.m.fresh.pllLost (.port n)
        = (s.m.fresh.linkDown n).reportFault (fenceReport 0xFFFF 3 0 Scope.outOfBound) := if_pos hn
    obtain ⟨hstate, hplan⟩ := s.m.fresh.linkDown_keeps n
    refine ⟨by simp [hlost, hstate], by simp [hlost, hplan], State.event_stops ?_ hn⟩
    rw [hlost, Mod.reportFault_out _ _ (by decide)]
    exact s.m.fresh.linkDown_ringsOff n
  · have hlost : s.m.fresh.pllLost (.noc k) = s.m.fresh.reportFault (fenceReport 0xFFFF 3 0 Scope.relight) := if_pos hup
    have hout : (s.m.fresh.pllLost (.noc k)).out = { Outbox.empty with attn := Attn.fault } := by
      rw [hlost]; exact Mod.reportFault_out_quiet hq (by decide)
    exact ⟨State.event_observed hout, by simp [hlost], by simp [hlost]⟩

end Sys2Proof.Machine

/-! PROOFS. Faults that fence (O42). -/
namespace Sys2Proof.Machine

/-- The end of a margin test changes the tests and the core under test, never the core that is named. -/
theorem Mod.abortMargin_core {m : Mod} (hw : SMap.rising none m.pwr.cores = true) (c : Nat) :
    (m.abortMargin c).core c = m.core c := by
  unfold Mod.abortMargin
  split
  · split
    · rename_i t _ hc
      exact SMap.get_put_other hw (Ne.symm hc.1) _
    · rfl
  · rfl

/-- It leaves plan, memory and what waits to be handed over. -/
theorem Mod.abortMargin_keeps (m : Mod) (c : Nat) :
    (m.abortMargin c).plan = m.plan ∧ (m.abortMargin c).hbm = m.hbm ∧ (m.abortMargin c).out = m.out := by
  unfold Mod.abortMargin
  split
  · split <;> exact ⟨rfl, rfl, rfl⟩
  · exact ⟨rfl, rfl, rfl⟩

/-- A core's fence closes: the core is withdrawn (spec 01, R40). -/
theorem Mod.closeFence_core {m : Mod} {u : Nat} (hk : unitKind u = 3) (hw : SMap.wf CoreRec.off m.pwr.cores = true) :
    ((m.closeFence u).core (unitCore u)).faulted = true := by
  have hset : (m.setCore (unitCore u) (fun r => { r with faulted := true })).core (unitCore u)
      = { m.core (unitCore u) with faulted := true } :=
    SMap.get_put_same (by simp [CoreRec.off]) _ _
  have hw' := SMap.wf_upd hw (unitCore u) (fun r => { r with faulted := true })
  simp only [SMap.wf, Bool.and_eq_true] at hw'
  rw [Mod.closeFence, if_pos hk, Mod.abortMargin_core (by exact hw'.1), hset]

/-- The fence of a unit or cluster closes: a pending clinker (spec 01, R37). -/
theorem Mod.closeFence_unit {m : Mod} {u : Nat} (hk : unitKind u ≠ 3) : ((m.closeFence u).unit u).pending = true := by
  have hset : (m.setUnit u (fun r => { r with pending := true })).unit u = { m.unit u with pending := true } :=
    SMap.get_put_same (by simp [UnitRec.healthy]) _ _
  rw [Mod.closeFence, if_neg hk, hset]

/-- A fence that closes leaves plan, memory and what waits to be handed over. -/
theorem Mod.closeFence_keeps (m : Mod) (u : Nat) :
    (m.closeFence u).plan = m.plan ∧ (m.closeFence u).hbm = m.hbm ∧ (m.closeFence u).out = m.out := by
  unfold Mod.closeFence
  split
  · exact Mod.abortMargin_keeps (m.setCore (unitCore u) (fun r => { r with faulted := true })) (unitCore u)
  · exact ⟨rfl, rfl, rfl⟩

/-- What a fault in an element does (spec 01, R39, R40): its fence closes, and a record is written. -/
theorem Mod.unitFault_fences (m : Mod) (u cause : Nat) :
    (unitKind u ≠ 3 → ((m.unitFault u cause).unit u).pending = true)
      ∧ (unitKind u = 3 → SMap.wf CoreRec.off m.pwr.cores = true →
          ((m.unitFault u cause).core (unitCore u)).faulted = true)
      ∧ (m.unitFault u cause).plan = m.plan ∧ (m.unitFault u cause).hbm = m.hbm
      ∧ ∃ a, (m.unitFault u cause).out = { m.out with attn := a } := by
  obtain ⟨hplan, hhbm, hout⟩ := (m.returnWork u Douse.fence).closeFence_keeps u
  refine ⟨fun hk => ?_, fun hk hw => ?_, ?_, ?_, ?_⟩
  · unfold Mod.unitFault Mod.unit
    rw [Mod.reportFault_units]
    exact Mod.closeFence_unit hk
  · unfold Mod.unitFault Mod.core
    rw [Mod.reportFault_pwr]
    exact Mod.closeFence_core hk (by simpa using hw)
  · simp [Mod.unitFault, hplan]
  · simp [Mod.unitFault, hhbm]
  · obtain ⟨a, ha⟩ := Mod.reportFault_out_any ((m.returnWork u Douse.fence).closeFence u)
      (fenceReport u cause (m.entsOn u).length (((m.returnWork u Douse.fence).closeFence u).fenceScope u))
    exact ⟨a, by rw [Mod.unitFault, ha, hout, Mod.returnWork_out]⟩

/-- The step from s to t fences an element and leaves plan and memory (spec 01, R37, R40). -/
def Fenced (u : Nat) (s t : State) : Prop :=
  (unitKind u ≠ 3 → (t.m.unit u).pending = true)
  ∧ (unitKind u = 3 → SMap.wf CoreRec.off s.m.pwr.cores = true → (t.m.core (unitCore u)).faulted = true)
  ∧ t.m.plan = s.m.plan ∧ t.m.hbm = s.m.hbm ∧ ∃ a, Observed s t a [] []

/-- An event that finds a fault in an element, in a module n that differs from the state's in other things. -/
theorem State.event_fences {s : State} {f : Mod → Mod} {n : Mod} {u cause : Nat} (hq : s.Quiet)
    (hf : f s.m.fresh = n.unitFault u cause) (hpwr : n.pwr = s.m.pwr) (hplan : n.plan = s.m.plan) (hhbm : n.hbm = s.m.hbm)
    (hout : n.out = s.m.out) : Fenced u s (s.event f) := by
  obtain ⟨hunit, hcore, hplan', hhbm', hout'⟩ := n.unitFault_fences u cause
  rw [← hf] at hunit hcore hplan' hhbm' hout'
  refine ⟨fun hk => ?_, fun hk hw => ?_, ?_, ?_, State.event_observed_any hq (hout ▸ hout')⟩
  · unfold Mod.unit; rw [State.event_units]; exact hunit hk
  · unfold Mod.core; rw [State.event_pwr]; exact hcore hk (hpwr ▸ hw)
  · rw [State.event_plan, hplan', hplan]
  · rw [State.event_hbm, hhbm', hhbm]

/-- The watchdog of a running item fences the first unit that the item runs on (spec 03, R106). -/
theorem Mod.watchdog_late {m : Mod} {i busy u : Nat} {w : WpEntry} {us : List Nat} (hw : m.wpEntry i = some w)
    (hu : (m.ent i).runsOn = u :: us) (hr : m.run.phase = .run) (hb : min (2 * w.estNs) 20000 < busy) :
    m.watchdog i busy = (m.tallyEvent Cnt.itemWatchdog 1).unitFault u 0 := by
  simp only [Mod.watchdog, hw, hu]
  exact if_pos ⟨hr, hb⟩

/-- A context that fails is fenced; nothing else of the module changes but the open round, the record and what the record
draws (spec 13, R433). -/
theorem Mod.contextFault_fences {m : Mod} {h : Nat} (hh : h < 4096) (hu : m.railsUp = true) (hn : h ∉ m.fenced) :
    ∃ r x, m.contextFault h = Mod.reportFault { m with fenced := m.fenced ++ [h], run := r } x := by
  have hmark : ∀ c : Bool, ∃ r, (if c then Mod.markDouse { m with fenced := m.fenced ++ [h] } Douse.fence
      else { m with fenced := m.fenced ++ [h] }) = { m with fenced := m.fenced ++ [h], run := r } := by
    rintro (_ | _)
    · exact ⟨m.run, rfl⟩
    · exact Mod.markDouse_eq { m with fenced := m.fenced ++ [h] } Douse.fence
  obtain ⟨r, hr⟩ := hmark (match m.ctx h with | some c => c.use == .plan | none => false)
  exact ⟨r, _, (if_pos ⟨hh, hu, hn⟩).trans (congrArg (fun n => Mod.reportFault n _) hr)⟩

/-- The first fault of a bundle's link waits for the next start (spec 01, R35). -/
theorem Mod.linkFault_first {m : Mod} {b : Nat} (hu : m.railsUp = true) (hp : b ∉ m.units.linkPending)
    (hl : b ∉ m.units.linkUsed) :
    m.linkFault b = Mod.reportFault { m with units := { m.units with linkPending := m.units.linkPending ++ [b] } }
      (fenceReport 0xFFFF 2 0 Scope.inBound) := by
  simp [Mod.linkFault, hu, hp, hl]

/-- Settles O42: `State.event_fences` for a unit, whoever finds the fault. -/
theorem faultsFenceElements : Obligations.FaultsFenceElements := by
  intro s hq
  refine ⟨fun unit cause hup hin => ⟨_, rfl, ?_⟩, fun core hc hup hin => ⟨_, rfl, ?_⟩,
    fun i busy w u us hw hu hr hb => ⟨_, rfl, ?_⟩, fun handle hh hup hn => ⟨_, rfl, ?_⟩, fun bundle hup hp hl => ⟨_, rfl, ?_⟩,
    fun place hup => ⟨_, rfl, ?_⟩⟩
  · exact State.event_fences hq (if_pos (Bool.and_eq_true_iff.2 ⟨hup, hin⟩)) rfl rfl rfl rfl
  · exact State.event_fences hq (if_pos (by simpa [hc] using ⟨hup, hin⟩)) rfl rfl rfl rfl
  · exact State.event_fences hq (Mod.watchdog_late hw hu hr hb) rfl rfl rfl rfl
  · obtain ⟨r, x, hfault⟩ := Mod.contextFault_fences (m := s.m.fresh) hh hup hn
    exact ⟨by simp [hfault], by simp [hfault], by simp [hfault], State.event_reportFault hq hfault rfl⟩
  · have hfault := Mod.linkFault_first (m := s.m.fresh) hup hp hl
    exact ⟨by simp [hfault], by simp [hfault], by simp [hfault], State.event_reportFault hq hfault rfl⟩
  · have hfault : (if s.m.fresh.railsUp then s.m.fresh.reportFault (fenceReport 0xFFFF 2 0 Scope.relight) else s.m.fresh)
        = s.m.fresh.reportFault (fenceReport 0xFFFF 2 0 Scope.relight) := if_pos hup
    exact ⟨by simp [hfault], by simp [hfault], by simp [hfault], by simp [hfault], State.event_reportFault hq hfault rfl⟩

end Sys2Proof.Machine

/-! PROOFS. The open of a round (spec 03, R98, R99; spec 04, R135): what each of its parts can change. -/
namespace Sys2Proof.Machine

/-! ### What waits for a round open (spec 16, R500, R505; spec 13, R423, R424) -/

/-- n differs from m at most in tests, counters, power, memory and the bank: nothing of the plan, its round or the host. -/
def Mod.OffRound (m n : Mod) : Prop :=
  ∃ t c p h b, n = { m with tests := t, cnt := c, pwr := p, hbm := h, bank := b }

theorem Mod.OffRound.refl (m : Mod) : m.OffRound m := ⟨_, _, _, _, _, rfl⟩

theorem Mod.OffRound.trans {m n k : Mod} : m.OffRound n → n.OffRound k → m.OffRound k := by
  rintro ⟨_, _, _, _, _, rfl⟩ ⟨_, _, _, _, _, rfl⟩
  exact ⟨_, _, _, _, _, rfl⟩

theorem Mod.OffRound.foldl {α : Type} {f : Mod → α → Mod} (hf : ∀ m a, Mod.OffRound m (f m a)) (l : List α) (m : Mod) :
    m.OffRound (l.foldl f m) :=
  List.foldlRecOn l f (Mod.OffRound.refl m) (fun n hn a _ => hn.trans (hf n a))

theorem Mod.enterKindling_offRound (m : Mod) (c : Nat) : m.OffRound (m.enterKindling c) := by
  unfold Mod.enterKindling
  split
  · exact ⟨_, _, _, _, _, rfl⟩
  · exact .refl m

theorem Mod.beginForced_offRound (m : Mod) : m.OffRound m.beginForced := by
  unfold Mod.beginForced
  split
  · exact ⟨_, _, _, _, _, rfl⟩
  · exact .refl m

theorem Mod.beginMargin_offRound (m : Mod) : m.OffRound m.beginMargin := by
  unfold Mod.beginMargin
  split
  · split
    · exact .refl m
    · exact ⟨_, _, _, _, _, rfl⟩
  · exact .refl m

theorem Mod.setCore_offRound (m : Mod) (c : Nat) (f : CoreRec → CoreRec) : m.OffRound (m.setCore c f) :=
  ⟨_, _, _, _, _, rfl⟩

theorem Mod.setRail_offRound (m : Mod) (r n : Nat) : m.OffRound (m.setRail r n) := ⟨_, _, _, _, _, rfl⟩

theorem Mod.dropCoreMemory_offRound (m : Mod) (c : Nat) : m.OffRound (m.dropCoreMemory c) := ⟨_, _, _, _, _, rfl⟩

theorem Mod.putCore_offRound (m : Mod) (c : Nat) (st : CorePs) (op : Nat) : m.OffRound (m.putCore c st op) := by
  unfold Mod.putCore
  extract_lets was n
  have hn : m.OffRound n := m.setCore_offRound c _
  clear_value n
  split
  · exact (hn.trans (n.setRail_offRound c 0)).trans (Mod.dropCoreMemory_offRound _ c)
  · split
    · exact hn.trans (n.setRail_offRound c 2)
    · exact hn

theorem Mod.applyChange_offRound (m : Mod) (c : Change) : m.OffRound (m.applyChange c) :=
  (m.putCore_offRound _ _ _).trans ⟨_, _, _, _, _, rfl⟩

/-- Kindling entries, a forced window and a margin test begin. -/
theorem Mod.beginTests_offRound (m : Mod) :
    m.OffRound ((List.range 8).foldl Mod.enterKindling m).beginForced.beginMargin :=
  ((Mod.OffRound.foldl Mod.enterKindling_offRound _ m).trans (Mod.beginForced_offRound _)).trans (Mod.beginMargin_offRound _)

theorem Mod.openHook_offRound (m : Mod) : m.OffRound m.openHook := by
  unfold Mod.openHook
  extract_lets n k
  have hk : m.OffRound k := m.beginTests_offRound
  clear_value k
  refine hk.trans ?_
  split
  · split
    · exact Mod.applyChange_offRound _ _
    · exact .refl _
  · exact .refl _

theorem Mod.quiesce_offRound (m : Mod) : m.OffRound m.quiesce := by
  unfold Mod.quiesce
  extract_lets n k
  have hk : m.OffRound k := m.beginTests_offRound
  clear_value k
  exact hk.trans (Mod.OffRound.foldl Mod.applyChange_offRound _ _)

theorem Mod.applyIntervals_offRound (m : Mod) : m.OffRound m.applyIntervals := by
  unfold Mod.applyIntervals
  extract_lets gated
  split
  · exact ⟨_, _, _, _, _, rfl⟩
  · exact .refl m

/-! ### Arming (spec 06, R174; spec 12, R401, R403) -/

/-- n differs from m at most in stream contexts and, in the round, in streams, conditions, bindings and target slot. -/
def Mod.Arms (m n : Mod) : Prop :=
  ∃ x s c b t, n = { m with ctxs := x, run := { m.run with streams := s, conds := c, binds := b, target := t } }

theorem Mod.Arms.refl (m : Mod) : m.Arms m := ⟨_, _, _, _, _, rfl⟩

theorem Mod.Arms.trans {m n k : Mod} : m.Arms n → n.Arms k → m.Arms k := by
  rintro ⟨_, _, _, _, _, rfl⟩ ⟨_, _, _, _, _, rfl⟩
  exact ⟨_, _, _, _, _, rfl⟩

theorem Mod.armStream_arms (m : Mod) (i : Nat) (d : StreamDesc) : m.Arms (m.armStream i d) := by
  unfold Mod.armStream
  extract_lets cut n put
  clear_value cut
  have hn : m.Arms n := by
    unfold n
    split
    · exact ⟨_, _, _, _, _, rfl⟩
    · exact .refl m
  have hput : ∀ k st h, Mod.Arms k (put k st h) := fun k st h => ⟨_, _, _, _, _, rfl⟩
  clear_value put n
  refine hn.trans ?_
  split
  · exact hput _ _ _
  · split
    · exact hput _ _ _
    · split
      · exact Mod.Arms.trans ⟨_, _, _, _, _, rfl⟩ (hput _ _ _)
      · exact hput _ _ _

theorem Mod.armStreams_arms (m : Mod) : m.Arms m.armStreams := by
  unfold Mod.armStreams
  split
  · exact List.foldlRecOn _ _ (Mod.Arms.refl m) (fun n hn e _ => hn.trans (n.armStream_arms _ _))
  · exact .refl m

theorem Mod.openVersions_arms (m : Mod) : m.Arms m.openVersions := by
  unfold Mod.openVersions
  split
  · exact ⟨_, _, _, _, _, rfl⟩
  · exact .refl m

/-- What an armed round keeps, and its attempt and serial (spec 03, R98; spec 04, R135). -/
structure Mod.Armed (m n : Mod) : Prop where
  ctl : n.ctl = m.ctl
  plan : n.plan = m.plan
  fab : n.fab = m.fab
  out : n.out = m.out
  attempt : n.run.attempt = 0
  serial : n.run.serial = if m.plan.reopen then m.run.serial else m.plan.opened + 1

/-- A round is armed once its round-local state is reset, its versions bound and its streams armed. -/
theorem Mod.arming_armed {m n : Mod} (h : m.OffRound n) :
    m.Armed (((n.resetRun 0 (if m.plan.reopen then n.run.serial else n.plan.opened + 1)).openVersions).armStreams) := by
  obtain ⟨_, _, _, _, _, rfl⟩ := h
  obtain ⟨_, _, _, _, _, ha⟩ := (Mod.openVersions_arms _).trans (Mod.armStreams_arms _)
  rw [ha]
  exact ⟨rfl, rfl, rfl, rfl, rfl, rfl⟩

/-! ### Barriers and round start (spec 03, R99, R110; spec 10, R338) -/

/-- A step at a barrier changes the arrival, the release time and the messages sent. -/
theorem Mod.barrierStep_eq (m : Mod) :
    ∃ a t o, m.barrierStep = { m with run := { m.run with arrived := a, release := t }, fab := { m.fab with out := o } } := by
  unfold Mod.barrierStep
  extract_lets ms below
  split
  · split
    · exact ⟨_, _, _, rfl⟩
    · exact ⟨_, _, _, rfl⟩
  · exact ⟨_, _, _, rfl⟩

/-- Away from a barrier there is no step. -/
theorem Mod.barrierStep_away {m : Mod} (h : m.run.phase.atBarrier = false) : m.barrierStep = m := by
  simp [Mod.barrierStep, h]

/-- Without early packets and waiting flag messages there is nothing to release. -/
theorem Mod.releaseEarly_none {m : Mod} (he : m.fab.early = []) (hf : m.fab.flagWait = []) : m.releaseEarly = m := by
  have hm : ({ m with fab := { m.fab with early := [], flagWait := [] } } : Mod) = m := by
    obtain ⟨_, _, _, _, _, _, _, _, _, _, _, _, _, _, _, _, _, ⟨⟩, _, _, _, _⟩ := m
    cases he; cases hf; rfl
  calc m.releaseEarly = { m with fab := { m.fab with early := [], flagWait := [] } } := by
        simp [Mod.releaseEarly, Mod.applyFlags, he, hf]
    _ = m := hm

/-- A latched admission changes the step registers alone (spec 12, R377). -/
theorem Mod.latchStep_eq (m : Mod) : ∃ x, m.latchStep = { m with step := x } := by
  unfold Mod.latchStep
  split
  · exact ⟨_, rfl⟩
  · exact ⟨_, rfl⟩

/-- Round start, where nothing came early: the round runs from the given time (spec 03, R99). -/
theorem Mod.startRound_eq {m : Mod} (he : m.fab.early = []) (hf : m.fab.flagWait = []) (t : Nat) :
    ∃ x o, m.startRound t = { m with
      step := x, plan := { m.plan with opened := o, reopen := false, haltKind := 0 },
      run := { m.run with phase := .run, start := t, arrivals := [], release := none, arrived := false },
      fab := { m.fab with sentTo := [], seenFrom := [], sentRecords := 0 } } := by
  unfold Mod.startRound
  extract_lets +onlyGivenNames gated n p k
  have hn : ∃ x, n = { m with step := x } := by
    unfold n
    split
    · exact m.latchStep_eq
    · exact ⟨m.step, rfl⟩
  clear_value n
  obtain ⟨x, rfl⟩ := hn
  have hk : ∃ o, k = { m with step := x, plan := { m.plan with opened := o } } := by
    unfold k
    split
    · exact ⟨m.plan.opened, rfl⟩
    · exact ⟨_, rfl⟩
  obtain ⟨o, hk⟩ := hk
  refine ⟨x, o, ?_⟩
  rw [hk]
  exact Mod.releaseEarly_none he hf

/-! ### The open -/

/-- What an open keeps, if no packet or flag message came early: the module's state, the plan that runs and its pending halts;
it hands nothing over. -/
structure Mod.Opens (m n : Mod) : Prop where
  out : n.out = m.out
  ctl : n.ctl = m.ctl
  st : n.plan.st = m.plan.st
  plan : n.plan.plan = m.plan.plan
  halts : n.plan.halts = m.plan.halts

theorem Mod.Opens.refl (m : Mod) : m.Opens m := ⟨rfl, rfl, rfl, rfl, rfl⟩

theorem Mod.Opens.trans {m n k : Mod} (h : m.Opens n) (h' : n.Opens k) : m.Opens k :=
  ⟨h'.out.trans h.out, h'.ctl.trans h.ctl, h'.st.trans h.st, h'.plan.trans h.plan, h'.halts.trans h.halts⟩

theorem Mod.Armed.opens {m n : Mod} (h : m.Armed n) : m.Opens n :=
  ⟨h.out, h.ctl, congrArg _ h.plan, congrArg _ h.plan, congrArg _ h.plan⟩

theorem Mod.startRound_opens {m : Mod} (he : m.fab.early = []) (hf : m.fab.flagWait = []) (t : Nat) :
    m.Opens (m.startRound t) := by
  obtain ⟨x, o, h⟩ := Mod.startRound_eq he hf t
  rw [h]
  exact ⟨rfl, rfl, rfl, rfl, rfl⟩

/-- A round that comes to a barrier. -/
theorem Mod.toBarrier_opens (m : Mod) (ph : Phase) : m.Opens (Mod.barrierStep { m with run := { m.run with phase := ph } }) := by
  obtain ⟨a, t, o, h⟩ := Mod.barrierStep_eq { m with run := { m.run with phase := ph } }
  rw [h]
  exact ⟨rfl, rfl, rfl, rfl, rfl⟩

/-- An open by its cases: an armed round that comes to a barrier, or that starts at once where it needs none. -/
theorem Mod.openNow_cases (m : Mod) (r : RoundHdr) : ∃ n, m.Armed n ∧
    ((∃ ph, m.openNow r = Mod.barrierStep { n with run := { n.run with phase := ph } }
        ∧ (m.plan.reopen = true ∨ r.barrierFlag = true))
      ∨ m.openNow r = n.startRound n.fab.time) := by
  unfold Mod.openNow
  extract_lets again n k domain
  have hk : m.Armed k := Mod.arming_armed (m.openHook_offRound.trans m.openHook.applyIntervals_offRound)
  refine ⟨k, hk, ?_⟩
  have hagain : again = m.plan.reopen := rfl
  clear_value again k domain
  split
  next h =>
    split
    · exact .inl ⟨.implicit, rfl, .inl (hagain ▸ h)⟩
    · exact .inr rfl
  next =>
    split
    next hb =>
      split
      · exact .inl ⟨.barrier, rfl, .inr hb⟩
      · exact .inr rfl
    · exact .inr rfl

/-- An open without a barrier starts the round at once (spec 03, R99). -/
theorem Mod.openNow_starts {m : Mod} {r : RoundHdr} (hb : r.barrierFlag = false) (hr : m.plan.reopen = false) :
    ∃ n, m.Armed n ∧ m.openNow r = n.startRound n.fab.time := by
  obtain ⟨n, hn, ⟨_, -, h⟩ | h⟩ := m.openNow_cases r
  · simp [hb, hr] at h
  · exact ⟨n, hn, h⟩

theorem Mod.openNow_opens {m : Mod} (he : m.fab.early = []) (hf : m.fab.flagWait = []) (r : RoundHdr) :
    m.Opens (m.openNow r) := by
  obtain ⟨n, hn, ⟨ph, h, -⟩ | h⟩ := m.openNow_cases r <;> rw [h]
  · exact hn.opens.trans (n.toBarrier_opens ph)
  · exact hn.opens.trans (Mod.startRound_opens (by rw [hn.fab, he]) (by rw [hn.fab, hf]) _)

/-- Waits that are counted change the counters and the round alone. -/
theorem Mod.countWait_eq (m : Mod) (k : Nat) : ∃ c e, m.countWait k =
    { m with cnt := c, run := { m.run with
      events := e, waitsSeen := if k ∈ m.run.waitsSeen then m.run.waitsSeen else m.run.waitsSeen ++ [k] } } := by
  unfold Mod.countWait
  split
  next h => exact ⟨_, _, rfl⟩
  next h =>
    dsimp only
    split
    · exact ⟨_, _, rfl⟩
    · split
      · exact ⟨_, _, rfl⟩
      · split
        · exact ⟨_, _, rfl⟩
        · exact ⟨_, _, rfl⟩

/-- An open that waits keeps waiting, each wait marked (spec 03, R98). -/
structure Mod.Waits (m n : Mod) : Prop extends m.Opens n where
  plan_all : n.plan = m.plan
  phase : n.run.phase = m.run.phase
  seen : ∀ k ∈ m.run.waitsSeen, k ∈ n.run.waitsSeen

theorem Mod.countWait_waits (m : Mod) (k : Nat) : m.Waits (m.countWait k) ∧ k ∈ (m.countWait k).run.waitsSeen := by
  obtain ⟨c, e, h⟩ := m.countWait_eq k
  rw [h]
  refine ⟨⟨⟨rfl, rfl, rfl, rfl, rfl⟩, rfl, rfl, fun j hj => ?_⟩, ?_⟩
  all_goals dsimp only; split <;> simp [*]

theorem Mod.countWaits_waits : ∀ (ws : List Nat) (m : Mod),
    m.Waits (ws.foldl Mod.countWait m) ∧ ∀ k ∈ ws, k ∈ (ws.foldl Mod.countWait m).run.waitsSeen
  | [], m => ⟨⟨.refl m, rfl, rfl, fun _ h => h⟩, by simp⟩
  | w :: ws, m => by
    obtain ⟨hw, hin⟩ := m.countWait_waits w
    obtain ⟨hws, hall⟩ := Mod.countWaits_waits ws (m.countWait w)
    refine ⟨⟨hw.toOpens.trans hws.toOpens, hws.plan_all.trans hw.plan_all, hws.phase.trans hw.phase,
      fun k hk => hws.seen k (hw.seen k hk)⟩, ?_⟩
    intro k hk
    obtain rfl | hk := List.mem_cons.1 hk
    · exact hws.seen _ hin
    · exact hall k hk

/-! ### ROUND_OPEN by its cases (spec 03, R92, R98) -/

theorem Mod.tryOpen_away {m : Mod} (h : m.run.phase ≠ .waiting) : m.tryOpen = m := by simp [Mod.tryOpen, h]

/-- A pending PLAN_HALT halts the module instead. -/
theorem Mod.tryOpen_halts {m : Mod} {r : RoundHdr} (hw : m.run.phase = .waiting) (hs : m.ctl.state = .running)
    (hl : m.ctl.refLost = false) (hr : m.hdr = some r) (hh : m.plan.halts ≠ []) :
    m.tryOpen = Mod.enterHalted { m with run := { m.run with phase := .none } } (if m.plan.reopen then 2 else 1) Op.planHalt 0 := by
  simp [Mod.tryOpen, hw, hs, hl, hr, hh]

/-- Nothing holds the open back but its waits. -/
theorem Mod.tryOpen_ready {m : Mod} {r : RoundHdr} (hw : m.run.phase = .waiting) (hs : m.ctl.state = .running)
    (hl : m.ctl.refLost = false) (hr : m.hdr = some r) (hh : m.plan.halts = []) (hg : m.gateShut = false) :
    m.tryOpen = if m.openWaits = [] then m.openNow r else m.openWaits.foldl Mod.countWait m := by
  simp [Mod.tryOpen, hw, hs, hl, hr, hh, hg]

/-- With no PLAN_HALT pending, and nothing early, an open attempted keeps the plan running and hands nothing over. -/
theorem Mod.tryOpen_opens {m : Mod} (hh : m.plan.halts = []) (he : m.fab.early = []) (hf : m.fab.flagWait = []) :
    m.Opens m.tryOpen := by
  unfold Mod.tryOpen
  split
  · split
    · exact .refl m
    · split
      next h => exact absurd hh h
      · split
        · exact .refl m
        · dsimp only
          split
          · exact Mod.openNow_opens he hf _
          · exact (Mod.countWaits_waits _ m).1.toOpens
  · exact .refl m

end Sys2Proof.Machine

/-! PROOFS. Commands and events whose effect stops nothing: what the host sees of them. -/
namespace Sys2Proof.Machine

/-! ### Commands of a ring -/

/-- The module that a command finds: the last messages are gone, and the owner's idle time may have begun again. -/
theorem State.found_eq (s : State) (h : Cmd) :
    ∃ a b, s.found h = { s.m.fresh with ctl := { s.m.ctl with lapsed := a, ownerIdleMs := b } } := by
  unfold State.found Mod.renew
  split
  · exact ⟨_, _, rfl⟩
  · exact ⟨s.m.ctl.lapsed, s.m.ctl.ownerIdleMs, rfl⟩

/-- A command without a buffer and without an illegal parameter passes its parameter check. -/
theorem plainParams_none {h : Cmd} (hb : noBuffer h = true) {bad : Bool} (hbad : bad = false) (m : Mod) :
    plainParams h bad m = none := by simp [plainParams, hb, hbad]

/-- What is left to show of a command that starts, whose checks pass and whose effect hands over attention bits and
completions alone: P of the state after its reply (spec 15, R470, R474). -/
theorem State.Starts.completes {i : Instr} {s : State} {h : Cmd} {c : CmdSpec} {P : State → Prop} {cls detail : Nat}
    {result : Bytes} {m : Mod} {b : Byte} {ks : List Reply} (hs : s.Starts h) (hx : exec i s = .next (runCmd h c s))
    (ha : s.accepts c.opcode) (ho : c.ownerOnly = true → s.m.ctl.owner = some h.port) (hres : c.reserved = false)
    (hforb : c.forbidden (s.found h) = false) (hpar : c.params (s.found h) = none)
    (hrun : c.run (s.found h) = ⟨cls, detail, result, m⟩) (hcls : cls = Cls.ok ∨ cls = Cls.accepted)
    (hout : m.out = { Outbox.empty with attn := b, completions := ks }) (hks : ∀ r ∈ ks, r.cls ≠ Cls.rejected)
    (hP : ∀ t, Answered s t h b [] c.opcode cls detail result ks → t.m = { m with out := Outbox.empty } → P t) :
    Completes i s P := by
  have hrej : cls ≠ Cls.rejected := by rcases hcls with e | e <;> rw [e] <;> decide
  have hbusy : cls ≠ Cls.busy := by rcases hcls with e | e <;> rw [e] <;> decide
  obtain ⟨hans, hm⟩ := runCmd_runs hs hres (by simpa using ho) hforb hpar (by simpa using ha.1) (by simpa using ha.2) hrun
    hrej hbusy (by dsimp only; rw [hout]; exact ⟨hks, rfl, rfl, rfl⟩) (by dsimp only; rw [hout]; rfl) (by dsimp only; rw [hout]; rfl)
  dsimp only at hans
  rw [hout] at hans
  exact ⟨_, hx, hP _ hans hm⟩

/-- The same of a command that hands nothing over but its reply. -/
theorem State.Starts.replies {i : Instr} {s : State} {h : Cmd} {c : CmdSpec} {cls : Nat} {result : Bytes} {m : Mod}
    (hs : s.Starts h) (hx : exec i s = .next (runCmd h c s)) (ha : s.accepts c.opcode)
    (ho : c.ownerOnly = true → s.m.ctl.owner = some h.port) (hres : c.reserved = false)
    (hforb : c.forbidden (s.found h) = false) (hpar : c.params (s.found h) = none)
    (hrun : c.run (s.found h) = ⟨cls, Detail.none, result, m⟩) (hcls : cls = Cls.ok ∨ cls = Cls.accepted)
    (hout : m.out = s.m.out) : Replies i s h 0 [] c.opcode cls result m := by
  have hq : m.out = Outbox.empty := hout.trans hs.quiet
  exact hs.completes hx ha ho hres hforb hpar hrun hcls (b := 0) (ks := []) hq (by simp)
    (fun t hans hm => ⟨hans, hm.trans (by rw [← hq])⟩)

/-- What is left to show of an accepted command, whatever its effect hands over, where P speaks of these parts of the module
alone. -/
theorem State.Starts.completes_fields {i : Instr} {s : State} {h : Cmd} {c : CmdSpec} {P : State → Prop} {m : Mod} {result : Bytes}
    (hs : s.Starts h) (hx : exec i s = .next (runCmd h c s)) (ha : s.accepts c.opcode)
    (ho : c.ownerOnly = true → s.m.ctl.owner = some h.port) (hres : c.reserved = false)
    (hforb : c.forbidden (s.found h) = false) (hpar : c.params (s.found h) = none)
    (hrun : c.run (s.found h) = Ans.accepted m result)
    (hP : ∀ t, t.m.ctl = m.ctl → t.m.plan = m.plan → t.m.run = m.run → P t) : Completes i s P := by
  have hjudge : (c.judge h (s.found h)).guard c.opcode (s.found h) = Ans.accepted m result := by
    rw [CmdSpec.judge_run hs.reserved hres (by simpa using ho) hforb hpar (by simpa using ha.1) (by simpa using ha.2), hrun]
    rfl
  refine ⟨_, hx, ?_⟩
  rw [runCmd_starts hs, hjudge]
  exact hP _ (State.flush_ctl _) (State.flush_plan _) (State.flush_run _)

/-! ### Events -/

/-- What the host sees of an event that hands over attention bits, host writes and completions of any class. -/
theorem State.event_hands_over {s : State} {f : Mod → Mod} {a : Byte} {ws : List HostWrite} {ks : List Reply}
    (ho : (f s.m.fresh).out = { Outbox.empty with attn := a, host := ws, completions := ks }) :
    Observed s (s.event f) a ws ks := by
  have hio : (s.event f).io = (ks.foldl HostIo.putCompletion
      ((s.io.attend { Outbox.empty with attn := a }).store ws)).settle (f s.m.fresh).out := by
    show HostIo.settle _ _ = _
    rw [ho]; rfl
  exact ⟨rfl, hio.trans (HostIo.settle_plain _ (by rw [ho]; rfl) (by rw [ho]; rfl) (by rw [ho]; rfl))⟩

/-- What the host sees of an event that hands nothing over. -/
theorem State.Quiet.observed {s : State} {f : Mod → Mod} (hq : s.Quiet) (ho : (f s.m.fresh).out = s.m.out) :
    Observed s (s.event f) 0 [] [] :=
  State.event_observed (ks := []) (ho.trans hq)

/-- An event that hands nothing over. -/
theorem State.Quiet.happens {i : Instr} {s : State} {f : Mod → Mod} {m : Mod} (hq : s.Quiet)
    (hx : exec i s = .next (s.event f)) (hf : f s.m.fresh = m) (ho : m.out = s.m.out) : Happens i s 0 [] m := by
  have hm : m.out = Outbox.empty := ho.trans hq
  have hf' : (f s.m.fresh).out = { Outbox.empty with attn := 0, completions := [] } := by rw [hf, hm]; rfl
  refine ⟨_, hx, State.event_observed hf', ?_⟩
  rw [State.event_m hf', hf, ← hm]

/-- A completion alone, in a module that hands over nothing else. -/
theorem Mod.complete_out_quiet {m : Mod} (hm : m.out = Outbox.empty) (t : Ticket) (op cls d : Nat) (r : Bytes) :
    (m.complete t op cls d r).out = { Outbox.empty with completions := [⟨t.port, t.tag, op, cls, d, r⟩] } := by
  rw [Mod.complete, hm]; rfl

/-- An event that hands over one completion, not REJECTED. -/
theorem State.Quiet.happens_complete {i : Instr} {s : State} {f : Mod → Mod} {m : Mod} {t : Ticket} {op cls d : Nat} {r : Bytes}
    (hq : s.Quiet) (hx : exec i s = .next (s.event f)) (hf : f s.m.fresh = m.complete t op cls d r) (ho : m.out = s.m.out)
    (hc : cls ≠ Cls.rejected) : Happens i s 0 [⟨t.port, t.tag, op, cls, d, r⟩] m := by
  have hm : m.out = Outbox.empty := ho.trans hq
  have hout : (f s.m.fresh).out = { Outbox.empty with attn := 0, completions := [⟨t.port, t.tag, op, cls, d, r⟩] } := by
    rw [hf]; exact Mod.complete_out_quiet hm t op cls d r
  have hk : ∀ k ∈ [(⟨t.port, t.tag, op, cls, d, r⟩ : Reply)], k.cls ≠ Cls.rejected := by simpa using hc
  refine ⟨_, hx, State.event_observed hout hk, ?_⟩
  rw [State.event_m hout hk, hf, ← hm]
  rfl

end Sys2Proof.Machine

/-! PROOFS. Halts and exports that end: what they hand over. -/
namespace Sys2Proof.Machine

/-- The completions of several commands, in their order. -/
theorem Mod.complete_all (op cls d : Nat) : ∀ (ts : List Ticket) (m : Mod),
    ts.foldl (fun m t => m.complete t op cls d []) m
      = { m with out := { m.out with
          completions := m.out.completions ++ ts.map (fun t => ⟨t.port, t.tag, op, cls, d, []⟩) } }
  | [], m => by simp
  | t :: ts, m => by
    rw [List.foldl_cons, Mod.complete_all op cls d ts]
    simp [Mod.complete]

/-- Module and plan are HALTED with a halt_kind, and every pending PLAN_HALT completes (spec 03, R92). -/
structure Mod.Halts (kind : Nat) (m n : Mod) : Prop where
  state : n.ctl.state = .halted
  st : n.plan.st = .halted
  halts : n.plan.halts = []
  haltKind : n.plan.haltKind = kind
  out : n.out = { m.out with
    completions := m.out.completions ++ m.plan.halts.map (fun t => ⟨t.port, t.tag, Op.planHalt, Cls.ok, Detail.none, []⟩) }

theorem Mod.enterHalted_halts (m : Mod) (kind opcode detail : Nat) :
    Mod.Halts kind m (m.enterHalted kind opcode detail) ∧ (m.enterHalted kind opcode detail).run = m.run := by
  unfold Mod.enterHalted
  extract_lets done n p k
  obtain ⟨_, _, _, _, _, h⟩ := Mod.quiesce_offRound (done.foldl (fun m t => m.complete t Op.planHalt Cls.ok Detail.none []) k)
  rw [h, Mod.complete_all]
  exact ⟨⟨by simp [k, n], rfl, rfl, rfl, by simp [k, n, done]⟩, by simp [k, n]⟩

/-- A round that waits to open gives way to the halt. -/
theorem Mod.haltWaiting_halts (m : Mod) (kind opcode detail : Nat) :
    Mod.Halts kind m (Mod.enterHalted { m with run := { m.run with phase := .none } } kind opcode detail)
      ∧ (Mod.enterHalted { m with run := { m.run with phase := .none } } kind opcode detail).run.phase = .none := by
  obtain ⟨h, hrun⟩ := Mod.enterHalted_halts { m with run := { m.run with phase := .none } } kind opcode detail
  exact ⟨⟨h.state, h.st, h.halts, h.haltKind, h.out⟩, by rw [hrun]⟩

/-- An export that ends as truncated hands over ATTN_LOG and its PARTIAL completion, and leaves plan, round and state
(spec 12, R403, R406). -/
structure Mod.Truncates (x : Export) (m n : Mod) : Prop where
  ctl : n.ctl = m.ctl
  plan : n.plan = m.plan
  run : n.run = m.run
  fab : n.fab = m.fab
  out : n.out = { m.out with
    attn := m.out.attn ||| Attn.log,
    completions := m.out.completions
      ++ [⟨x.ticket.port, x.ticket.tag, Op.snapshotExport, Cls.part, Detail.streamTruncated, []⟩] }

theorem Mod.truncateExport_truncates (m : Mod) (x : Export) : Mod.Truncates x m (m.truncateExport x) := by
  unfold Mod.truncateExport
  constructor <;> simp [Mod.setCtx, Mod.complete]

/-- Suspects raised change the counters and the records held for the fabric alone (spec 10, R343). -/
theorem Mod.raiseSuspects_keeps (m : Mod) (who : List Nat) (cls : SuspectClass) (d : Nat) :
    (m.raiseSuspects who cls d).out = m.out ∧ (m.raiseSuspects who cls d).run = m.run
      ∧ (m.raiseSuspects who cls d).plan = m.plan := by
  have hone : ∀ (m : Mod) (r : Suspect), ∃ f, m.holdSuspect r = { m with fab := f } := by
    intro m r
    unfold Mod.holdSuspect
    split
    · exact ⟨_, rfl⟩
    · exact ⟨_, rfl⟩
  have hkeep : ∀ (m : Mod) (w : Nat), ∃ f c, m.raiseSuspect w cls d = { m with fab := f, cnt := c } := by
    intro m w
    obtain ⟨f, hf⟩ := hone m ⟨w, cls, m.reportSerial, m.fabricTime, Config.position, 1, d⟩
    exact ⟨f, _, by rw [Mod.raiseSuspect, hf]; rfl⟩
  refine ⟨foldl_keeps Mod.out ?_ who m, foldl_keeps Mod.run ?_ who m, foldl_keeps Mod.plan ?_ who m⟩
  all_goals
    intro m w
    obtain ⟨f, c, h⟩ := hkeep m w
    rw [h]

end Sys2Proof.Machine

/-! PROOFS. Rounds open at their barriers (O37). -/
namespace Sys2Proof.Machine

/-- A round that waits for nothing starts attempt 0 under the next serial (spec 03, R98, R99). -/
theorem Mod.tryOpen_starts {m : Mod} {r : RoundHdr} (hw : m.run.phase = .waiting) (hs : m.ctl.state = .running)
    (hl : m.ctl.refLost = false) (hr : m.hdr = some r) (hh : m.plan.halts = []) (hg : m.gateShut = false)
    (ho : m.openWaits = []) (hb : r.barrierFlag = false) (hre : m.plan.reopen = false) (he : m.fab.early = [])
    (hf : m.fab.flagWait = []) :
    m.tryOpen.run.phase = .run ∧ m.tryOpen.run.attempt = 0 ∧ m.tryOpen.run.serial = m.plan.opened + 1
      ∧ m.tryOpen.run.start = m.fab.time := by
  obtain ⟨n, hn, hopen⟩ := Mod.openNow_starts hb hre
  obtain ⟨x, o, hstart⟩ := Mod.startRound_eq (m := n) (by rw [hn.fab, he]) (by rw [hn.fab, hf]) n.fab.time
  rw [Mod.tryOpen_ready hw hs hl hr hh hg, if_pos ho, hopen, hstart]
  exact ⟨rfl, hn.attempt, by simp [hn.serial, hre], congrArg Fab.time hn.fab⟩

/-- The oldest export on the waiting round's version set ends as truncated, and the open is tried again (spec 12, R403). -/
theorem Mod.versionTimeout_truncates {m : Mod} {p : Plan} {r : RoundHdr} {y : Nat × VersionSet} {x : Export}
    (hw : m.run.phase = .waiting) (hs : m.ctl.state = .running) (h3 : 3 ∈ m.openWaits) (hp : m.plan.plan = some p)
    (hr : m.hdr = some r) (hy : p.updSet r = some y) (hx : m.oldestExport y.1 = some x) :
    m.versionTimeout = (m.truncateExport x).tryOpen := by
  simp [Mod.versionTimeout, hw, hs, h3, hp, hr, hy, hx]

/-- A barrier wait past its timeout is recorded, once, and goes on (spec 03, R110). -/
theorem Mod.barrierTimeout_records {m : Mod} (hb : m.run.phase.atBarrier = true) (hr : m.run.release = none)
    (ho : m.run.barrierOut = false) :
    m.barrierTimeout.out = { m.out with attn := m.out.attn ||| Attn.fault }
      ∧ m.barrierTimeout.run = { m.run with barrierOut := true } ∧ m.barrierTimeout.plan = m.plan := by
  unfold Mod.barrierTimeout
  rw [if_pos ⟨hb, hr, by simp [ho]⟩]
  extract_lets gone index r n
  obtain ⟨hout, hrun, hplan⟩ := Mod.raiseSuspects_keeps (n.timeoutRecord Detail.barrierTimeout index gone) gone .noBarrier n.barrierId
  rw [hout, hrun, hplan]
  exact ⟨Mod.report_out _ _, Mod.report_run _ _, Mod.report_plan _ _⟩

/-- An arrival that comes before the module waits at a barrier is held (spec 10, R338). -/
theorem Mod.barrierArrive_early {m : Mod} {x : BarrierMsg} (ho : m.ownBarrier x = true) (ha : m.run.phase.atBarrier = false)
    (hn : x.sender ∉ m.run.arrivals) :
    m.barrierArrive x = { m with run := { m.run with arrivals := x.sender :: m.run.arrivals } } := by
  simp only [Mod.barrierArrive, ho, ha, hn]
  exact Mod.barrierStep_away ha

/-- A release from the member above goes down the tree, any other is dropped; one that is not late waits for its time
(spec 10, R338). -/
theorem Mod.barrierRelease_waits {m : Mod} {x : BarrierMsg} {t : Nat} (ha : m.run.phase.atBarrier = true)
    (hd : m.run.arrived = true) (ho : m.ownBarrier x = true) (ht : m.fab.time ≤ t) :
    m.barrierRelease x t = if treeParent m.barrierMembers Config.position = some x.sender then
        ({ m with run := { m.run with release := some t } }).sendAll
          ((treeChildren m.barrierMembers Config.position).map (fun d => Sent.release d (m.barrierMsg 0) t))
      else m.dropEmber := by
  unfold Mod.barrierRelease
  by_cases hp : treeParent m.barrierMembers Config.position = some x.sender
  · rw [if_pos hp, if_pos (by simp [ha, hd, ho, hp])]
    exact if_neg (show ¬ t < m.fab.time by omega)
  · rw [if_neg hp, if_neg (by simp [hp])]

theorem Mod.dropEmber_out (m : Mod) : m.dropEmber.out = m.out := by
  unfold Mod.dropEmber
  split
  · rfl
  · rfl

/-- The round starts at the release time (spec 03, R99; spec 10, R338). -/
theorem Mod.releaseNow_starts {m : Mod} {t : Nat} (hr : m.run.release = some t) (ha : m.run.phase.atBarrier = true)
    (hs : m.ctl.state = .running) (he : m.fab.early = []) (hf : m.fab.flagWait = []) :
    m.releaseNow.out = m.out ∧ m.releaseNow.run.phase = .run ∧ m.releaseNow.run.start = t
      ∧ m.releaseNow.run.serial = m.run.serial ∧ m.releaseNow.run.attempt = m.run.attempt := by
  have hnow : m.releaseNow = Mod.startRound { m with fab := { m.fab with time := max m.fab.time t } } t := by
    simp [Mod.releaseNow, hr, ha, hs]
  obtain ⟨x, o, hstart⟩ := Mod.startRound_eq (m := { m with fab := { m.fab with time := max m.fab.time t } }) he hf t
  rw [hnow, hstart]
  exact ⟨rfl, rfl, rfl, rfl, rfl⟩

/-- Settles O37: ROUND_OPEN by the cases of `Mod.tryOpen`, the barrier's events each by its own lemma. -/
theorem roundsOpenAtTheirBarriers : Obligations.RoundsOpenAtTheirBarriers := by
  intro s hq hs hl he hf
  refine ⟨fun r hw hr => ⟨fun hh hg ho hb hre => ?_, fun hh hg ho => ?_, fun hh => ?_, fun p y x hh h3 hp hy hx => ?_⟩,
    fun hb hr ho => ?_, fun msg ho ha hn => ?_, fun msg t ha hd ho ht => ?_, fun t hr ha => ?_⟩
  · have hopen := Mod.tryOpen_opens (m := s.m.fresh) hh he hf
    obtain ⟨hphase, hattempt, hserial, hstart⟩ :=
      Mod.tryOpen_starts (m := s.m.fresh) hw hs hl hr hh hg ho hb hre he hf
    refine ⟨_, rfl, hq.observed hopen.out, ?_⟩
    rw [State.event_ctl, State.event_run, hopen.ctl]
    exact ⟨hs, hphase, hattempt, hserial, hstart⟩
  · have hopen : s.m.fresh.tryOpen = s.m.openWaits.foldl Mod.countWait s.m.fresh :=
      (Mod.tryOpen_ready (m := s.m.fresh) hw hs hl hr hh hg).trans (if_neg ho)
    obtain ⟨hwaits, hseen⟩ := Mod.countWaits_waits s.m.openWaits s.m.fresh
    rw [← hopen] at hwaits hseen
    refine ⟨_, rfl, hq.observed hwaits.out, ?_⟩
    simp only [State.event_plan, State.event_run]
    exact ⟨hwaits.plan_all, hwaits.phase.trans hw, hseen⟩
  · have hopen := Mod.tryOpen_halts (m := s.m.fresh) hw hs hl hr hh
    obtain ⟨hhalts, -⟩ := s.m.fresh.haltWaiting_halts (if s.m.fresh.plan.reopen then 2 else 1) Op.planHalt 0
    rw [← hopen] at hhalts
    refine ⟨_, rfl, State.event_hands_over (hhalts.out.trans ?_), ?_⟩
    · rw [show s.m.fresh.out = Outbox.empty from hq]; rfl
    · simp only [State.event_ctl, State.event_plan]
      exact ⟨hhalts.state, hhalts.st, hhalts.haltKind⟩
  · have hopen := Mod.versionTimeout_truncates (m := s.m.fresh) hw hs h3 hp hr hy hx
    have htr := s.m.fresh.truncateExport_truncates x
    have htry := Mod.tryOpen_opens (m := s.m.fresh.truncateExport x) (by rw [htr.plan]; exact hh) (by rw [htr.fab]; exact he)
      (by rw [htr.fab]; exact hf)
    rw [← hopen] at htry
    refine ⟨_, rfl, State.event_hands_over (htry.out.trans (htr.out.trans ?_)), ?_⟩
    · rw [show s.m.fresh.out = Outbox.empty from hq]; rfl
    · rw [State.event_ctl, htry.ctl, htr.ctl]; exact hs
  · obtain ⟨hout, hrun, hplan⟩ := Mod.barrierTimeout_records (m := s.m.fresh) hb hr ho
    refine ⟨_, rfl, State.event_hands_over (hout.trans ?_), ?_⟩
    · rw [show s.m.fresh.out = Outbox.empty from hq]; rfl
    · rw [State.event_run, State.event_plan]; exact ⟨hrun, hplan⟩
  · exact hq.happens rfl (Mod.barrierArrive_early (m := s.m.fresh) ho ha hn) rfl
  · refine hq.happens rfl (Mod.barrierRelease_waits (m := s.m.fresh) ha hd ho ht) ?_
    split
    · rfl
    · exact Mod.dropEmber_out _
  · obtain ⟨hout, hrest⟩ := Mod.releaseNow_starts (m := s.m.fresh) hr ha hs he hf
    refine ⟨_, rfl, hq.observed hout, ?_⟩
    rw [State.event_run]; exact hrest

end Sys2Proof.Machine

/-! PROOFS. Plans start, resume, halt and unload (O30). -/
namespace Sys2Proof.Machine

/-! ### What a command finds -/

theorem State.found_cannotRun (s : State) (h : Cmd) : (s.found h).cannotRun = s.m.cannotRun := by
  obtain ⟨_, _, hf⟩ := s.found_eq h; rw [hf]; rfl
theorem State.found_planMetByStream (s : State) (h : Cmd) : (s.found h).planMetByStream = s.m.planMetByStream := by
  obtain ⟨_, _, hf⟩ := s.found_eq h; rw [hf]; rfl
theorem State.found_usesFabric (s : State) (h : Cmd) : (s.found h).usesFabric = s.m.usesFabric := by
  obtain ⟨_, _, hf⟩ := s.found_eq h; rw [hf]; rfl
theorem State.found_lateWait (s : State) (h : Cmd) : (s.found h).lateWait = s.m.lateWait := by
  obtain ⟨_, _, hf⟩ := s.found_eq h; rw [hf]; rfl
theorem State.found_hdr (s : State) (h : Cmd) : (s.found h).hdr = s.m.hdr := by
  obtain ⟨_, _, hf⟩ := s.found_eq h; rw [hf]; rfl
theorem State.found_configured (s : State) (h : Cmd) : (s.found h).fab.configured = s.m.fab.configured := by
  obtain ⟨_, _, hf⟩ := s.found_eq h; rw [hf]; rfl
theorem State.found_early (s : State) (h : Cmd) : (s.found h).fab.early = s.m.fab.early := by
  obtain ⟨_, _, hf⟩ := s.found_eq h; rw [hf]; rfl
theorem State.found_flagWait (s : State) (h : Cmd) : (s.found h).fab.flagWait = s.m.fab.flagWait := by
  obtain ⟨_, _, hf⟩ := s.found_eq h; rw [hf]; rfl
theorem State.found_refLost (s : State) (h : Cmd) : (s.found h).ctl.refLost = s.m.ctl.refLost := by
  obtain ⟨_, _, hf⟩ := s.found_eq h; rw [hf]

/-! ### Replacements at PLAN_START (spec 01, R36; spec 10, R315, R342) -/

/-- Replacements leave the plan and what waits for its rounds; they hand over attention bits alone. -/
structure Mod.Replaces (m n : Mod) : Prop where
  plan : n.plan = m.plan
  early : n.fab.early = m.fab.early
  flagWait : n.fab.flagWait = m.fab.flagWait
  out : ∃ a, n.out = { m.out with attn := a }

theorem Mod.Replaces.refl (m : Mod) : m.Replaces m := ⟨rfl, rfl, rfl, m.out.attn, rfl⟩

theorem Mod.Replaces.trans {m n k : Mod} (h : m.Replaces n) (h' : n.Replaces k) : m.Replaces k := by
  obtain ⟨a, ha⟩ := h.out
  obtain ⟨b, hb⟩ := h'.out
  exact ⟨h'.plan.trans h.plan, h'.early.trans h.early, h'.flagWait.trans h.flagWait, b, by rw [hb, ha]⟩

theorem Mod.Replaces.foldl {α : Type} {f : Mod → α → Mod} (hf : ∀ m a, Mod.Replaces m (f m a)) (l : List α) (m : Mod) :
    m.Replaces (l.foldl f m) :=
  List.foldlRecOn l f (Mod.Replaces.refl m) (fun n hn a _ => hn.trans (hf n a))

theorem Mod.setChan_replaces (m : Mod) (k : Nat) (f : Chan → Chan) : m.Replaces (m.setChan k f) :=
  ⟨rfl, rfl, rfl, m.out.attn, rfl⟩

theorem Mod.report_replaces (m : Mod) (r : Report) : m.Replaces (m.report r) :=
  ⟨by simp, by simp, by simp, m.out.attn ||| r.attn, by simp⟩

theorem Mod.restoreChannel_replaces (m : Mod) (k : Nat) : m.Replaces (m.restoreChannel k) := by
  unfold Mod.restoreChannel
  extract_lets +onlyGivenNames c
  split
  · refine ((m.setChan_replaces k _).trans (Mod.Replaces.foldl (fun n s => ?_) _ _)).trans (Mod.report_replaces _ _)
    split
    · exact n.setChan_replaces s _
    · exact .refl n
  · exact .refl m

theorem Mod.takeRole_replaces (m : Mod) (k : Nat) : m.Replaces (m.takeRole k) := by
  unfold Mod.takeRole
  split
  · extract_lets c
    split
    · exact m.setChan_replaces k _
    · exact .refl m
  · exact .refl m

theorem Mod.formCore_replaces (m : Mod) (c : Nat) : m.Replaces (m.formCore c) := ⟨rfl, rfl, rfl, m.out.attn, rfl⟩

theorem Mod.replaceUnits_replaces (m : Mod) : m.Replaces m.replaceUnits := by
  unfold Mod.replaceUnits
  extract_lets waits recs u n k moved
  have hk : m.Replaces k :=
    Mod.Replaces.trans (n := n) ⟨rfl, rfl, rfl, m.out.attn, rfl⟩ (Mod.Replaces.foldl Mod.formCore_replaces _ n)
  clear_value k moved waits
  split
  · exact hk.trans ⟨rfl, rfl, rfl, k.out.attn, rfl⟩
  · exact hk

theorem Mod.replaceAll_replaces (m : Mod) : m.Replaces m.replaceAll := by
  unfold Mod.replaceAll
  extract_lets n took
  have hn : m.Replaces n :=
    (m.replaceUnits_replaces.trans (Mod.Replaces.foldl Mod.restoreChannel_replaces _ _)).trans
      (Mod.Replaces.foldl Mod.takeRole_replaces _ _)
  clear_value took n
  split
  · exact hn.trans ⟨rfl, rfl, rfl, n.out.attn, rfl⟩
  · exact hn

/-! ### PLAN_START and PLAN_RESUME (spec 03, R91) -/

/-- The module runs the plan that it held, with no PLAN_HALT pending. -/
structure Mod.Runs (m n : Mod) : Prop where
  state : n.ctl.state = .running
  st : n.plan.st = .running
  plan : n.plan.plan = m.plan.plan
  halts : n.plan.halts = []

theorem Mod.Runs.opens {m n k : Mod} (h : m.Runs n) (ho : n.Opens k) : m.Runs k :=
  ⟨by rw [ho.ctl, h.state], ho.st.trans h.st, ho.plan.trans h.plan, ho.halts.trans h.halts⟩

/-- An open that is tried keeps a plan running that runs, and hands nothing over. -/
theorem Mod.Runs.tryOpen {m x : Mod} (h : m.Runs x) (he : x.fab.early = []) (hf : x.fab.flagWait = []) :
    m.Runs x.tryOpen ∧ x.tryOpen.out = x.out := by
  have hopen := Mod.tryOpen_opens h.halts he hf
  exact ⟨h.opens hopen, hopen.out⟩

theorem Mod.planStart_runs {m : Mod} (he : m.fab.early = []) (hf : m.fab.flagWait = []) :
    m.Runs m.planStart ∧ ∃ a, m.planStart.out = { m.out with attn := a } := by
  unfold Mod.planStart
  extract_lets n k l p r q x
  have hn : m.Replaces n := m.replaceAll_replaces
  clear_value n
  obtain ⟨hplan, hearly, hflag, a, hout⟩ := hn
  have hx : m.Runs x := ⟨by simp [x, l, k], rfl, by simp [x, p, l, k, hplan], rfl⟩
  obtain ⟨hruns, ho⟩ := hx.tryOpen (by simp [x, l, k, hearly, he]) (by simp [x, l, k, hflag, hf])
  exact ⟨hruns, a, ho.trans (Eq.trans (by simp [x, l, k]) hout)⟩

theorem Mod.finiteGate_eq (m : Mod) : ∃ r x, m.finiteGate = { m with run := r, step := x } := by
  unfold Mod.finiteGate
  split
  · split
    · split
      · split
        · exact ⟨_, _, rfl⟩
        · exact ⟨m.run, m.step, rfl⟩
      · exact ⟨m.run, m.step, rfl⟩
    · exact ⟨m.run, m.step, rfl⟩
  · exact ⟨m.run, m.step, rfl⟩

/-- The gates of a settle change the round and the step registers alone (spec 04, R132). -/
theorem Mod.tryGates_opens (m : Mod) : m.Opens m.tryGates := by
  obtain ⟨r, x, h⟩ := m.finiteGate_eq
  unfold Mod.tryGates
  split
  · rw [h]; exact ⟨rfl, rfl, rfl, rfl, rfl⟩
  · exact .refl m

theorem Mod.planResume_runs {m : Mod} (hr : m.hdr.isSome = true) (hh : m.plan.halts = []) (he : m.fab.early = [])
    (hf : m.fab.flagWait = []) : m.Runs m.planResume ∧ m.planResume.out = m.out := by
  unfold Mod.planResume
  split
  · extract_lets n p
    have hgate := Mod.tryGates_opens { n with plan := { p with st := .running, haltKind := 0 } }
    exact ⟨Mod.Runs.opens ⟨by simp [n], rfl, by simp [p, n], by simp [p, n, hh]⟩ hgate, hgate.out.trans (by simp [n])⟩
  · rw [if_neg (by simpa [← Option.isSome_iff_ne_none] using hr)]
    extract_lets n p r
    refine And.imp_right (fun h => h.trans (by simp [n])) (Mod.Runs.tryOpen ⟨?_, rfl, ?_, ?_⟩ ?_ ?_)
    all_goals simp [p, n, hh, he, hf]

/-- What is handed over is no part of it. -/
theorem Mod.Runs.handOver {m n : Mod} (h : m.Runs n) (o : Outbox) : m.Runs { n with out := o } :=
  ⟨h.state, h.st, h.plan, h.halts⟩

/-! ### PLAN_HALT (spec 03, R92; spec 04, R137) -/

/-- In a run phase without a late wait it stays pending. -/
theorem Mod.planHalt_pending {m : Mod} (hp : m.run.phase = .run) (hl : m.lateWait = false) (t : Ticket) :
    m.planHalt t = { m with plan := { m.plan with halts := m.plan.halts ++ [t] } } := by
  have hlate : Mod.lateWait { m with plan := { m.plan with halts := m.plan.halts ++ [t] } } = false := hl
  simp [Mod.planHalt, hp, hlate]

/-- While a round waits to open it halts at once. -/
theorem Mod.planHalt_waiting {m : Mod} (hp : m.run.phase = .waiting) (t : Ticket) :
    Mod.Halts (if m.plan.reopen then 2 else 1) { m with plan := { m.plan with halts := m.plan.halts ++ [t] } } (m.planHalt t)
      ∧ (m.planHalt t).run.phase = .none := by
  have hnow : m.planHalt t = Mod.enterHalted { m with
      plan := { m.plan with halts := m.plan.halts ++ [t] }, run := { m.run with phase := .none } }
      (if m.plan.reopen then 2 else 1) Op.planHalt 0 := by
    simp only [Mod.planHalt, hp]
  obtain ⟨h, hrun⟩ := Mod.enterHalted_halts { m with
      plan := { m.plan with halts := m.plan.halts ++ [t] }, run := { m.run with phase := .none } }
      (if m.plan.reopen then 2 else 1) Op.planHalt 0
  rw [hnow]
  exact ⟨⟨h.state, h.st, h.halts, h.haltKind, h.out⟩, by rw [hrun]⟩

/-! ### PLAN_UNLOAD (spec 03, R91) -/

/-- An unload leaves READY with no plan, and owes its completion. -/
theorem Mod.planUnload_unloads (m : Mod) (t : Ticket) :
    (m.planUnload t).ctl.state = .ready ∧ (m.planUnload t).plan.st = .none ∧ (m.planUnload t).plan.plan = none
      ∧ (m.planUnload t).run = Run.idle ∧ (m.planUnload t).plan.unload = some t := by
  unfold Mod.planUnload
  extract_lets n k p b x
  have hst : k.plan.st = .none := rfl
  have hplan : k.plan.plan = none := rfl
  have hrun : k.run = Run.idle := rfl
  split
  next h => exact ⟨h, hst, hplan, hrun, rfl⟩
  · rw [Mod.moveTo_ctl, Mod.moveTo_plan, Mod.moveTo_run]
    exact ⟨rfl, hst, hplan, hrun, rfl⟩

/-- Settles O30: each command by the lemma about its effect. -/
theorem plansStartHaltAndUnload : Obligations.PlansStartHaltAndUnload := by
  intro s h hs hown hb ticket running
  refine ⟨fun ha hst hpl hc hrf hfab hrl hmet he hf => ?_, fun ha hst hpl hc hmet hr hh he hf => ?_,
    fun ha hst hp hl => ?_, fun ha hst hp => ?_, fun ha hst hpl => ?_, fun w hw => ?_⟩
  · obtain ⟨hruns, a, hout⟩ := Mod.planStart_runs (m := s.found h) (by rw [s.found_early, he]) (by rw [s.found_flagWait, hf])
    refine hs.completes (b := a) (ks := []) rfl ha (fun _ => hown) rfl rfl (plainParams_none hb rfl (s.found h))
      ((if_neg ?_).trans (if_neg ?_)) (.inl rfl) (hout.trans (by rw [s.found_out, hs.quiet]; rfl)) (by simp) ?_
    · simp [hst, hpl, hc, hrf, s.found_cannotRun, s.found_usesFabric, s.found_configured]; exact hfab
    · simp [hrl, hmet, s.found_planMetByStream]
    · rintro t hans hm
      have ht := hruns.handOver Outbox.empty
      rw [← hm] at ht
      exact ⟨⟨ht.state, ht.st⟩, ht.halts, by rw [ht.plan, s.found_plan], a, hans⟩
  · obtain ⟨hruns, hout⟩ := Mod.planResume_runs (m := s.found h) (by rw [s.found_hdr, hr]) (by simpa using hh)
      (by rw [s.found_early, he]) (by rw [s.found_flagWait, hf])
    refine hs.completes (b := 0) (ks := []) rfl ha (fun _ => hown) rfl rfl (plainParams_none hb rfl (s.found h))
      ((if_neg ?_).trans (if_neg ?_)) (.inl rfl) (hout.trans (by rw [s.found_out, hs.quiet]; rfl)) (by simp) ?_
    · simp [hst, hpl, hc, s.found_cannotRun]
    · simp [hmet, s.found_planMetByStream]
    · rintro t hans hm
      have ht := hruns.handOver Outbox.empty
      rw [← hm] at ht
      exact ⟨⟨ht.state, ht.st⟩, by rw [ht.plan, s.found_plan], hans⟩
  · have heff := Mod.planHalt_pending (m := s.found h) (by simpa using hp) (by rw [s.found_lateWait, hl]) ⟨h.port, h.tag⟩
    rw [s.found_plan] at heff
    rw [← heff]
    exact (hs.replies (i := .planHalt h) rfl ha (fun _ => hown) rfl rfl (plainParams_none hb rfl (s.found h))
      (if_neg (by simp [hst])) (.inr rfl) ((congrArg Mod.out heff).trans (s.found_out h)) :)
  · obtain ⟨hhalts, hphase⟩ := Mod.planHalt_waiting (m := s.found h) (by simpa using hp) ⟨h.port, h.tag⟩
    refine hs.completes (b := 0) rfl ha (fun _ => hown) rfl rfl (plainParams_none hb rfl (s.found h))
      (if_neg (by simp [hst])) (.inr rfl)
      (ks := (s.m.plan.halts ++ [ticket]).map (fun t => ⟨t.port, t.tag, Op.planHalt, Cls.ok, Detail.none, []⟩)) ?_ ?_ ?_
    · rw [hhalts.out, s.found_plan, s.found_out, hs.quiet]; rfl
    · exact List.forall_mem_map.2 (fun _ _ => (by decide : Cls.ok ≠ Cls.rejected))
    · rintro t hans hm
      rw [hm]
      exact ⟨hans, hhalts.state, hhalts.st, hhalts.halts, by simpa using hhalts.haltKind, hphase⟩
  · obtain ⟨hstate, hst', hplan, hrun, hunload⟩ := (s.found h).planUnload_unloads ticket
    refine hs.completes_fields rfl ha (fun _ => hown) rfl rfl (plainParams_none hb rfl (s.found h)) (if_pos ?_)
      (fun t hctl' hplan' hrun' => ?_)
    · rw [s.found_state, s.found_plan]; exact ⟨hst, hpl⟩
    · rw [hctl', hplan', hrun']
      exact ⟨hstate, hst', hplan, hrun, hunload⟩
  · have hx : exec .planUnloadComplete s = .next (s.event (fun m =>
        ({ m with plan := { m.plan with unload := none } }).complete w Op.planUnload Cls.ok Detail.none [])) := by
      show execPlanUnloadComplete s = _
      rw [execPlanUnloadComplete, hw]
    exact State.Quiet.happens_complete hs.quiet hx rfl rfl (by decide)

end Sys2Proof.Machine

/-! PROOFS. Step admissions, group values and snapshot exports (O32). -/
namespace Sys2Proof.Machine

theorem State.found_holdsPlan (s : State) (h : Cmd) : (s.found h).holdsPlan = s.m.holdsPlan := by
  obtain ⟨_, _, hf⟩ := s.found_eq h; rw [hf]; rfl
theorem State.found_hasBody (s : State) (h : Cmd) : (s.found h).hasBody = s.m.hasBody := by
  obtain ⟨_, _, hf⟩ := s.found_eq h; rw [hf]; rfl
theorem State.found_exportBad (s : State) (h : Cmd) (set mode : Nat) :
    (s.found h).exportBad h set mode = s.m.exportBad h set mode := by
  obtain ⟨_, _, hf⟩ := s.found_eq h; rw [hf]; rfl
theorem State.found_oldestExport (s : State) (h : Cmd) (set : Nat) :
    (s.found h).oldestExport set = s.m.oldestExport set := by
  obtain ⟨_, _, hf⟩ := s.found_eq h; rw [hf]; rfl
theorem State.found_exportEntry (s : State) (h : Cmd) (set : Nat) : (s.found h).exportEntry set = s.m.exportEntry set := by
  obtain ⟨_, _, hf⟩ := s.found_eq h; rw [hf]; rfl
theorem State.found_cmdCtxs (s : State) (h : Cmd) (core : Nat) : (s.found h).cmdCtxs core = s.m.cmdCtxs core := by
  obtain ⟨_, _, hf⟩ := s.found_eq h; rw [hf]; rfl

/-- An export that starts holds its context and joins the exports (spec 12, R405). -/
theorem Mod.startExport_starts (m : Mod) (h : Cmd) (handle set : Nat) (partner : Bool) (e : ImgEntry) :
    (m.startExport h handle set partner e).out = m.out
      ∧ (∃ c, (m.startExport h handle set partner e).ctx handle = some c ∧ c.use = .snapshot ∧ c.st = .active)
      ∧ ∃ x, (m.startExport h handle set partner e).step.exports = m.step.exports ++ [x] ∧ x.handle = handle ∧ x.set = set
          ∧ x.slot = e.slot ∧ x.partner = partner ∧ x.ticket = ⟨h.port, h.tag⟩ := by
  unfold Mod.startExport
  extract_lets +onlyGivenNames dst c dir header x n
  have hctx : n.ctx handle = some c := SMap.get_put_same (Option.some_ne_none c) m.ctxs handle
  split
  · exact ⟨rfl, ⟨c, hctx, rfl, rfl⟩, x, rfl, rfl, rfl, rfl, rfl, rfl⟩
  · exact ⟨rfl, ⟨c, hctx, rfl, rfl⟩, x, rfl, rfl, rfl, rfl, rfl, rfl⟩

/-! ### Settled moves (spec 06, R205; spec 14, R456) -/

/-- What a settled move keeps: it writes memory, host regions and packets, and nothing else. -/
structure Mod.MovesSettled (m n : Mod) : Prop where
  ctl : n.ctl = m.ctl
  run : n.run = m.run
  step : n.step = m.step
  out : ∃ ws, n.out = { m.out with host := ws }

theorem Mod.MovesSettled.refl (m : Mod) : m.MovesSettled m := ⟨rfl, rfl, rfl, m.out.host, rfl⟩

theorem Mod.MovesSettled.trans {m n k : Mod} (h : m.MovesSettled n) (h' : n.MovesSettled k) : m.MovesSettled k := by
  obtain ⟨_, hw⟩ := h.out
  obtain ⟨ws, hw'⟩ := h'.out
  exact ⟨h'.ctl.trans h.ctl, h'.run.trans h.run, h'.step.trans h.step, ws, by rw [hw', hw]⟩

theorem Mod.settledWrite_moves (m : Mod) (a : Nat) (bs : Bytes) : m.MovesSettled (m.settledWrite a bs) := by
  unfold Mod.settledWrite
  split
  · unfold Mod.hostStore Mod.writeRegion
    extract_lets +onlyGivenNames r
    split
    · exact ⟨rfl, rfl, rfl, _, rfl⟩
    · exact .refl m
  · exact ⟨rfl, rfl, rfl, m.out.host, rfl⟩

theorem Mod.contextWrite_moves (m : Mod) (c : Ctx) (a : Nat) (bs : Bytes) : m.MovesSettled (m.contextWrite c a bs) := by
  unfold Mod.contextWrite
  split
  · exact ⟨rfl, rfl, rfl, m.out.host, rfl⟩
  · exact m.settledWrite_moves a bs

theorem Mod.moveSettled_moves (m : Mod) (c : Ctx) (cut : Option Nat) (lo hi : Nat) (data : Bytes) :
    m.MovesSettled (m.moveSettled c cut lo hi data) :=
  List.foldlRecOn _ _ (Mod.MovesSettled.refl m) (fun n hn w _ => hn.trans (n.contextWrite_moves c w.1 w.2.1))

/-! ### The end of an export (spec 12, R406) -/

/-- An export whose copy is whole ends. -/
theorem Mod.exportDone_ends {m : Mod} {handle : Nat} {c : Ctx} {x : Export} (hc : m.ctx handle = some c)
    (hx : m.step.exports.find? (fun x => x.handle == handle) = some x) (hu : c.use = .snapshot) (hst : c.st = .active)
    (hcause : c.cause = 0) (hd : m.dataPlane = true) (hok : m.settledOk c c.resume c.desc.positions = true)
    (hp : x.partner = true → m.bank.partner = 1) :
    m.exportDone handle = (m.moveSettled c none c.resume c.desc.positions []).endExport x := by
  have hp' : x.partner = false ∨ m.bank.partner = 1 := by
    cases hb : x.partner with
    | false => exact .inl rfl
    | true => exact .inr (hp hb)
  simp [Mod.exportDone, hc, hx, hu, hst, hcause, hd, hok, hp']

/-- An export that ends outside the wait for an open: its record goes and it completes OK. -/
theorem Mod.endExport_away {m : Mod} {x : Export} (hw : m.run.phase ≠ .waiting) :
    (m.endExport x).ctl = m.ctl ∧ (m.endExport x).step.exports = m.step.exports.filter (fun y => y.handle != x.handle)
      ∧ (m.endExport x).out = { m.out with
          completions := m.out.completions ++ [⟨x.ticket.port, x.ticket.tag, Op.snapshotExport, Cls.ok, Detail.none, []⟩] } := by
  unfold Mod.endExport
  extract_lets +onlyGivenNames n k
  have hn : ∃ f, n = { m with fab := f } := by
    unfold n
    split
    · exact ⟨_, rfl⟩
    · exact ⟨m.fab, rfl⟩
  clear_value n
  obtain ⟨f, rfl⟩ := hn
  rw [Mod.tryOpen_away (by exact hw)]
  exact ⟨rfl, rfl, rfl⟩

/-- Settles O32: STEP_BEGIN and GROUP_SET by their effect, an export by `Mod.startExport_starts` and `Mod.endExport_away`. -/
theorem stepsGroupsAndExports : Obligations.StepsGroupsAndExports := by
  refine ⟨fun s h hs hheld => ⟨fun step lr clip hown ha hb hlr hclip hbody hlen hw => ?_,
    fun id lr decay p hown ha hb hid hlr hdecay hbody hp hg => ?_,
    fun set mode e handle rest ha hbad hl hold hentry hctxs => ?_⟩,
    fun s handle c x hq hc hx hu hst hcause hd hok hp hw => ?_⟩
  · rw [← s.found_step h]
    refine (hs.replies (i := .stepBegin h step lr clip 0) rfl ha (fun _ => hown) rfl rfl
      (plainParams_none hb (by simp [hlr, hclip]) (s.found h)) ((if_neg ?_).trans ((if_neg ?_).trans ?_)) (.inl rfl) (s.found_out h)
      (result := []) (m := { s.found h with step := { (s.found h).step with
        admissions := (s.found h).step.admissions ++ [⟨step, lr, clip⟩] } }) :)
    · simp [s.found_holdsPlan, s.found_hasBody, hheld, hbody]
    · simpa using hlen
    · exact congrArg (Ans.ok · []) (Mod.tryOpen_away (by simpa using hw))
  · rw [← s.found_step h]
    refine (hs.replies (i := .groupSet h id lr decay) rfl ha (fun _ => hown) rfl rfl ?_ (if_neg ?_) (.inl rfl) (s.found_out h) :)
    · dsimp only
      rw [s.found_plan, hp]
      exact plainParams_none hb (by simp [hid, hlr, hdecay, hg]) (s.found h)
    · simp [s.found_holdsPlan, s.found_hasBody, hheld, hbody]
  · obtain ⟨hout, ⟨c, hctx, huse, hst⟩, x, hexp, hx⟩ :=
      (s.found h).startExport_starts h handle set.toNat (mode == 1) e
    refine hs.completes (b := 0) (ks := []) (detail := Detail.none) (result := leBytes 4 handle) rfl ha
      (fun ho => nomatch ho) rfl rfl (if_neg ?_) ((if_neg ?_).trans ?_) (.inr rfl)
      (hout.trans (by rw [s.found_out, hs.quiet]; rfl)) (by simp) (fun t hans hm => ?_)
    · simp [s.found_exportBad, hbad]
    · simp [s.found_holdsPlan, s.found_refLost, s.found_oldestExport, hheld, hl, hold]
    · rw [s.found_exportEntry, s.found_cmdCtxs, hentry, hctxs]; rfl
    · rw [hm]
      exact ⟨hans, ⟨c, hctx, huse, hst⟩, x, by rw [← s.found_step h]; exact hexp, hx⟩
  · have hdone := Mod.exportDone_ends (m := s.m.fresh) hc hx hu hst hcause hd hok hp
    have hmove := s.m.fresh.moveSettled_moves c none c.resume c.desc.positions []
    obtain ⟨hctl, hexp, hout⟩ := Mod.endExport_away (x := x) (show _ ≠ Phase.waiting by rw [hmove.run]; exact hw)
    obtain ⟨ws, hws⟩ := hmove.out
    rw [← hdone] at hctl hexp hout
    have hhandle : x.handle = handle := by simpa using List.find?_some hx
    refine ⟨_, rfl, ⟨ws, State.event_hands_over (hout.trans ?_)⟩, ?_⟩
    · rw [hws, show s.m.fresh.out = Outbox.empty from hq]; rfl
    · rw [State.event_step, State.event_ctl, hexp, hctl, hmove.step, hmove.ctl, hhandle]
      exact ⟨rfl, rfl⟩

end Sys2Proof.Machine

/-! PROOFS. PLAN_LOAD and the judgement of its image (O29). -/
namespace Sys2Proof.Machine

theorem State.found_imageLength (s : State) (h : Cmd) (bs : Bytes) : (s.found h).imageLength bs = s.m.imageLength bs := by
  obtain ⟨_, _, hf⟩ := s.found_eq h; rw [hf]; rfl

section
variable {m : Mod} {image img : Bytes} {stored : Mod} (t : Ticket)
  (hfit : imgSize m.plan.header ≤ m.hbm.planArea.hi - m.hbm.planArea.lo)
  (himg : img = fitBytes (m.imageLength m.plan.header) image) (hst : stored = m.wr m.hbm.planArea.lo img)

/-- What the judgement of a stored image leaves of the plan, whichever way it ends (spec 03, R93). -/
def PlanCtl.judging (p : PlanCtl) (img : Bytes) : PlanCtl :=
  { p with loading := none, header := img.take 64, measurement := digest64 img }

include hfit himg hst in
/-- An image that passes every check is LOADED, with the plan that it spells (spec 03, R93, R111). -/
theorem Mod.planLoaded_pass (h : stored.imageFail img = none) :
    m.planLoaded t image = Mod.complete { stored with plan := { m.plan.judging img with
        st := .loaded, plan := some (parsePlan img), deferred := (parsePlan img).deferredExtents } }
      t Op.planLoad Cls.ok Detail.none (zeros 16) := by
  unfold Mod.planLoaded
  extract_lets +onlyGivenNames area fits img' stored' p base
  have hf : fits = true := decide_eq_true hfit
  have hi : img' = img := (if_pos hf).trans himg.symm
  have hs : stored' = stored := (if_pos hf).trans (by rw [hi, hst])
  have hp : p = m.plan := by unfold p; rw [hs, hst]; rfl
  have hb : base = m.plan.judging img := by unfold base; rw [hp, hi, if_pos hf]; rfl
  clear_value base p stored' img'
  subst hi hs hp hb
  rw [h]

include hfit himg hst in
/-- An image that a check refuses is FAILED, with the first failed check (spec 03, R93, R111). -/
theorem Mod.planLoaded_fail {f : Fail} (h : stored.imageFail img = some f) :
    m.planLoaded t image = Mod.complete { stored with plan := { m.plan.judging img with
        st := .failed, failCheck := f.check, failSection := f.section_, failSub := f.sub, failOffset := f.offset } }
      t Op.planLoad Cls.rejected Detail.validationFail f.result := by
  unfold Mod.planLoaded
  extract_lets +onlyGivenNames area fits img' stored' p base
  have hf : fits = true := decide_eq_true hfit
  have hi : img' = img := (if_pos hf).trans himg.symm
  have hs : stored' = stored := (if_pos hf).trans (by rw [hi, hst])
  have hp : p = m.plan := by unfold p; rw [hs, hst]; rfl
  have hb : base = m.plan.judging img := by unfold base; rw [hp, hi, if_pos hf]; rfl
  clear_value base p stored' img'
  subst hi hs hp hb
  rw [h]
end

/-- The state after the end of a load, for an image that fits its area. -/
theorem State.Quiet.planLoad_ends {s : State} {image img : Bytes} {w : Ticket} {stored : Mod} (hq : s.Quiet)
    (hw : s.m.plan.loading = some w) (hfit : imgSize s.m.plan.header ≤ s.m.hbm.planArea.hi - s.m.hbm.planArea.lo)
    (himg : img = fitBytes (s.m.fresh.imageLength s.m.plan.header) image) (hst : stored = s.m.fresh.wr s.m.hbm.planArea.lo img) :
    ∃ t, exec (.planLoadComplete image) s = .next t ∧ t.m.ctl = s.m.ctl ∧ t.m.hbm = stored.hbm
      ∧ t.m.plan.measurement = digest64 img ∧ t.m.plan.loading = none
      ∧ (stored.imageFail img = none →
          Observed s t 0 [] [⟨w.port, w.tag, Op.planLoad, Cls.ok, Detail.none, zeros 16⟩]
          ∧ t.m.plan.st = .loaded ∧ t.m.plan.plan = some (parsePlan img))
      ∧ (∀ e, stored.imageFail img = some e →
          Observed s t 0 [] [⟨w.port, w.tag, Op.planLoad, Cls.rejected, Detail.validationFail, e.result⟩]
          ∧ t.m.plan.st = .failed ∧ t.m.plan.failCheck = e.check ∧ t.m.plan.failSection = e.section_
          ∧ t.m.plan.failSub = e.sub ∧ t.m.plan.failOffset = e.offset ∧ t.m.plan.plan = s.m.plan.plan) := by
  obtain ⟨f, hx, hf⟩ : ∃ f : Mod → Mod, exec (.planLoadComplete image) s = .next (s.event f)
      ∧ f s.m.fresh = s.m.fresh.planLoaded w image :=
    ⟨_, rfl, by rw [show s.m.fresh.plan.loading = some w from hw]⟩
  have hctl : stored.ctl = s.m.ctl := by rw [hst]; rfl
  have hout : stored.out = Outbox.empty := by rw [hst]; exact hq
  refine ⟨_, hx, ?_⟩
  rw [State.event_ctl, State.event_hbm, State.event_plan, ← hctl]
  cases hc : stored.imageFail img with
  | none =>
    have hj := hf.trans (Mod.planLoaded_pass (m := s.m.fresh) w hfit himg hst hc)
    have ho := (congrArg Mod.out hj).trans (Mod.complete_out_quiet hout ..)
    rw [hj]
    exact ⟨rfl, rfl, rfl, rfl, fun _ => ⟨State.event_hands_over ho, rfl, rfl⟩, fun _ he => nomatch he⟩
  | some e =>
    have hj := hf.trans (Mod.planLoaded_fail (m := s.m.fresh) w hfit himg hst hc)
    have ho := (congrArg Mod.out hj).trans (Mod.complete_out_quiet hout ..)
    rw [hj]
    refine ⟨rfl, rfl, rfl, rfl, nofun, fun _ he => ?_⟩
    obtain rfl := Option.some.inj he
    exact ⟨State.event_hands_over ho, rfl, rfl, rfl, rfl, rfl, rfl⟩

/-- Settles O29: the load by its reply, its end by the first failed check of the image. -/
theorem planLoadJudgesTheImage : Obligations.PlanLoadJudgesTheImage := by
  refine ⟨fun s h header hs ha hown hst hpl hl hbuf => ?_, fun s image w hq hw => ?_⟩
  · refine hs.completes (b := 0) (ks := []) rfl ha (fun _ => hown) rfl rfl (if_pos ?_) (if_neg ?_) (.inr rfl)
      (m := { s.found h with plan := _ }) ((s.found_out h).trans hs.quiet) (by simp) (fun t hans hm => ?_)
    · show (s.found h).bufferOk h ((s.found h).imageLength header) false = true
      rw [s.found_imageLength]; exact hbuf
    · simp [hst, hpl, hl, s.found_refLost]
    · rw [hm]
      exact ⟨hans, rfl, rfl, rfl, rfl, s.found_run h, s.found_hbm h⟩
  · intro m hfit img stored
    obtain ⟨t, hx, hctl, hhbm, hmeas, hload, hpass, hfail⟩ := hq.planLoad_ends hw hfit rfl rfl
    refine ⟨t, hx, hctl, hhbm, hmeas, hload, ?_⟩
    split
    · exact hpass ‹_›
    · exact hfail _ ‹_›

end Sys2Proof.Machine

/-! PROOFS. Writes of an attempt: what they keep, and on what they depend. -/
namespace Sys2Proof.Machine

/-- n differs from m in memory, counts and held writes at most: the host sees nothing new, and the woodpile stands. -/
structure Mod.SameWork (m n : Mod) : Prop where
  out : n.out = m.out
  ents : n.run.ents = m.run.ents
  groups : n.run.groups = m.run.groups

/-- Memory, held writes and the plan, which gives each write its path, are the same (spec 04, R119 to R122). -/
structure Mod.SameStores (m n : Mod) : Prop where
  hbm : n.hbm = m.hbm
  staged : n.run.staged = m.run.staged
  plan : n.plan = m.plan

namespace Mod

theorem SameWork.refl (m : Mod) : m.SameWork m := ⟨rfl, rfl, rfl⟩

theorem SameWork.trans {m n k : Mod} (h : m.SameWork n) (h' : n.SameWork k) : m.SameWork k :=
  ⟨h'.out.trans h.out, h'.ents.trans h.ents, h'.groups.trans h.groups⟩

theorem SameWork.foldl {α : Type} {f : Mod → α → Mod} (hf : ∀ m a, SameWork m (f m a)) (l : List α) (m : Mod) :
    m.SameWork (l.foldl f m) :=
  List.foldlRecOn l f (SameWork.refl m) (fun n hn a _ => hn.trans (hf n a))

theorem SameWork.ent {m n : Mod} (h : m.SameWork n) (i : Nat) : n.ent i = m.ent i := by rw [Mod.ent, h.ents, Mod.ent]

theorem SameStores.refl (m : Mod) : m.SameStores m := ⟨rfl, rfl, rfl⟩

theorem SameStores.trans {m n k : Mod} (h : m.SameStores n) (h' : n.SameStores k) : m.SameStores k :=
  ⟨h'.hbm.trans h.hbm, h'.staged.trans h.staged, h'.plan.trans h.plan⟩

theorem SameStores.symm {m n : Mod} (h : m.SameStores n) : n.SameStores m := ⟨h.hbm.symm, h.staged.symm, h.plan.symm⟩

/-! ### Counts, marks and conditions -/

/-- n counts and notes what m does not, at most. -/
structure Counts (m n : Mod) : Prop where
  work : m.SameWork n
  stores : m.SameStores n

theorem Counts.refl (m : Mod) : m.Counts m := ⟨.refl m, .refl m⟩

theorem Counts.trans {m n k : Mod} (h : m.Counts n) (h' : n.Counts k) : m.Counts k :=
  ⟨h.work.trans h'.work, h.stores.trans h'.stores⟩

theorem tally_counts (m : Mod) (id n : Nat) : m.Counts (m.tally id n) := ⟨⟨rfl, rfl, rfl⟩, rfl, rfl, rfl⟩
theorem tallyEvent_counts (m : Mod) (id n : Nat) : m.Counts (m.tallyEvent id n) := ⟨⟨rfl, rfl, rfl⟩, rfl, rfl, rfl⟩
theorem tallyR81_counts (m : Mod) (a b : Nat) : m.Counts (m.tallyR81 a b) := (m.tally_counts _ a).trans (tally_counts _ _ b)
theorem condition_counts (m : Mod) (c : Cond) : m.Counts (m.condition c) := ⟨⟨rfl, rfl, rfl⟩, rfl, rfl, rfl⟩
theorem draw_counts (m : Mod) : m.Counts m.draw.2 := ⟨⟨rfl, rfl, rfl⟩, rfl, rfl, rfl⟩

theorem markDouse_counts (m : Mod) (c : Nat) : m.Counts (m.markDouse c) := by
  unfold Mod.markDouse
  split
  · exact ⟨⟨rfl, rfl, rfl⟩, rfl, rfl, rfl⟩
  · exact .refl m

/-- A blocked write marks the attempt (spec 04, R121). -/
theorem blocked_counts (m : Mod) : m.Counts ((m.tallyEvent Cnt.emberBlocked 1).markDouse Douse.emberBlocked) :=
  (m.tallyEvent_counts _ 1).trans (markDouse_counts _ _)

/-! ### Writes by path (spec 04, R119 to R122) -/

theorem roundPut_sameWork (m : Mod) (a : Nat) (bs : Bytes) : m.SameWork (m.roundPut a bs) := by
  unfold Mod.roundPut
  split
  · exact ⟨rfl, rfl, rfl⟩
  · exact ⟨rfl, rfl, rfl⟩
  · exact m.blocked_counts.work

theorem roundWrite_sameWork (m : Mod) (a : Nat) (bs : Bytes) : m.SameWork (m.roundWrite a bs) := by
  unfold Mod.roundWrite
  split
  · exact .refl m
  · split
    · exact m.roundPut_sameWork a bs
    · exact SameWork.foldl (fun m (w : Nat × Bytes) => m.roundPut_sameWork w.1 w.2) _ m

theorem roundWrites_sameWork (m : Mod) (ws : List (Nat × Bytes)) : m.SameWork (m.roundWrites ws) :=
  SameWork.foldl (fun m (w : Nat × Bytes) => m.roundWrite_sameWork w.1 w.2) ws m

section
variable {m n : Mod} (h : m.SameStores n)
include h

theorem SameStores.pathAt (a : Nat) : n.pathAt a = m.pathAt a := by
  simp only [Mod.pathAt, Mod.pathOf, h.plan]

theorem SameStores.onePath (a len : Nat) : n.onePath a len = m.onePath a len := by
  simp only [Mod.onePath, h.plan]

theorem SameStores.pathParts (bs : Bytes) : ∀ a, n.pathParts a bs = m.pathParts a bs := by
  induction bs with
  | nil => exact fun _ => rfl
  | cons b bs ih => intro a; simp only [Mod.pathParts, ih, h.pathAt]

/-- A write goes the same way in both. -/
theorem SameStores.roundPut (a : Nat) (bs : Bytes) : (m.roundPut a bs).SameStores (n.roundPut a bs) := by
  unfold Mod.roundPut
  rw [h.pathAt]
  split
  · exact ⟨by simp only [Mod.wr, h.hbm], h.staged, h.plan⟩
  · exact ⟨h.hbm, by simp only [Mod.stage, h.staged], h.plan⟩
  · exact m.blocked_counts.stores.symm.trans (h.trans n.blocked_counts.stores)

end

theorem SameStores.foldl {α : Type} {f : Mod → α → Mod} (hf : ∀ {m n : Mod} (a : α), m.SameStores n → (f m a).SameStores (f n a))
    (l : List α) {m n : Mod} (h : m.SameStores n) : (l.foldl f m).SameStores (l.foldl f n) := by
  induction l generalizing m n with
  | nil => exact h
  | cons a l ih => exact ih (hf a h)

theorem SameStores.roundWrite {m n : Mod} (h : m.SameStores n) (a : Nat) (bs : Bytes) :
    (m.roundWrite a bs).SameStores (n.roundWrite a bs) := by
  unfold Mod.roundWrite
  rw [h.onePath, h.pathParts]
  split
  · exact h
  · split
    · exact h.roundPut a bs
    · exact .foldl (fun w h => h.roundPut w.1 w.2) _ h

theorem SameStores.roundWrites {m n : Mod} (h : m.SameStores n) (ws : List (Nat × Bytes)) :
    (m.roundWrites ws).SameStores (n.roundWrites ws) :=
  .foldl (fun w h => h.roundWrite w.1 w.2) ws h

theorem store_sameWork (m : Mod) (s : Stored) : m.SameWork (m.store s) :=
  (m.roundWrites_sameWork _).trans (tallyR81_counts _ _ _).work

theorem writeOut_sameWork (m : Mod) (s : Stored) (d : List (Nat × Byte)) : m.SameWork (m.writeOut s d).1 :=
  (m.roundWrites_sameWork _).trans (tallyR81_counts _ _ _).work

/-- What an attempt writes does not depend on what was counted before. -/
theorem SameStores.writeOut {m n : Mod} (h : m.SameStores n) (s : Stored) (d : List (Nat × Byte)) :
    (m.writeOut s d).1.SameStores (n.writeOut s d).1 :=
  (tallyR81_counts _ _ _).stores.symm.trans ((h.roundWrites _).trans (tallyR81_counts _ _ _).stores)

/-! ### Entries of the woodpile (spec 03, R104) -/

/-- Entry i is at st; the host sees nothing new, and nothing is stored. -/
structure EntryMoves (i : Nat) (st : EntSt) (m n : Mod) : Prop where
  out : n.out = m.out
  st : (n.ent i).st = st
  stores : m.SameStores n

theorem EntryMoves.trans {i : Nat} {st st' : EntSt} {m n k : Mod} (h : EntryMoves i st m n) (h' : EntryMoves i st' n k) :
    EntryMoves i st' m k :=
  ⟨h'.out.trans h.out, h'.st, h.stores.trans h'.stores⟩

/-- An entry that is not the free one is what it was set to. -/
theorem setEnt_moves (m : Mod) (i : Nat) {e : Ent} (he : e ≠ Ent.free) : EntryMoves i e.st m (m.setEnt i e) :=
  ⟨rfl, congrArg Ent.st (SMap.get_put_same he m.run.ents i), rfl, rfl, rfl⟩

theorem setEnt_moves_to (m : Mod) (i : Nat) {e : Ent} {st : EntSt} (he : e.st = st) (hst : st ≠ .free) :
    EntryMoves i st m (m.setEnt i e) :=
  he ▸ m.setEnt_moves i (fun h => hst (he.symm.trans (congrArg Ent.st h)))

theorem incFlag_eq (m : Mod) (f n : Nat) : ∃ fl, m.incFlag f n = { m with run := { m.run with flags := fl } } := by
  unfold Mod.incFlag
  split
  · exact ⟨_, rfl⟩
  · exact ⟨_, rfl⟩

/-- The done_flag's increment leaves the entry where it was. -/
theorem signalDone_moves (m : Mod) (i : Nat) (w : WpEntry) : EntryMoves i (m.ent i).st m (m.signalDone i w) := by
  unfold Mod.signalDone
  extract_lets e
  split
  · exact ⟨rfl, rfl, .refl m⟩
  · obtain ⟨out, st, hbm, staged, plan⟩ :=
      m.setEnt_moves i (e := { e with signalled := true }) (fun h => nomatch congrArg Ent.signalled h)
    obtain ⟨fl, h⟩ := incFlag_eq (m.setEnt i { e with signalled := true }) w.doneFlag 1
    rw [h]
    exact ⟨out, st, hbm, staged, plan⟩

/-- The end of an attempt leaves the entry to its checks, those of a re-execution or those of the first attempt. -/
theorem toChecks_moves (m : Mod) (i : Nat) (d : Dword) :
    EntryMoves i (if (m.ent i).st = .rerun then .recheck else .checking) m (m.toChecks i d) := by
  unfold Mod.toChecks
  extract_lets e
  by_cases h : (m.ent i).st = .rerun
  · rw [if_pos h, if_pos h]; exact m.setEnt_moves_to i rfl (by decide)
  · rw [if_neg h, if_neg h]; exact m.setEnt_moves_to i rfl (by decide)

theorem toDone_moves (m : Mod) (i : Nat) : EntryMoves i .done m (m.toDone i) :=
  m.setEnt_moves_to i rfl (by decide)

/-- The attempt's end: the done_flag, then the checks (spec 07, R219; spec 08, R264). -/
theorem signalDone_toChecks_moves (m : Mod) (i : Nat) (w : WpEntry) (d : Dword) :
    EntryMoves i (if (m.ent i).st = .rerun then .recheck else .checking) m ((m.signalDone i w).toChecks i d) := by
  have h := m.signalDone_moves i w
  have h' := h.trans ((m.signalDone i w).toChecks_moves i d)
  rwa [h.st] at h'

theorem signalDone_toDone_moves (m : Mod) (i : Nat) (w : WpEntry) : EntryMoves i .done m ((m.signalDone i w).toDone i) :=
  (m.signalDone_moves i w).trans (toDone_moves _ i)

/-! ### Ends of attempts -/

/-- From m to n an attempt ends: it stored what `written` holds, its entry is at st, and the host sees nothing new. -/
structure AttemptEnds (i : Nat) (st : EntSt) (m written n : Mod) : Prop where
  out : n.out = m.out
  st : (n.ent i).st = st
  hbm : n.hbm = written.hbm
  staged : n.run.staged = written.run.staged

/-- The attempt's writes, then what is counted, the done_flag and the checks. -/
theorem signalDone_toChecks_ends {m written k : Mod} (i : Nat) (w : WpEntry) (d : Dword) (hwork : m.SameWork k)
    (hstores : written.SameStores k) :
    AttemptEnds i (if (m.ent i).st = .rerun then .recheck else .checking) m written ((k.signalDone i w).toChecks i d) := by
  have h := k.signalDone_toChecks_moves i w d
  rw [hwork.ent] at h
  exact ⟨h.out.trans hwork.out, h.st, h.stores.hbm.trans hstores.hbm, h.stores.staged.trans hstores.staged⟩

/-- A dense item that no group of the 2:4 form stops writes its output and is left to its checks (spec 07, R219). -/
theorem denseEnds_ends {m : Mod} {i : Nat} {w : WpEntry} {jb : Job} {dst : Dest} {damage : List (Nat × Byte)} {fw : FmtWord}
    {key : SrKey} {v : Nat → Nat → F32} (hfw : fw = (FmtWord.parse jb.x.d.outFmt).getD FmtWord.plain)
    (hkey : key = m.srKey dst.tensorId) (hv : v = m.outValue jb dst) (hpass : m.nmFault jb dst fw key v = none)
    (hm : jb.x.d.m ≠ 0) :
    AttemptEnds i (if (m.ent i).st = .rerun then .recheck else .checking) m
      (m.writeOut (jb.drain dst fw key v) damage).1 (m.denseEnds i w jb dst damage) := by
  have hc := m.tally_counts Cnt.nmPruned (jb.prunedGroups dst fw key v)
  have hwork := hc.work.trans (writeOut_sameWork _ (jb.drain dst fw key v) damage)
  have hstores := hc.stores.writeOut (jb.drain dst fw key v) damage
  cases hk : (m.tally Cnt.nmPruned (jb.prunedGroups dst fw key v)).writeOut (jb.drain dst fw key v) damage with
  | mk k d =>
    rw [hk] at hwork hstores
    have h : m.denseEnds i w jb dst damage = (k.signalDone i w).toChecks i d := by
      subst hfw hkey hv
      unfold Mod.denseEnds
      simp only [hpass, hk, hm, if_false]
    rw [h]
    exact signalDone_toChecks_ends i w d hwork hstores

theorem spCount_counts (m : Mod) (i : Nat) (o : SpOut) : m.Counts (m.spCount i o) := by
  unfold Mod.spCount
  extract_lets n
  have hn : m.Counts n := ((((m.tally_counts _ _).trans (tally_counts _ _ _)).trans (tally_counts _ _ _)).trans
    (tally_counts _ _ _)).trans (tally_counts _ _ _)
  clear_value n
  have hd := hn.trans n.draw_counts
  split
  rename_i u k hdraw
  rw [hdraw] at hd
  split
  · exact hd.trans (k.condition_counts _)
  · split
    · exact hd
    · exact hd.trans (k.condition_counts _)

theorem spWrite_sameWork (m : Mod) (i : Nat) (o : SpOut) (damage : List (Nat × Byte)) : m.SameWork (m.spWrite i o damage).1 :=
  (m.writeOut_sameWork o.st damage).trans (spCount_counts _ i o).work

/-- A sparse item writes its output and is left to its checks (spec 08, R264). -/
theorem spWrite_ends (m : Mod) (i : Nat) (w : WpEntry) (o : SpOut) (damage : List (Nat × Byte)) (d : Dword) :
    AttemptEnds i (if (m.ent i).st = .rerun then .recheck else .checking) m (m.writeOut o.st damage).1
      (((m.spWrite i o damage).1.signalDone i w).toChecks i d) :=
  signalDone_toChecks_ends i w d (m.spWrite_sameWork i o damage) (spCount_counts _ i o).stores

/-! ### Shards (spec 12, R395) -/

theorem writeF32_sameWork (m : Mod) (r first : Nat) (vs : List F32) : m.SameWork (m.writeF32 r first vs) := by
  unfold Mod.writeF32
  split
  · exact (m.roundWrites_sameWork _).trans (tallyR81_counts _ _ _).work
  · exact .refl m

theorem ruleShard_sameWork (m : Mod) (u : UpdDesc) (s : Scalars) (ctr : Alloc) (shard : Nat) :
    m.SameWork (m.ruleShard u s ctr shard) := by
  unfold Mod.ruleShard
  extract_lets lo len parts w' n n' k k'
  have hn : m.SameWork n := .foldl (fun m (p : RulePart) => m.writeF32_sameWork p.rec_ p.first p.vals) parts m
  clear_value n
  have hn' : m.SameWork n' := by
    unfold n'
    split
    · exact hn
    · exact hn.trans (n.writeF32_sameWork _ _ _)
  clear_value n'
  have hk : m.SameWork k := by
    unfold k
    split
    · exact hn'.trans (n'.roundWrite_sameWork _ _)
    · exact hn'
  clear_value k
  exact hk.trans ⟨rfl, rfl, rfl⟩

theorem refreshShard_sameWork (m : Mod) (u : UpdDesc) (shard : Nat) : m.SameWork (m.refreshShard u shard) := by
  unfold Mod.refreshShard
  split
  · exact .refl m
  · split
    · split
      · exact m.store_sameWork _
      · exact .refl m
    · exact .refl m

theorem finishDigest_sameWork (m : Mod) (u : UpdDesc) : m.SameWork (m.finishDigest u) := by
  unfold Mod.finishDigest
  split
  · split
    · split
      · exact m.roundWrite_sameWork _ _
      · exact .refl m
    · exact .refl m
  · exact .refl m

/-! ### Claims (spec 03, R103) -/

section
variable {m : Mod} {core i : Nat} {w : WpEntry} {us : List Nat} (hrun : m.running = true) (hcore : core < 8)
  (hheld : m.withdrawn core = false)
include hrun hcore hheld

/-- A core takes the re-execution that waits for it. -/
theorem claim_rerun (h : m.reClaim m.busyUnits core = some (i, w, us)) :
    m.claim core = (m.setEnt i { m.ent i with st := .rerun, reCore := core, reUnits := us, reDigest := none }).tallyEvent
      w.engine.reexec 1 := by
  unfold Mod.claim
  rw [if_pos (by simp [hrun, hcore, hheld])]
  dsimp only
  rw [h]

/-- With no re-execution that waits for it, a core takes a fresh entry. -/
theorem claim_fresh (hre : m.reClaim m.busyUnits core = none) (h : m.freshClaim m.busyUnits core = some (i, w, us)) :
    m.claim core
      = m.setEnt i { m.ent i with st := .running, core := core, units := us, eff := m.trim i w, digest := none } := by
  unfold Mod.claim
  rw [if_pos (by simp [hrun, hcore, hheld])]
  dsimp only
  rw [hre, h]

end

/-! ### Ends of entries -/

section
variable {m : Mod} {i : Nat} {w : WpEntry} {damage : List (Nat × Byte)} (hrun : m.running = true) (hw : m.wpEntry i = some w)
include hrun hw

theorem denseComplete_eq {jb : Job} {dst : Dest} (ha : (m.ent i).active = true) (he : w.engine = .dense ∨ w.engine = .nm)
    (hjb : m.jobOf i w = some jb) (hdst : m.destOf w jb.x.d = some dst) :
    m.denseComplete i damage = m.denseEnds i w jb dst damage := by
  have hcond : (m.running && (m.ent i).active && (w.engine == .dense || w.engine == .nm)) = true := by
    simpa [hrun, ha] using he
  unfold Mod.denseComplete
  simp only [hw, hcond, if_true, hjb, hdst]

theorem sparseComplete_ends {j : SpJob} (ha : (m.ent i).active = true) (he : w.engine = .sparse)
    (hj : m.spWork w (m.ent i).engine = some (.item j)) :
    AttemptEnds i (if (m.ent i).st = .rerun then .recheck else .checking) m (m.writeOut (m.runItem j).st damage).1
      (m.sparseComplete i damage) := by
  have heq : m.sparseComplete i damage
      = ((m.spWrite i (m.runItem j) damage).1.signalDone i w).toChecks i (m.spWrite i (m.runItem j) damage).2 := by
    unfold Mod.sparseComplete
    simp only [hw, hrun, ha, he, beq_self_eq_true, Bool.and_self, if_true, hj]
  rw [heq]
  exact m.spWrite_ends i w _ damage _

/-- The increment of done_count ends a segment's entry; unless it is the last, nothing else is written (spec 08, R267). -/
theorem segmentComplete_done {j : SpJob} {slot : Nat} {seg : Seg} (hst : (m.ent i).st = .passed)
    (hj : m.spWork w ((if (m.ent i).reUnits.isEmpty then (m.ent i).units else (m.ent i).reUnits).headD 0)
      = some (.segment j slot seg)) :
    (m.segmentComplete i damage).out = m.out ∧ ((m.segmentComplete i damage).ent i).st = .done
      ∧ (m.rdNat (j.segAddr seg.firstSlot + 0x10) 4 + 1 ≠ seg.segCount →
          (m.segmentComplete i damage).hbm = (m.roundWrite (j.segAddr seg.firstSlot + 0x10)
            (leBytes 4 (m.rdNat (j.segAddr seg.firstSlot + 0x10) 4 + 1))).hbm) := by
  have hcond : (m.running && (m.ent i).st == .passed) = true := by rw [hrun, hst]; rfl
  obtain ⟨k, heq, hwork, hlast⟩ : ∃ k, m.segmentComplete i damage = (k.signalDone i w).toDone i ∧ m.SameWork k
      ∧ (m.rdNat (j.segAddr seg.firstSlot + 0x10) 4 + 1 ≠ seg.segCount → k = m.roundWrite (j.segAddr seg.firstSlot + 0x10)
        (leBytes 4 (m.rdNat (j.segAddr seg.firstSlot + 0x10) 4 + 1))) := by
    refine ⟨_, by unfold Mod.segmentComplete; simp only [hw, hcond, if_true, hj]; rfl, ?_, fun h => if_neg h⟩
    have hput := m.roundWrite_sameWork (j.segAddr seg.firstSlot + 0x10) (leBytes 4 (m.rdNat (j.segAddr seg.firstSlot + 0x10) 4 + 1))
    split
    · exact hput.trans (spWrite_sameWork _ _ _ _)
    · exact hput
  have h := k.signalDone_toDone_moves i w
  rw [heq]
  exact ⟨h.out.trans hwork.out, h.st, fun hn => h.stores.hbm.trans (by rw [hlast hn])⟩

/-- The update of a shard ends its entry (spec 12, R395). -/
theorem updateComplete_done {p : Plan} {r : RoundHdr} {q : Nat × UpdDesc} {g : GroupRec} {ctr : Alloc} (he : w.engine = .update)
    (hst : (m.ent i).st = .running) (hp : m.plan.plan = some p) (hr : m.hdr = some r) (hu : p.updateOf r = some q)
    (hg : p.groupRec q.2.group = some g) (hctr : p.alloc q.2.ctrRec = some ctr) :
    (m.updateComplete i).out = m.out ∧ ((m.updateComplete i).ent i).st = .done := by
  have hcond : (m.running && (m.ent i).st == .running && w.engine == .update) = true := by rw [hrun, hst, he]; rfl
  obtain ⟨k, heq, hwork⟩ : ∃ k, m.updateComplete i = (k.signalDone i w).toDone i ∧ m.SameWork k := by
    refine ⟨_, by unfold Mod.updateComplete; simp only [hw, hp, hr, hcond, if_true, hu, hg, hctr]; rfl, ?_⟩
    split
    · exact (m.ruleShard_sameWork _ _ _ _).trans (finishDigest_sameWork _ _)
    · exact m.refreshShard_sameWork _ _
  have h := k.signalDone_toDone_moves i w
  rw [heq]
  exact ⟨h.out.trans hwork.out, h.st⟩

end

/-! ### Combines (spec 03, R109) -/

section
variable {m : Mod} {g : Nat} {p : Plan} {r : RoundHdr} {c : Combine} {k : Nat} {a : Alloc} (hrun : m.running = true)
  (hp : m.plan.plan = some p) (hr : m.hdr = some r) (hc : (p.groupsOf r)[g]? = some c) (ha : p.allocById c.tensorId = some (k, a))
  (hopen : g ∉ m.run.groups) (hready : m.groupReady g = true) (hfirst : g ∉ m.run.combineFailed)
include hrun hp hr hc ha hopen hready hfirst

/-- A combine whose copies agree writes its block and is not run again. -/
theorem runCombine_pass :
    m.runCombine g .pass = { m.store (m.combined c a) with
      run := { (m.store (m.combined c a)).run with groups := g :: (m.store (m.combined c a)).run.groups } } := by
  unfold Mod.runCombine
  simp only [hp, hr, hc, ha, hrun, hready, hopen, hfirst, Bool.not_true, Bool.false_eq_true, Bool.or_self, if_false, decide_false]

/-- A combine whose copies differ for the first time writes nothing. -/
theorem runCombine_differs {x y : Dword} (hxy : x ≠ y) :
    m.runCombine g (.copies x y) = { m.tallyEvent Cnt.denseMismatch 1 with
      run := { (m.tallyEvent Cnt.denseMismatch 1).run with combineFailed := g :: m.run.combineFailed } } := by
  unfold Mod.runCombine
  simp only [hp, hr, hc, ha, hrun, hready, hopen, hfirst, hxy, Bool.not_true, Bool.false_eq_true, Bool.or_self, if_false,
    decide_false, bne_iff_ne, ne_eq, not_false_eq_true, if_true]
  rfl

end

end Mod

/-! ### The events -/

/-- What is left to show of an event of the round's work, which hands nothing over. -/
theorem State.Quiet.works {i : Instr} {s : State} {f : Mod → Mod} {P : State → Prop} (hq : s.Quiet)
    (hx : exec i s = .next (s.event f)) (ho : (f s.m.fresh).out = s.m.out)
    (hP : ∀ t, Observed s t 0 [] [] → t.m.run = (f s.m.fresh).run → t.m.hbm = (f s.m.fresh).hbm → P t) : Completes i s P :=
  ⟨_, hx, hP _ (hq.observed ho) (State.event_run s f) (State.event_hbm s f)⟩

/-- An event that ends an attempt. -/
theorem State.Quiet.attempt {e : Instr} {s : State} {f : Mod → Mod} {i : Nat} {st : EntSt} {written : Mod} (hq : s.Quiet)
    (hx : exec e s = .next (s.event f)) (h : Mod.AttemptEnds i st s.m.fresh written (f s.m.fresh)) :
    Completes e s (fun t => Observed s t 0 [] [] ∧ (t.m.ent i).st = st ∧ t.m.hbm = written.hbm
      ∧ t.m.run.staged = written.run.staged) :=
  hq.works hx h.out (fun t ho hrun hhbm => ⟨ho, by rw [Mod.ent, hrun]; exact h.st, hhbm.trans h.hbm, by rw [hrun, h.staged]⟩)

/-- Settles O40: each claim by its equation, each end of an attempt by its writes and its entry. -/
theorem workIsClaimedAndWritten : Obligations.WorkIsClaimedAndWritten := by
  intro s hq hrun m
  have hrun' : m.running = true := hrun
  refine ⟨fun core hcore hheld => ⟨fun i w us h => ?_, fun i w us hre h => ?_⟩, fun i w damage hw ha => ?_,
    fun i w j slot seg damage hw hst hj => ?_,
    fun p r g c k a hp hr hc hal hopen hready hfirst => ⟨?_, fun x y hxy => ?_⟩⟩
  · exact hq.happens rfl (Mod.claim_rerun hrun' hcore hheld h) rfl
  · exact hq.happens rfl (Mod.claim_fresh hrun' hcore hheld hre h) rfl
  · refine ⟨fun jb dst he hjb hdst hm => ?_, fun j he hj => ?_, fun p r k u g ctr he hst hp hr hu hg hctr => ?_⟩
    · intro fw key v hpass
      have h := Mod.denseEnds_ends (i := i) (w := w) (damage := damage) rfl rfl rfl hpass hm
      rw [← Mod.denseComplete_eq hrun' hw ha he hjb hdst] at h
      exact hq.attempt rfl h
    · exact hq.attempt rfl (Mod.sparseComplete_ends hrun' hw ha he hj)
    · obtain ⟨hout, hdone⟩ := Mod.updateComplete_done hrun' hw he hst hp hr hu hg hctr
      exact hq.works rfl hout (fun t ho hr _ => ⟨ho, by rw [Mod.ent, hr]; exact hdone⟩)
  · obtain ⟨hout, hdone, hhbm⟩ := Mod.segmentComplete_done (damage := damage) hrun' hw hst hj
    exact hq.works rfl hout (fun t ho hr hh => ⟨ho, by rw [Mod.ent, hr]; exact hdone, fun hn => hh.trans (hhbm hn)⟩)
  · have hpass := Mod.runCombine_pass hrun' hp hr hc hal hopen hready hfirst
    have hstore := m.store_sameWork (m.combined c a)
    refine hq.works (f := fun m => m.runCombine g .pass) rfl ((congrArg Mod.out hpass).trans hstore.out) (fun t ho hr hh => ?_)
    rw [hr, hh, show s.m.fresh.runCombine g .pass = _ from hpass]
    exact ⟨ho, congrArg (g :: ·) hstore.groups, rfl, rfl⟩
  · exact hq.happens rfl (Mod.runCombine_differs hrun' hp hr hc hal hopen hready hfirst hxy) rfl

end Sys2Proof.Machine

/-! PROOFS. Douse and replay (O39): what each step of a douse can change (spec 04, R128, R133 to R135). -/
namespace Sys2Proof.Machine

/-! ### The douse is told and counted -/

/-- Posted counts change the counters alone. -/
theorem Mod.post_eq : ∀ (t : SMap Nat) (m : Mod), ∃ c, m.post t = { m with cnt := c }
  | [], m => ⟨m.cnt, rfl⟩
  | e :: t, m => Mod.post_eq t (m.count e.1 e.2)

/-- The counts of an attempt post to the counters and to the worst run (spec 03, R113, R114). -/
theorem Mod.postAttempt_eq (m : Mod) : ∃ c w k, m.postAttempt =
    { m with cnt := c, run := { m.run with events := [] }, plan := { m.plan with worstRun := w, worstRound := k } } := by
  unfold Mod.postAttempt
  obtain ⟨c, hc⟩ := Mod.post_eq m.run.events m
  rw [hc]
  dsimp only
  split
  · exact ⟨_, _, _, rfl⟩
  · exact ⟨_, _, _, rfl⟩

/-- A douse is told and counted: the attempt stands but for its event counts, the plan but for its worst run. -/
structure Mod.Tells (m n : Mod) : Prop where
  ctl : n.ctl = m.ctl
  run : n.run = { m.run with events := [] }
  plan : ∃ w k, n.plan = { m.plan with worstRun := w, worstRound := k }

/-- The message to the other members and the counts (spec 04, R134; spec 03, R100, R114). -/
theorem Mod.countDouse_tells (m : Mod) (kind attempt cause : Nat) (remote : Bool) :
    m.Tells ((m.sendEmber kind attempt cause).countDouse remote)
      ∧ ((m.sendEmber kind attempt cause).countDouse remote).out = m.out := by
  unfold Mod.countDouse
  extract_lets late n
  have hn : ∃ f e, n = { m with fab := f, run := { m.run with events := e } } := by
    unfold n
    split
    · exact ⟨_, _, rfl⟩
    · exact ⟨_, m.run.events, rfl⟩
  clear_value n
  obtain ⟨_, _, rfl⟩ := hn
  obtain ⟨_, w, k, hpost⟩ := Mod.postAttempt_eq _
  rw [hpost]
  exact ⟨⟨rfl, rfl, w, k, rfl⟩, rfl⟩

/-- A record leaves what was told. -/
theorem Mod.Tells.report {m n : Mod} (h : m.Tells n) (r : Report) : m.Tells (n.report r) :=
  ⟨by simp [h.ctl], by simp [h.run], by simpa using h.plan⟩

theorem Mod.Tells.reportFault {m n : Mod} (h : m.Tells n) (r : Report) : m.Tells (n.reportFault r) :=
  ⟨by simp [h.ctl], by simp [h.run], by simpa using h.plan⟩

theorem Mod.Tells.others {m n : Mod} (h : m.Tells n) : n.others = m.others := by
  obtain ⟨w, k, hp⟩ := h.plan
  simp only [Mod.others, Mod.set, Mod.hdr, hp]

/-! ### The attempt is discarded (spec 04, R134, R135) -/

/-- A first attempt is discarded; the round keeps its serial and waits for every DOUSE_READY, of which it holds rs. -/
structure Mod.Awaits (rs : List Nat) (m n : Mod) : Prop where
  ctl : n.ctl = m.ctl
  serial : n.run.serial = m.run.serial
  ents : n.run.ents = []
  staged : n.run.staged = []
  mark : n.run.mark = none
  readies : n.run.readies = rs
  phase : n.run.phase = if m.others.all (fun x => x ∈ rs) then .replay else .doused

/-- The last DOUSE_READY ends the wait. -/
theorem Mod.tryReady_doused {m : Mod} (h : m.run.phase = .doused) :
    ∃ ts, m.tryReady = { m with run := { m.run with
      phase := if m.others.all (fun x => x ∈ m.run.readies) then .replay else .doused, tokens := ts } } := by
  unfold Mod.tryReady
  by_cases ha : m.others.all (fun x => x ∈ m.run.readies)
  · rw [if_pos ⟨h, ha⟩, if_pos ha]; exact ⟨_, rfl⟩
  · rw [if_neg (fun hr => ha hr.2), if_neg ha, ← h]; exact ⟨_, rfl⟩

theorem Mod.tryReady_away {m : Mod} (h : m.run.phase ≠ .doused) : m.tryReady = m := by simp [Mod.tryReady, h]

/-- A discarded attempt waits for its DOUSE_READYs, of which some may be held. -/
theorem Mod.Tells.awaits {m n k : Mod} (h : m.Tells n) (hctl : k.ctl = n.ctl) (hplan : k.plan = n.plan)
    (hrun : k.run = { (n.discardAttempt .doused).run with readies := k.run.readies }) :
    m.Awaits k.run.readies k.tryReady ∧ k.tryReady.out = k.out := by
  have hothers : k.others = m.others := by
    rw [← h.others]; simp only [Mod.others, Mod.set, Mod.hdr, hplan]
  have hserial : n.run.serial = m.run.serial := by rw [h.run]
  obtain ⟨ts, hready⟩ := Mod.tryReady_doused (m := k) (by rw [hrun]; rfl)
  rw [hready, hothers]
  exact ⟨⟨hctl.trans h.ctl, by rw [hrun]; exact hserial, by rw [hrun]; rfl, by rw [hrun]; rfl, by rw [hrun]; rfl,
    rfl, rfl⟩, rfl⟩

/-- The plan halts with the attempt discarded (spec 04, R135; spec 03, R92). -/
theorem Mod.haltDiscarded_halts (m : Mod) (opcode detail : Nat) :
    Mod.Halts 2 (m.discardAttempt .none) (m.haltDiscarded opcode detail)
      ∧ (m.haltDiscarded opcode detail).run = (m.discardAttempt .none).run :=
  Mod.enterHalted_halts _ _ _ _

/-! ### Who douses -/

/-- The originator of a first attempt's douse (spec 04, R134). -/
theorem Mod.douseHere_awaits {m : Mod} {cause : Nat} (ha : m.run.attempt = 0) (hc : cause ≠ Douse.halt) :
    m.Awaits m.run.readies (m.douseHere cause)
      ∧ (m.douseHere cause).out = { m.out with attn := m.out.attn ||| Attn.fault } := by
  obtain ⟨htell, hout⟩ := m.countDouse_tells 2 m.run.attempt cause false
  unfold Mod.douseHere
  extract_lets n k r
  have hfirst : ¬ k.run.attempt = 1 := by rw [htell.run, ha]; decide
  have hr : m.Tells r := htell.report _
  have hro : r.out = { m.out with attn := m.out.attn ||| Attn.fault } := by rw [Mod.report_out, hout]; rfl
  clear_value r
  obtain ⟨hwait, hwo⟩ := hr.awaits (k := r.discardAttempt .doused) rfl rfl rfl
  rw [if_neg hfirst, if_neg hc, ← congrArg Run.readies hr.run]
  exact ⟨hwait, hwo.trans hro⟩

/-- The originator of a replay's douse (spec 04, R135). -/
theorem Mod.douseHere_halts {m : Mod} (cause : Nat) (ha : m.run.attempt = 1) :
    ∃ n : Mod, m.douseHere cause = n.haltDiscarded 0xFFFF Detail.roundReplayFail := by
  obtain ⟨htell, -⟩ := m.countDouse_tells 2 m.run.attempt cause false
  unfold Mod.douseHere
  extract_lets n k
  exact ⟨_, if_pos (by rw [htell.run]; exact ha)⟩

/-- A member that another member's DOUSE of a first attempt reaches (spec 04, R134). -/
theorem Mod.douseFrom_awaits {m : Mod} {x : EmberMsg} (ha : m.run.attempt = 0) (hc : x.cause ≠ Douse.halt) :
    m.Awaits (x.sender :: m.run.readies) (m.douseFrom x) ∧ ∃ a, (m.douseFrom x).out = { m.out with attn := a } := by
  obtain ⟨htell, hout⟩ := m.countDouse_tells 3 m.run.attempt 0 true
  unfold Mod.douseFrom
  extract_lets n k r d
  have hfirst : ¬ k.run.attempt = 1 := by rw [htell.run, ha]; decide
  have hr : m.Tells r := htell.reportFault _
  obtain ⟨a, hro⟩ : ∃ a, r.out = { k.out with attn := a } := k.reportFault_out_any _
  clear_value r
  obtain ⟨hwait, hwo⟩ :=
    hr.awaits (k := { d with run := { d.run with readies := x.sender :: d.run.readies } }) rfl rfl rfl
  rw [if_neg hfirst, if_neg hc, ← congrArg Run.readies hr.run]
  exact ⟨hwait, a, hwo.trans (hro.trans (by rw [hout]))⟩

/-! ### The events -/

theorem Mod.originate_marked {m : Mod} {cause : Nat} (hm : m.run.mark = some cause) (hr : m.run.phase.runs = true)
    (hs : m.ctl.state = .running) : m.originate = m.douseHere cause := by
  simp [Mod.originate, hm, hr, hs]

/-- A DOUSE of the running attempt is taken (spec 04, R128). -/
theorem Mod.takeDouse_running {m : Mod} {x : EmberMsg} (ho : m.ownMsg x = true) (hr : m.run.phase.runs = true)
    (hs : m.ctl.state = .running) : m.takeDouse x = m.douseFrom x := by
  simp [Mod.takeDouse, ho, hr, hs]

/-- A DOUSE_READY that is not the one waited for is held (spec 04, R134). -/
theorem Mod.takeReady_held {m : Mod} {x : EmberMsg} (ho : m.ownMsg x = true) (hp : m.run.phase ≠ .doused)
    (hn : x.sender ∉ m.run.readies) :
    m.takeReady x = { m with run := { m.run with readies := x.sender :: m.run.readies } } := by
  simp only [Mod.takeReady, ho, hn]
  exact Mod.tryReady_away hp

/-- The replay runs from now as attempt 1 under the same serial (spec 04, R128, R134). -/
theorem Mod.replayStarts_runs {m : Mod} (hp : m.run.phase = .replay) (hs : m.ctl.state = .running) (he : m.fab.early = [])
    (hf : m.fab.flagWait = []) :
    m.replayStarts.out = m.out ∧ m.replayStarts.run.phase = .run ∧ m.replayStarts.run.attempt = 1
      ∧ m.replayStarts.run.serial = m.run.serial ∧ m.replayStarts.run.start = m.fab.time ∧ m.replayStarts.plan = m.plan := by
  have hnow : m.replayStarts = m.replayNow := if_pos ⟨hp, hs⟩
  obtain ⟨_, _, _, _, _, harm⟩ := (m.resetRun 1 m.run.serial).armStreams_arms
  rw [hnow, Mod.replayNow, harm, Mod.releaseEarly_none (by exact he) (by exact hf)]
  exact ⟨rfl, rfl, rfl, rfl, rfl, rfl⟩

/-- Settles O39: each douse by who originates it and which attempt it ends, the replay by `Mod.replayStarts_runs`. -/
theorem dousedRoundsReplay : Obligations.DousedRoundsReplay := by
  intro s hq hs
  refine ⟨fun cause hm hr => ⟨fun ha hc => ?_, fun ha => ?_⟩, fun msg ho hr ha hc => ?_, fun msg ho hp hn => ?_,
    fun hp he hf => ?_⟩
  · obtain ⟨hwait, hout⟩ := Mod.douseHere_awaits (m := s.m.fresh) ha hc
    rw [← Mod.originate_marked (m := s.m.fresh) hm hr hs] at hwait hout
    refine ⟨_, rfl, State.event_observed (ks := []) (hout.trans ?_), ?_⟩
    · rw [show s.m.fresh.out = Outbox.empty from hq]; rfl
    · rw [State.event_ctl, State.event_run, hwait.ctl]
      exact ⟨hs, hwait.serial, hwait.ents, hwait.staged, hwait.mark, hwait.phase⟩
  · obtain ⟨n, hhalt⟩ := Mod.douseHere_halts (m := s.m.fresh) cause ha
    obtain ⟨hhalts, hrun⟩ := n.haltDiscarded_halts 0xFFFF Detail.roundReplayFail
    rw [← hhalt, ← Mod.originate_marked (m := s.m.fresh) hm hr hs] at hhalts hrun
    refine ⟨_, rfl, ?_⟩
    simp only [State.event_ctl, State.event_plan, State.event_run, hrun]
    exact ⟨hhalts.state, hhalts.st, hhalts.haltKind, rfl, rfl⟩
  · obtain ⟨hwait, hout⟩ := Mod.douseFrom_awaits (m := s.m.fresh) ha hc
    rw [← Mod.takeDouse_running (m := s.m.fresh) ho hr hs] at hwait hout
    refine ⟨_, rfl, ?_⟩
    simp only [State.event_ctl, State.event_run, hwait.ctl]
    exact ⟨hs, hwait.serial, hwait.ents, hwait.staged, hwait.readies, State.event_observed_any hq hout⟩
  · exact hq.happens rfl (Mod.takeReady_held (m := s.m.fresh) ho hp hn) rfl
  · obtain ⟨hout, hphase, hattempt, hserial, hstart, hplan⟩ := Mod.replayStarts_runs (m := s.m.fresh) hp hs he hf
    refine ⟨_, rfl, hq.observed hout, ?_⟩
    rw [State.event_run, State.event_plan]
    exact ⟨hphase, hattempt, hserial, hstart, hplan⟩

end Sys2Proof.Machine

/-! PROOFS. Module and host memory hold what is written (O60). -/
namespace Sys2Proof.Machine

/-! ### The bytes of a reply -/

theorem leBytes_length : ∀ n v : Nat, (leBytes n v).length = n
  | 0, _ => rfl
  | n + 1, v => congrArg (· + 1) (leBytes_length n (v / 256))

theorem fitBytes_length (n : Nat) (bs : Bytes) : (fitBytes n bs).length = n := by
  simp only [fitBytes, zeros, List.length_append, List.length_take, List.length_replicate]
  omega

/-- A reply has 32 bytes (spec 15, R475). -/
theorem replyBytes_length (seq tag : Word) (attn : Byte) (cls detail opcode kind : Nat) (result : Bytes) :
    (replyBytes seq tag attn cls detail opcode kind result).length = 32 := by
  simp [replyBytes, leBytes_length, fitBytes_length]

/-! ### What a write leaves in a memory -/

/-- mem' is mem with bs written from address a: canonical, bs where it was written, mem elsewhere. -/
structure Memory.Holds (mem : List Host.Cell) (a : Nat) (bs : Bytes) (mem' : List Host.Cell) : Prop where
  wf : Memory.wf mem' = true
  inside : ∀ i (hi : i < bs.length), SMap.get 0 mem' (a + i) = bs[i]
  outside : ∀ x, x < a ∨ a + bs.length ≤ x → SMap.get 0 mem' x = SMap.get 0 mem x

theorem putBytes_holds {mem : List Host.Cell} (h : Memory.wf mem = true) (a : Nat) (bs : Bytes) :
    Memory.Holds mem a bs (putBytes mem a bs) where
  wf := putBytes_wf bs mem a h
  inside i hi := putBytes_inside bs mem a i h hi
  outside x hx := putBytes_outside bs mem a x h hx

/-! ### A completion that is owed -/

/-- A ring that runs takes a reply into its next slot (spec 15, R466, R470). -/
theorem HostIo.putReply_running {io : HostIo} {r : Reply} (hrun : (io.port r.port).running = true) (kind : Nat) :
    let x := io.port r.port
    (io.putReply kind r).mem = putBytes io.mem (hostKey r.port (x.replyBase.toNat + 32 * (x.replyProduced.toNat % 4096)))
        (replyBytes x.replyProduced r.tag x.attn r.cls r.detail r.opcode kind r.result)
      ∧ (io.putReply kind r).port r.port = { x with replyProduced := x.replyProduced + 1 } := by
  simp only [HostIo.putReply, hrun, if_true, HostIo.mem_setPort, HostIo.port_setPort, and_self]

/-- An owed completion takes the next slot of a ring that runs, and its debt goes (spec 15, R470, R476). -/
theorem HostIo.putCompletion_owed {io : HostIo} {r : Reply} (hrun : (io.port r.port).running = true)
    (howed : io.owes r = true) :
    let x := io.port r.port
    (io.putCompletion r).mem = putBytes io.mem (hostKey r.port (x.replyBase.toNat + 32 * (x.replyProduced.toNat % 4096)))
        (replyBytes x.replyProduced r.tag x.attn r.cls r.detail r.opcode 1 r.result)
      ∧ (io.putCompletion r).port r.port
          = { x with replyProduced := x.replyProduced + 1, owed := dropOwed r.tag r.opcode x.owed } := by
  have hport := HostIo.port_setPort io r.port
    { io.port r.port with owed := dropOwed r.tag r.opcode (io.port r.port).owed }
  obtain ⟨hmem, hnext⟩ := HostIo.putReply_running (r := r) (by rw [hport]; exact hrun) 1
  rw [hport, HostIo.mem_setPort] at hmem
  rw [hport] at hnext
  simp only [HostIo.putCompletion, howed, if_true]
  exact ⟨hmem, hnext⟩

/-- Settles O60: `putBytes_holds` of the module's memory, of a host buffer, and of the slot that
`HostIo.putCompletion_owed` names. -/
theorem memoryHoldsWhatIsWritten : Obligations.MemoryHoldsWhatIsWritten := by
  refine ⟨fun m a bs hcan => ?_, fun io port bus bs hwf => ?_, fun io r hwf hrun howed => ?_⟩
  · exact ⟨Mod.wr_canonical hcan a bs, fun i hi => Mod.rd_wr_inside hcan a i bs hi,
      fun x hx => Mod.rd_wr_outside hcan a x bs hx, Mod.wr_bank m a bs, Mod.wr_plan m a bs, Mod.wr_ctl m a bs⟩
  · have h := putBytes_holds hwf (hostKey port bus) bs
    exact ⟨h.wf, h.inside, h.outside, rfl, rfl⟩
  · obtain ⟨hmem, hport⟩ := HostIo.putCompletion_owed hrun howed
    intro x slot bs n
    have hlen : bs.length = 32 := replyBytes_length ..
    have h : Memory.Holds io.mem (hostKey r.port slot) bs n.mem := hmem ▸ putBytes_holds hwf _ _
    exact ⟨hlen, h.wf, h.inside, hlen ▸ h.outside, by rw [hport], by rw [hport]⟩

end Sys2Proof.Machine

/-! PROOFS. Repartitions, patrol corrections and poisoned reads (O28). -/
namespace Sys2Proof.Machine

/-! ### Repartitions (spec 05, R148, R150) -/

theorem State.found_stacksOn (s : State) (h : Cmd) : (s.found h).stacksOn = s.m.stacksOn := by
  obtain ⟨_, _, hf⟩ := s.found_eq h; rw [hf]; rfl
theorem State.found_bankRuns (s : State) (h : Cmd) : (s.found h).bankRuns = s.m.bankRuns := by
  obtain ⟨_, _, hf⟩ := s.found_eq h; rw [hf]; rfl
theorem State.found_streamBusy (s : State) (h : Cmd) : (s.found h).streamBusy = s.m.streamBusy := by
  obtain ⟨_, _, hf⟩ := s.found_eq h; rw [hf]; rfl
theorem State.found_noPlan (s : State) (h : Cmd) : (s.found h).noPlan = s.m.noPlan := by
  obtain ⟨_, _, hf⟩ := s.found_eq h; rw [hf]; rfl

/-- An accepted repartition has the four sizes and waits for its completion; it hands nothing over. -/
theorem Mod.repartition_sizes (m : Mod) (w p g b : Nat) (t : Ticket) :
    (m.repartition w p g b t).out = m.out
      ∧ ∃ mem poison, (m.repartition w p g b t).hbm = { m.hbm with
          mem := mem, poison := poison, w := w, planGib := p, settleGib := g, bankGib := b, repart := some t } := by
  unfold Mod.repartition
  extract_lets same old n k
  split
  · exact ⟨rfl, _, _, rfl⟩
  · exact ⟨rfl, _, _, rfl⟩

/-- With a new width no bank region stays: every byte of HBM is zero. -/
theorem Mod.repartition_clears {m : Mod} {w : Nat} (hw : w ≠ m.hbm.w) (p g b : Nat) (t : Ticket) :
    (m.repartition w p g b t).hbm.mem = SMap.keep m.hbm.mem (fun a => decide (hbmEnd ≤ a)) := by
  simp [Mod.repartition, Mod.zeroHbm, hw]

/-! ### Codewords (spec 05, R152, R154, R155) -/

/-- A corrected symbol is counted for its pseudo-channel in the hour; memory, poison and the round stand. -/
theorem Mod.corrected_counts (m : Mod) (a : Nat) (symbols : List Nat) :
    (m.corrected a symbols).hbm.mem = m.hbm.mem ∧ (m.corrected a symbols).hbm.poison = m.hbm.poison
      ∧ (m.corrected a symbols).run = m.run
      ∧ SMap.get 0 (m.corrected a symbols).hbm.fixes (m.hbm.pcOf a)
        = (if m.powerOnS / 3600 = m.hbm.hour then SMap.get 0 m.hbm.fixes (m.hbm.pcOf a) else 0) + 1 := by
  unfold Mod.corrected
  extract_lets pc hour n was ofHour h
  have hmem : h.mem = m.hbm.mem := by unfold h ofHour; split <;> rfl
  have hpoison : h.poison = m.hbm.poison := by unfold h ofHour; split <;> rfl
  have hfixes : SMap.get 0 h.fixes pc = (if hour = m.hbm.hour then SMap.get 0 m.hbm.fixes pc else 0) + 1 := by
    refine (SMap.get_put_same (Nat.succ_ne_zero _) ofHour.fixes pc).trans ?_
    unfold ofHour
    split
    next hsame => exact congrArg (· + 1) (if_pos hsame).symm
    next hnew => exact congrArg (· + 1) (if_neg hnew).symm
  split
  · simp only [Mod.report_hbm, Mod.report_run]
    exact ⟨hmem, hpoison, rfl, hfixes⟩
  · exact ⟨hmem, hpoison, rfl, hfixes⟩

/-- A poisoned codeword is met: it keeps its symbols, is noted for the whole-stack rule, and reported. -/
structure Mod.MeetsPoison (a : Nat) (symbols : List Nat) (m n : Mod) : Prop where
  out : m.out = Outbox.empty → n.out = { Outbox.empty with attn := Attn.fault }
  run : n.run = m.run
  mem : n.hbm.mem = m.hbm.mem
  symbols : SMap.get [] n.hbm.poison (a / 64 * 64) = symbols
  seen : n.hbm.poisonSeen.getLast? = some (m.ctl.powerOnMs, m.hbm.pcOf a)

theorem Mod.setPoison_poisonMet_meets (m : Mod) (a : Nat) (symbols : List Nat) :
    m.MeetsPoison a symbols ((m.setPoison a symbols).poisonMet a symbols) := by
  refine ⟨fun hm => Mod.reportFault_out_quiet hm (BitVec.or_self : Attn.fault ||| _ = _), ?_, ?_, ?_, ?_⟩ <;>
    simp only [Mod.poisonMet, Mod.reportFault_run, Mod.reportFault_hbm, Mod.count_run, Mod.count_hbm]
  · rfl
  · rfl
  · exact SMap.get_ins_same [] symbols _ _
  · exact List.getLast?_concat ..

/-- Two symbols in error or more reach the reader as poison, once the codeword is met. -/
theorem Mod.hbmRead_poisoned (m : Mod) (a : Nat) {symbols : List Nat} (h : 2 ≤ symbols.length) (reader : PoisonReader) :
    ∃ n, m.MeetsPoison a symbols n ∧ m.hbmRead a symbols reader = n.readerPoison reader (a / 64 * 64) := by
  have hne : symbols ≠ [] := List.ne_nil_of_length_pos (by omega)
  exact ⟨_, m.setPoison_poisonMet_meets a symbols, by simp [Mod.hbmRead, h, hne]⟩

/-- The patrol meets such a codeword too. -/
theorem Mod.patrolRead_poisoned (m : Mod) (a : Nat) {symbols : List Nat} (h : 2 ≤ symbols.length) :
    m.MeetsPoison a symbols (m.patrolRead a symbols) := by
  have hne : symbols ≠ [] := List.ne_nil_of_length_pos (by omega)
  have hread : m.patrolRead a symbols = (m.setPoison a symbols).poisonMet a symbols := by simp [Mod.patrolRead, h, hne]
  exact hread ▸ m.setPoison_poisonMet_meets a symbols

/-- One symbol in error of a codeword that is not poisoned is corrected. -/
theorem Mod.hbmRead_corrected {m : Mod} {a : Nat} (h : SMap.get [] m.hbm.poison (a / 64 * 64) = []) (x : Nat)
    (reader : PoisonReader) : m.hbmRead a [x] reader = m.corrected a [x] := by
  simp [Mod.hbmRead, h]

/-! ### Readers (spec 05, R154; spec 03, R109) -/

/-- An item in RUN goes back; memory stands. -/
theorem Mod.itemPoison_returns {m : Mod} {n : Nat} (hr : m.run.phase = .run) (he : (m.ent n).st = .running) (cw : Nat) :
    (m.itemPoison n cw).hbm = m.hbm ∧ (m.itemPoison n cw).run.ents = SMap.upd Ent.free m.run.ents n Ent.back := by
  unfold Mod.itemPoison
  extract_lets e again back was hit
  rw [if_pos ⟨hr, .inl he⟩]
  split
  · have h := hit.markDouse_counts Douse.fence
    exact ⟨h.stores.hbm, h.work.ents⟩
  · exact ⟨rfl, rfl⟩

/-- An attempt in RUN without a mark takes the cause. -/
theorem Mod.markDouse_marks {m : Mod} (hr : m.run.phase = .run) (hm : m.run.mark = none) (cause : Nat) :
    (m.markDouse cause).run.mark = some cause := by
  simp [Mod.markDouse, hr, hm, Phase.runs]

/-! ### The events -/

section
variable {s : State} {a : Nat} (ha : a < hbmEnd) (hd : s.m.dataPlane = true)
  (hst : (s.m.stack (s.m.hbm.decode a).1).ps = 2)

include hd hst in
/-- With the data plane up and the stack ON, what reads the stack has its effect. -/
theorem State.event_stackOn (f : Mod → Mod) :
    s.event (fun m => if !m.dataPlane ∨ (m.stack (m.hbm.decode a).1).ps ≠ 2 then m else f m) = s.event f := by
  have hnot : ¬ ((!s.m.fresh.dataPlane) = true ∨ (s.m.fresh.stack (s.m.fresh.hbm.decode a).1).ps ≠ 2) := by
    rintro (h | h)
    · exact absurd (show s.m.fresh.dataPlane = true from hd) (by simpa using h)
    · exact h hst
  exact congrArg (fun m => State.flush { s with m := m }) (if_neg hnot)

include ha hd hst

theorem execHbmPatrol_stackOn (symbols : List Nat) :
    exec (.hbmPatrol a symbols) s = .next (s.event (fun m => m.patrolRead a symbols)) :=
  (if_neg (Nat.not_le.2 ha)).trans (congrArg _ (State.event_stackOn hd hst _))

/-- What is left to show of a read of HBM, where P speaks of memory and round alone. -/
theorem hbmPoisonRead_completes {symbols : List Nat} {reader : PoisonReader} {P : State → Prop}
    (hP : ∀ t, t.m.hbm = (s.m.fresh.hbmRead a symbols reader).hbm →
      t.m.run = (s.m.fresh.hbmRead a symbols reader).run → P t) : Completes (.hbmPoisonRead a symbols reader) s P :=
  ⟨_, (if_pos ha).trans (congrArg _ (State.event_stackOn hd hst _)), hP _ (State.event_hbm s _) (State.event_run s _)⟩

end

/-- Settles O28: a repartition by `Mod.repartition_sizes` and `Mod.repartition_clears`, a codeword by `Mod.MeetsPoison` or
`Mod.corrected_counts`, and a poisoned read by what its reader does. -/
theorem partitionsAndPoison : Obligations.PartitionsAndPoison := by
  refine ⟨fun s h w p g b hs hown ha hb hw hw' hp hp' hg hg' hb' hsum hst hplan href hon hbank hstream => ?_,
    fun s hq => ⟨fun w hw => ?_, fun a symbols ha => if_pos ha, fun a symbols ha hd hst h2 => ?_,
      fun a x reader ha hd hst hclean => ?_, fun a symbols n ha hd hst h2 hrun hent => ?_,
      fun a symbols n ha hd hst h2 hrun hmark => ?_, fun a symbols reader ha hpool => ?_⟩⟩
  · obtain ⟨hout, mem, poison, hhbm⟩ :=
      (s.found h).repartition_sizes w.toNat p.toNat g.toNat b.toNat ⟨h.port, h.tag⟩
    refine hs.completes (i := .hbmPartition h w p g b) (b := 0) (ks := []) rfl ha (fun _ => hown) rfl rfl
      (plainParams_none hb ?_ (s.found h)) ((if_neg ?_).trans (if_neg ?_)) (.inr rfl)
      (hout.trans ((s.found_out h).trans hs.quiet)) (by simp) (fun t hans hm => ?_)
    · simp [(BitVec.pos_iff_ne_zero w).1 hw, (BitVec.pos_iff_ne_zero p).1 hp, (BitVec.pos_iff_ne_zero g).1 hg, hw', hp', hg',
        hb', hsum]
    · simp [s.found_noPlan, s.found_refLost, s.found_stacksOn, hst, hplan, href, hon]
    · simp [s.found_bankRuns, s.found_streamBusy, hbank, hstream]
    · refine ⟨hans, ?_⟩
      rw [hm, ← s.found_hbm h]
      exact ⟨congrArg Hbm.w hhbm, congrArg Hbm.planGib hhbm, congrArg Hbm.settleGib hhbm, congrArg Hbm.bankGib hhbm,
        congrArg Hbm.repart hhbm,
        fun hne => Mod.repartition_clears hne _ _ _ _⟩
  · exact hq.happens_complete (m := { s.m.fresh with hbm := { s.m.hbm with repart := none } }) rfl
      (by simp only [Mod.fresh_hbm, hw]) rfl (by decide)
  · have h := s.m.fresh.patrolRead_poisoned a h2
    refine ⟨_, execHbmPatrol_stackOn ha hd hst symbols, State.event_observed (h.out hq), ?_⟩
    rw [State.event_hbm]
    exact ⟨h.symbols, h.seen, h.mem⟩
  · have h := s.m.fresh.corrected_counts a [x]
    refine hbmPoisonRead_completes ha hd hst (fun t hhbm hrun => ?_)
    rw [hhbm, hrun, Mod.hbmRead_corrected (m := s.m.fresh) hclean]
    exact h
  · obtain ⟨k, hk, hread⟩ := s.m.fresh.hbmRead_poisoned a h2 (.item n)
    obtain ⟨hmem, hents⟩ := Mod.itemPoison_returns (m := k) (n := n) (by rw [hk.run]; exact hrun)
      (by rw [Mod.ent, hk.run]; exact hent) (a / 64 * 64)
    refine hbmPoisonRead_completes ha hd hst (fun t hhbm' hrun' => ?_)
    rw [hhbm', hrun', hread, Mod.readerPoison, hmem, hents, hk.run]
    exact ⟨hk.symbols, rfl⟩
  · obtain ⟨k, hk, hread⟩ := s.m.fresh.hbmRead_poisoned a h2 (.combine n)
    refine hbmPoisonRead_completes ha hd hst (fun t _ hrun' => ?_)
    rw [hrun', hread]
    exact Mod.markDouse_marks (by rw [hk.run]; exact hrun) (by rw [hk.run]; exact hmark) Douse.fence
  · exact (if_neg (Nat.not_lt.2 ha)).trans (if_neg (ne_true_of_eq_false hpool))

end Sys2Proof.Machine

/-! PROOFS. Regions are registered and revoked (O6). -/
namespace Sys2Proof.Machine

/-! ### Commands that are REJECTED (spec 15, R474) -/

/-- A command that the checks answer REJECTED: nothing is left of it but its count. -/
theorem State.Starts.rejects {i : Instr} {s : State} {h : Cmd} {c : CmdSpec} {detail : Nat} (hs : s.Starts h)
    (hx : exec i s = .next (runCmd h c s)) (hj : c.judge h (s.found h) = Ans.rejected (s.found h) detail) :
    Rejects i s h c.opcode detail := by
  have hguard : (Ans.rejected (s.found h) detail).guard c.opcode (s.found h) = Ans.rejected (s.found h) detail := by
    unfold Ans.guard; split <;> rfl
  refine ⟨_, hx, ?_⟩
  rw [runCmd_starts hs, hj, hguard, State.answer_rejected hs.running ((s.found_out h).trans hs.quiet)]
  exact ⟨⟨rfl, rfl⟩, rfl⟩

/-- The parameter check of a command that any port may send answers a detail. -/
theorem State.Starts.rejects_params {i : Instr} {s : State} {h : Cmd} {c : CmdSpec} {detail : Nat} (hs : s.Starts h)
    (hx : exec i s = .next (runCmd h c s)) (ho : c.ownerOnly = false) (hres : c.reserved = false)
    (hforb : c.forbidden (s.found h) = false) (hpar : c.params (s.found h) = some detail) :
    Rejects i s h c.opcode detail :=
  hs.rejects hx (by simp [CmdSpec.judge, hs.reserved, ho, hres, hforb, hpar])

/-- The checks pass, and the command's own effect answers REJECTED. -/
theorem State.Starts.rejects_run {i : Instr} {s : State} {h : Cmd} {c : CmdSpec} {detail : Nat} (hs : s.Starts h)
    (hx : exec i s = .next (runCmd h c s)) (ha : s.accepts c.opcode) (ho : c.ownerOnly = false) (hres : c.reserved = false)
    (hforb : c.forbidden (s.found h) = false) (hpar : c.params (s.found h) = none)
    (hrun : c.run (s.found h) = Ans.rejected (s.found h) detail) : Rejects i s h c.opcode detail :=
  hs.rejects hx ((CmdSpec.judge_run hs.reserved hres (by simp [ho]) hforb hpar (by simpa using ha.1)
    (by simpa using ha.2)).trans hrun)

/-! ### Region entries (spec 06, R195, R196) -/

theorem State.found_region (s : State) (h : Cmd) (id : Nat) : (s.found h).region id = s.m.region id := by
  simp [Mod.region]

/-- The parameters that R195 refuses. -/
theorem regionIllegal_iff {id access base size : Nat} : regionIllegal id access base size = true ↔
    4095 < id ∨ base % 4096 ≠ 0 ∨ size % 4096 ≠ 0 ∨ size < 4096 ∨ 2 ^ 40 < size ∨ 2 ^ 64 < base + size ∨ access = 0 := by
  simp only [regionIllegal, Bool.or_eq_true, decide_eq_true_eq, bne_iff_ne, beq_iff_eq, or_assoc]

/-- A revoke that ends frees its entry and completes its command, if one is owed (spec 06, R196). -/
theorem Mod.freeRegion_revoking {m : Mod} {id : Nat} {k : Option Ticket} (hst : (m.region id).state = .revoking)
    (hk : (m.region id).ticket = k) :
    m.freeRegion id = (m.setRegion id { Region.free with gen := (m.region id).gen, drained := (m.region id).drained }).completeOpt
      k Op.regionRevoke Cls.ok Detail.none [] := by
  subst hk; exact if_pos hst

/-- Settles O6: a refusal by the check that fails, a registration and a revoke by the entry they write, the end of a revoke
by `Mod.freeRegion_revoking`. -/
theorem regionsRegisterAndRevoke : Obligations.RegionsRegisterAndRevoke := by
  intro s h id
  refine ⟨fun access base size hs _ _ hacc hbad => ?_, fun access base size hs hb ha hacc hok hst => ?_,
    fun access base size hs hb ha hacc hok hst => ?_, fun hs hb ha hid hst hport => ?_, fun n k hq hst hk => ?_,
    fun n hq hst hk => ?_⟩
  · exact (hs.rejects_params (i := .regionRegister h id access base size) (detail := Detail.badParam) rfl rfl
      (by simpa using hacc) rfl (by simp [plainParams, regionIllegal_iff.2 hbad]) :)
  · rw [← s.found_region h] at hst
    exact (hs.rejects_run (i := .regionRegister h id access base size) rfl ha rfl (by simpa using hacc) rfl
      (plainParams_none hb hok (s.found h)) (if_pos hst) :)
  · rw [← s.found_region h] at hst ⊢
    exact (hs.replies (i := .regionRegister h id access base size) rfl ha (fun ho => nomatch ho) (by simpa using hacc) rfl
      (plainParams_none hb hok (s.found h)) (if_neg (Classical.not_not.2 hst)) (.inl rfl) (s.found_out h) :)
  · rw [← s.found_region h] at hst hport ⊢
    exact (hs.replies (i := .regionRevoke h id) rfl ha (fun ho => nomatch ho) rfl (by simp [hport])
      (plainParams_none hb (by simpa using hid) (s.found h)) (if_neg (Classical.not_not.2 hst)) (.inr rfl) (s.found_out h) :)
  · exact hq.happens_complete rfl (Mod.freeRegion_revoking (m := s.m.fresh) hst hk) rfl (by decide)
  · exact hq.happens rfl (Mod.freeRegion_revoking (m := s.m.fresh) hst hk) rfl

end Sys2Proof.Machine

/-! PROOFS. Command streams (O31). -/
namespace Sys2Proof.Machine

theorem State.found_commandSub (s : State) (h : Cmd) (d : StreamDesc) : (s.found h).commandSub d = s.m.commandSub d := by
  obtain ⟨_, _, hf⟩ := s.found_eq h; rw [hf]; rfl
theorem State.found_keptOut (s : State) (h : Cmd) (d : StreamDesc) : (s.found h).keptOut d = s.m.keptOut d := by
  obtain ⟨_, _, hf⟩ := s.found_eq h; rw [hf]; rfl
theorem State.found_resumable (s : State) (h : Cmd) (c : Ctx) : (s.found h).resumable c = s.m.resumable c := by
  obtain ⟨_, _, hf⟩ := s.found_eq h; rw [hf]; rfl
theorem State.found_ctx (s : State) (h : Cmd) (n : Nat) : (s.found h).ctx n = s.m.ctx n := by simp [Mod.ctx]

/-! ### The effects of the stream commands -/

/-- A legal descriptor takes the lowest free context of its home core (spec 06, R204). -/
theorem Mod.streamCreate_takes {m : Mod} {port handle : Nat} {bs : Bytes} {rest : List Nat} (hw : streamWordsBad bs = false)
    (hsub : m.commandSub (parseStream bs) = 0) (hctx : m.cmdCtxs (parseStream bs).homeCore = handle :: rest) :
    m.streamCreate port bs =
      Ans.ok (m.setCtx handle (some (Ctx.fresh .command .idle 0xFFFFFFFF port (parseStream bs)))) (leBytes 4 handle) := by
  simp [Mod.streamCreate, hw, hsub, hctx]

/-- The descriptor that an arming of context c gives its generation: a base of zero stays as it is (spec 06, R206). -/
def Ctx.rebased (c : Ctx) (src dst : Nat) : StreamDesc :=
  { c.desc with srcBase := if src = 0 then c.desc.srcBase else src, dstBase := if dst = 0 then c.desc.dstBase else dst }

/-- An IDLE stream starts the generation (spec 06, R206). -/
theorem Mod.streamArm_idle {m : Mod} {h src dst : Nat} {c : Ctx} (t : Ticket) (hst : c.st = .idle)
    (hsub : m.commandSub (c.rebased src dst) = 0) (hkept : m.keptOut (c.rebased src dst) = false) :
    m.streamArm h c src dst t =
      Ans.accepted (m.setCtx h (some (c.generation (c.rebased src dst).srcBase (c.rebased src dst).dstBase t))) :=
  (if_neg (Classical.not_not.2 hsub)).trans ((if_neg (ne_true_of_eq_false hkept)).trans (if_pos hst))

/-- A command stream held by the region table goes on from its resume index (spec 06, R199). -/
theorem Mod.streamResume_command {m : Mod} {h : Nat} {c : Ctx} (hu : c.use = .command) (hc : c.cause ≠ 4) :
    m.streamResume h c = m.setCtx h (some { c with st := .active, cause := 0 }) := by
  simp [Mod.streamResume, hu, hc]

/-! ### The end of a generation (spec 06, R206) -/

/-- What a context holds after a generation: the pending one, or an IDLE stream. -/
def Ctx.nextGeneration (c : Ctx) : Ctx :=
  match c.pend with
  | some g => c.generation g.src g.dst g.ticket
  | none => { c with st := .idle, cause := 0, resume := 0, ticket := none }

theorem Mod.generationEnds_owed {m : Mod} {h : Nat} {c : Ctx} {w : Ticket} (hw : c.ticket = some w) (cls detail : Nat) :
    m.generationEnds h c cls detail = (m.complete w Op.streamArm cls detail []).setCtx h (some c.nextGeneration) := by
  simp only [Mod.generationEnds, hw]
  rfl

/-- A command stream whose accesses all succeed moves what is left of it, and its generation is over. -/
theorem Mod.commandDone_ends {m : Mod} {handle : Nat} {c : Ctx} {data : Bytes} (hc : m.ctx handle = some c)
    (hu : c.use = .command) (hst : c.st = .active) (hcause : c.cause = 0) (hd : m.dataPlane = true)
    (hfit : c.desc.dataFits none c.resume c.desc.positions data = true)
    (hok : m.settledOk c c.resume c.desc.positions = true) :
    m.commandDone handle data =
      (m.moveSettled c none c.resume c.desc.positions data).generationEnds handle c Cls.ok Detail.none := by
  simp [Mod.commandDone, hc, hu, hst, hcause, hd, hfit, hok]

/-- Settles O31: each command by its effect, the end of a generation by `Mod.commandDone_ends`. -/
theorem commandStreams : Obligations.CommandStreams := by
  refine ⟨fun s h hs hl => ⟨fun desc handle rest ha hbuf hwords hsub hctxs => ?_, fun handle c hh hb hc hu hport => ?_⟩,
    fun s handle data c w hq hc hu hst hcause hd hfit hok hw => ?_⟩
  · rw [← s.found_commandSub h] at hsub
    rw [← s.found_cmdCtxs h] at hctxs
    exact (hs.replies (i := .streamCreate h (.data desc)) rfl ha (fun ho => nomatch ho) rfl rfl (by simp [hbuf])
      ((if_neg (by simp [s.found_refLost, hl])).trans (Mod.streamCreate_takes hwords hsub hctxs)) (.inl rfl) (s.found_out h) :)
  · rw [← s.found_ctx h] at hc
    have hpar := plainParams_none hb (bad := decide (4095 < handle.toNat)) (by simpa using hh) (s.found h)
    refine ⟨fun src dst ha hst hsub hkept => ?_, fun ha hst hres hcause => ?_, fun ha hst => ?_⟩
    · rw [← s.found_commandSub h] at hsub
      rw [← s.found_keptOut h] at hkept
      refine (hs.replies (i := .streamArm h handle src dst) rfl ha (fun ho => nomatch ho) rfl
        (by simp [Mod.otherPorts, hc, hport]) hpar ?_ (.inr rfl) ?_ :)
      · dsimp only
        rw [hc]
        exact (if_neg (by simp [hu, s.found_refLost, hl])).trans (Mod.streamArm_idle _ hst hsub hkept)
      · exact s.found_out h
    · refine (hs.replies (i := .streamResume h handle) rfl ha (fun ho => nomatch ho) rfl
        (by simp [Mod.notForPort, hc, hu, hport]) hpar ?_ (.inl rfl) ?_ :)
      · dsimp only
        rw [hc]
        exact (if_neg (by simp [hst, s.found_refLost, hl, s.found_resumable, hres])).trans
          (congrArg (Ans.ok ·) (Mod.streamResume_command hu hcause))
      · exact s.found_out h
    · refine (hs.replies (i := .streamRetire h handle) rfl ha (fun ho => nomatch ho) rfl
        (by simp [Mod.notForPort, hc, hu, hport]) hpar ?_ (.inl rfl) ?_ :)
      · dsimp only
        rw [hc]
        exact (if_neg (by simp [hst])).trans (if_pos ⟨hu, hst⟩)
      · exact s.found_out h
  · have hdone := (Mod.commandDone_ends (m := s.m.fresh) hc hu hst hcause hd hfit hok).trans
      (Mod.generationEnds_owed hw Cls.ok Detail.none)
    have hmove := s.m.fresh.moveSettled_moves c none c.resume c.desc.positions data
    obtain ⟨ws, hws⟩ := hmove.out
    have hout : (s.m.fresh.moveSettled c none c.resume c.desc.positions data).out = { Outbox.empty with host := ws } :=
      hws.trans (congrArg (fun o : Outbox => { o with host := ws }) hq)
    refine ⟨_, rfl, ⟨ws, State.event_hands_over ?_⟩, ?_, ?_⟩
    · rw [hdone, Mod.setCtx, Mod.complete, hout]; rfl
    · rw [Mod.ctx, State.event_ctxs, hdone]
      exact SMap.get_put_same (Option.some_ne_none _) _ handle
    · rw [State.event_ctl, hdone]
      exact hmove.ctl

end Sys2Proof.Machine

/-! PROOFS. Plan streams and flue messages (O43): where a stream stands after its unit, and what a delivery can change. -/
namespace Sys2Proof.Machine

/-! ### The run of a stream (spec 06, R174) -/

/-- The entry that was listed under a key is the first one with that key. -/
theorem SMap.find?_ins {α : Type} (k : Nat) (v : α) : ∀ m : SMap α, (SMap.ins k v m).find? (fun e => e.1 == k) = some (k, v)
  | [] => by simp [SMap.ins]
  | (a, w) :: m => by
    by_cases h : a = k
    · simp [SMap.ins, h]
    · by_cases h2 : k < a
      · simp [SMap.ins, h, h2]
      · simp [SMap.ins, h, h2, SMap.find?_ins k v m]

/-- A change of a stream's run is a change of the round's streams alone. -/
theorem Mod.setStr_eq (m : Mod) (i : Nat) (f : StrRun → StrRun) :
    ∃ x, m.setStr i f = { m with run := { m.run with streams := x } } := by
  unfold Mod.setStr
  split
  · exact ⟨_, rfl⟩
  · exact ⟨m.run.streams, rfl⟩

theorem Mod.strRun_setStr {m : Mod} {i : Nat} {r : StrRun} (h : m.strRun i = some r) (f : StrRun → StrRun) :
    (m.setStr i f).strRun i = some (f r) := by
  unfold Mod.setStr
  rw [h]
  simp [Mod.strRun, SMap.find?_ins]

@[simp] theorem State.event_strRun (s : State) (f : Mod → Mod) (i : Nat) : (s.event f).m.strRun i = (f s.m.fresh).strRun i := by
  simp [Mod.strRun]

/-- From m to n stream i comes to stand at r, while nothing is written and the host sees nothing new. -/
structure Mod.StreamAt (i : Nat) (r : StrRun) (m n : Mod) : Prop where
  out : n.out = m.out
  hbm : n.hbm = m.hbm
  staged : n.run.staged = m.run.staged
  str : n.strRun i = some r

theorem Mod.StreamAt.refl {m : Mod} {i : Nat} {r : StrRun} (h : m.strRun i = some r) : Mod.StreamAt i r m m :=
  ⟨rfl, rfl, rfl, h⟩

theorem Mod.StreamAt.trans {i : Nat} {r r' : StrRun} {m n k : Mod} (h : Mod.StreamAt i r m n) (h' : Mod.StreamAt i r' n k) :
    Mod.StreamAt i r' m k :=
  ⟨h'.out.trans h.out, h'.hbm.trans h.hbm, h'.staged.trans h.staged, h'.str⟩

theorem Mod.setStr_at {m : Mod} {i : Nat} {r : StrRun} (h : m.strRun i = some r) (f : StrRun → StrRun) :
    Mod.StreamAt i (f r) m (m.setStr i f) := by
  obtain ⟨x, hx⟩ := m.setStr_eq i f
  exact ⟨by rw [hx], by rw [hx], by rw [hx], Mod.strRun_setStr h f⟩

/-! ### Signals (spec 04, R133, R140; spec 10, R332, R336) -/

/-- n differs from m at most in its messages and, in the round, in flags, event counts and the douse mark. -/
def Mod.Signals (m n : Mod) : Prop :=
  ∃ b a f e k, n = { m with fab := b, run := { m.run with flags := a, flagFrom := f, events := e, mark := k } }

theorem Mod.Signals.refl (m : Mod) : m.Signals m := ⟨_, _, _, _, _, rfl⟩

theorem Mod.Signals.trans {m n k : Mod} : m.Signals n → n.Signals k → m.Signals k := by
  rintro ⟨_, _, _, _, _, rfl⟩ ⟨_, _, _, _, _, rfl⟩
  exact ⟨_, _, _, _, _, rfl⟩

theorem Mod.Signals.streamAt {m n : Mod} {i : Nat} {r : StrRun} (h : m.Signals n) (hr : m.strRun i = some r) :
    Mod.StreamAt i r m n := by
  obtain ⟨_, _, _, _, _, rfl⟩ := h
  exact ⟨rfl, rfl, rfl, hr⟩

theorem Mod.incFlag_signals (m : Mod) (f n : Nat) : m.Signals (m.incFlag f n) := by
  obtain ⟨_, h⟩ := m.incFlag_eq f n
  exact ⟨_, _, _, _, _, h⟩

theorem Mod.markDouse_signals (m : Mod) (c : Nat) : m.Signals (m.markDouse c) := by
  unfold Mod.markDouse
  split
  · exact ⟨_, _, _, _, _, rfl⟩
  · exact .refl m

theorem Mod.sendData_signals (m : Mod) (dst : Nat) (x : Sent) : m.Signals (m.sendData dst x) := by
  unfold Mod.sendData
  split
  · exact ⟨_, _, _, _, _, rfl⟩
  · exact m.markDouse_signals _

theorem Mod.sendPacket_signals (m : Mod) (dst : Nat) (x : Sent) (bytes : Nat) : m.Signals (m.sendPacket dst x bytes) :=
  (m.sendData_signals dst x).trans ⟨_, _, _, _, _, rfl⟩

theorem Mod.sendFlag_signals (m : Mod) (dst flag : Nat) : m.Signals (m.sendFlag dst flag) := by
  unfold Mod.sendFlag
  split
  · exact Mod.Signals.trans ⟨_, _, _, _, _, rfl⟩ (Mod.incFlag_signals _ flag 1)
  · split
    · exact ⟨_, _, _, _, _, rfl⟩
    · exact m.markDouse_signals _

theorem Mod.sendSignals_signals (m : Mod) (kind ref : Nat) : m.Signals (m.sendSignals kind ref) := by
  unfold Mod.sendSignals
  split
  · exact List.foldlRecOn _ _ (Mod.Signals.refl m) (fun n hn x _ => hn.trans (n.sendFlag_signals x.member x.flag))
  · exact .refl m

/-! ### Deliveries (spec 06, R183, R187 to R189; spec 04, R119 to R122) -/

/-- From m to n data is delivered: the host sees nothing new, and every stream stands where it stood. -/
structure Mod.Delivers (m n : Mod) : Prop where
  out : n.out = m.out
  streams : n.run.streams = m.run.streams

theorem Mod.Delivers.refl (m : Mod) : m.Delivers m := ⟨rfl, rfl⟩

theorem Mod.Delivers.trans {m n k : Mod} (h : m.Delivers n) (h' : n.Delivers k) : m.Delivers k :=
  ⟨h'.out.trans h.out, h'.streams.trans h.streams⟩

theorem Mod.Delivers.foldl {α : Type} {f : Mod → α → Mod} (hf : ∀ m a, Mod.Delivers m (f m a)) (l : List α) (m : Mod) :
    m.Delivers (l.foldl f m) :=
  List.foldlRecOn l f (Mod.Delivers.refl m) (fun n hn a _ => hn.trans (hf n a))

theorem Mod.Delivers.strRun {m n : Mod} (h : m.Delivers n) (i : Nat) : n.strRun i = m.strRun i := by
  rw [Mod.strRun, h.streams, Mod.strRun]

theorem Mod.Signals.delivers {m n : Mod} : m.Signals n → m.Delivers n := by
  rintro ⟨_, _, _, _, _, rfl⟩
  exact ⟨rfl, rfl⟩

theorem Mod.roundPut_delivers (m : Mod) (a : Nat) (bs : Bytes) : m.Delivers (m.roundPut a bs) := by
  unfold Mod.roundPut
  split
  · exact ⟨rfl, rfl⟩
  · exact ⟨rfl, rfl⟩
  · exact Mod.Delivers.trans (n := m.tallyEvent Cnt.emberBlocked 1) ⟨rfl, rfl⟩ (Mod.markDouse_signals _ _).delivers

theorem Mod.roundWrite_delivers (m : Mod) (a : Nat) (bs : Bytes) : m.Delivers (m.roundWrite a bs) := by
  unfold Mod.roundWrite
  split
  · exact .refl m
  · split
    · exact m.roundPut_delivers a bs
    · exact .foldl (fun m (w : Nat × Bytes) => m.roundPut_delivers w.1 w.2) _ m

theorem Mod.deliver_delivers (m : Mod) (i h : Nat) (d : StreamDesc) (w : Nat × Bytes × Nat) : m.Delivers (m.deliver i h d w) := by
  unfold Mod.deliver
  split
  · exact .foldl (fun m (c : Bytes × Nat) => (m.sendPacket_signals _ _ _).delivers) _ m
  · split
    · exact ⟨rfl, rfl⟩
    · exact m.roundWrite_delivers w.1 w.2.1

theorem Mod.addCond_delivers (m : Mod) (c : Cond) : m.Delivers (m.addCond c) := by
  unfold Mod.addCond
  extract_lets same more
  split
  · exact ⟨rfl, rfl⟩
  · exact ⟨rfl, rfl⟩

theorem Mod.noteBadRows_delivers (m : Mod) (i : Nat) (d : StreamDesc) (rows : List Nat) : m.Delivers (m.noteBadRows i d rows) := by
  unfold Mod.noteBadRows
  split
  · exact .refl m
  · exact Mod.Delivers.trans (n := m.tally Cnt.streamIndexRange _) ⟨rfl, rfl⟩ (Mod.addCond_delivers _ _)

/-- Positions that are moved: the host sees nothing of them yet, and the stream stands where it stood; an INDEX stream has
more indices. -/
theorem Mod.movePlan_moves {m : Mod} {i : Nat} {r : StrRun} (hr : m.strRun i = some r) (d : StreamDesc) (lo hi : Nat)
    (data : Bytes) :
    (m.movePlan i d r lo hi data).out = m.out ∧ ∃ idx, (m.movePlan i d r lo hi data).strRun i = some { r with idx := idx } := by
  unfold Mod.movePlan
  extract_lets x ws n k
  have hn : m.Delivers n := m.noteBadRows_delivers i d _
  have hk : k.out = m.out ∧ ∃ idx, k.strRun i = some { r with idx := idx } := by
    have hr' := (hn.strRun i).trans hr
    unfold k
    split
    · have hset := Mod.setStr_at hr' (fun r => { r with idx := r.idx ++ (d.grains lo hi).map (n.readGrain x) })
      exact ⟨hset.out.trans hn.out, _, hset.str⟩
    · exact ⟨hn.out, r.idx, hr'⟩
  have hw := Mod.Delivers.foldl (fun m w => m.deliver_delivers i (r.handle.getD 0) d w) ws k
  rw [hw.out, hw.strRun]
  exact hk

/-! ### The unit under way becomes visible (spec 06, R187) -/

/-- The unit whose accesses can complete belongs to an ACTIVE stream. -/
theorem Mod.unitReady_active {m : Mod} {d : StreamDesc} {r : StrRun} {data : Bytes} (h : m.unitReady d r data = true) :
    r.st = .active := by
  simp only [Mod.unitReady, Bool.and_eq_true, beq_iff_eq] at h
  obtain ⟨⟨⟨⟨⟨hst, -⟩, -⟩, -⟩, -⟩, -⟩ := h
  exact hst

/-- A stream that ends is done; its context is free, or keeps what waits for its drain (spec 06, R174). -/
theorem Mod.streamEnds_done {m : Mod} {i : Nat} {x : StrRun} (hx : m.strRun i = some x) (d : StreamDesc) (r : StrRun) :
    ∃ h, Mod.StreamAt i { x with st := .done, handle := h } m (m.streamEnds i d r) := by
  unfold Mod.streamEnds
  extract_lets n k
  have hn : Mod.StreamAt i x m n := by
    unfold n
    split
    · exact (m.sendSignals_signals 1 i).streamAt hx
    · exact .refl hx
  have hk : Mod.StreamAt i x n k := by
    unfold k
    split
    · exact ⟨rfl, rfl, rfl, hn.str⟩
    · exact .refl hn.str
  split
  · exact ⟨x.handle, hn.trans (Mod.setStr_at hn.str (fun r => { r with st := .done }))⟩
  · exact ⟨none, (hn.trans hk).trans (Mod.setStr_at hk.str (fun r => { r with st := .done, handle := none }))⟩

/-- What a visible unit has moved, and where it leaves its stream. -/
theorem Mod.unitVisible_moves {m : Mod} {i : Nat} {r : StrRun} (hr : m.strRun i = some r) (hst : r.st = .active)
    (d : StreamDesc) (data : Bytes) :
    ∃ r', Mod.StreamAt i r' (m.movePlan i d r (max r.pos (r.seen * d.unitSize)) ((r.seen + 1) * d.unitSize) data)
        (m.unitVisible i d r data)
      ∧ r'.seen = r.seen + 1 ∧ r'.pos = (r.seen + 1) * d.unitSize
      ∧ r'.st = (if r.seen + 1 = d.units then .done else .active) := by
  unfold Mod.unitVisible
  extract_lets lo hi moved n last k
  obtain ⟨-, idx, hidx⟩ := Mod.movePlan_moves hr d lo hi data
  have hn := Mod.setStr_at hidx (fun r => { r with seen := r.seen + 1, pos := hi })
  have hk : Mod.StreamAt i { r with idx := idx, seen := r.seen + 1, pos := hi } n k := by
    unfold k
    split
    · exact (n.incFlag_signals d.doneFlag 1).streamAt hn.str
    · exact .refl hn.str
  by_cases hlast : r.seen + 1 = d.units
  · obtain ⟨h, hend⟩ := Mod.streamEnds_done hk.str d r
    rw [if_pos (show last = true from decide_eq_true hlast), if_pos hlast]
    exact ⟨_, (hn.trans hk).trans hend, rfl, rfl, rfl⟩
  · rw [if_neg (show ¬ last = true from fun h => hlast (of_decide_eq_true h)), if_neg hlast]
    exact ⟨_, hn.trans hk, rfl, rfl, hst⟩

/-! ### The next unit begins (spec 06, R186, R191, R210) -/

/-- A unit whose gate has passed waits for a drain into the region that it reads, and begins otherwise. -/
theorem Mod.unitStart_passed {m : Mod} {i : Nat} {d : StreamDesc} {r : StrRun} (hm : m.moving = true)
    (hd : m.roundStream i = some d) (hr : m.strRun i = some r) (hst : r.st = .armed ∨ r.st = .active)
    (hctx : d.isFlue = true ∨ r.handle.isSome = true) (hlt : r.begun < d.units) (hgate : m.unitGate d r.begun = true)
    (hflue : d.isFlue = true → m.flueOut d.homeCore < 64) :
    m.unitStart i = if d.srcHost = true ∧ m.drainInto (hostRegion d.srcBase) = true then
        if 16 + i ∈ m.run.waitsSeen then m
        else ({ m with run := { m.run with waitsSeen := m.run.waitsSeen ++ [16 + i] } }).tally Cnt.streamDrainWait 1
      else m.setStr i (fun r => { r with st := .active, begun := r.begun + 1 }) := by
  have hst' : (r.st == .armed || r.st == .active) = true := by simpa using hst
  have hctx' : (d.isFlue || r.handle.isSome) = true := by simpa using hctx
  have hflue' : (!d.isFlue || decide (m.flueOut d.homeCore < 64)) = true := by
    cases h : d.isFlue with
    | false => rfl
    | true => simpa using hflue h
  simp only [Mod.unitStart, hd, hr]
  exact if_neg (by simp [hm, hst', hctx', hlt, hgate, hflue'])

theorem Mod.setStr_out (m : Mod) (i : Nat) (f : StrRun → StrRun) : (m.setStr i f).out = m.out := by
  obtain ⟨_, h⟩ := m.setStr_eq i f; rw [h]

/-- A unit of stream i with the run r has moved: the host sees nothing, its positions are written, and the next may follow. -/
def UnitMoved (i : Nat) (d : StreamDesc) (r : StrRun) (data : Bytes) (s t : State) : Prop :=
  let hi := (r.seen + 1) * d.unitSize
  let moved := s.m.fresh.movePlan i d r (max r.pos (r.seen * d.unitSize)) hi data
  Observed s t 0 [] [] ∧ t.m.hbm = moved.hbm ∧ t.m.run.staged = moved.run.staged
    ∧ ∃ r', t.m.strRun i = some r' ∧ r'.seen = r.seen + 1 ∧ r'.pos = hi
        ∧ r'.st = (if r.seen + 1 = d.units then .done else .active)

theorem State.Quiet.unit_moves {e : Instr} {s : State} {f : Mod → Mod} {i : Nat} {d : StreamDesc} {r : StrRun} {data : Bytes}
    (hq : s.Quiet) (hx : exec e s = .next (s.event f)) (hf : f s.m.fresh = s.m.fresh.unitVisible i d r data)
    (hr : s.m.fresh.strRun i = some r) (hst : r.st = .active) : Completes e s (UnitMoved i d r data s) := by
  obtain ⟨r', hat, hends⟩ := Mod.unitVisible_moves hr hst d data
  obtain ⟨hout, -⟩ := Mod.movePlan_moves hr d (max r.pos (r.seen * d.unitSize)) ((r.seen + 1) * d.unitSize) data
  rw [← hf] at hat
  refine ⟨_, hx, hq.observed (hat.out.trans hout), ?_, ?_, r', ?_, hends⟩
  · rw [State.event_hbm, hat.hbm]
  · rw [State.event_run, hat.staged]
  · rw [State.event_strRun, hat.str]

/-- Settles O43: a start by `Mod.unitStart_passed`, a visible unit of either kind by `State.Quiet.unit_moves`. -/
theorem streamsMoveUnitByUnit : Obligations.StreamsMoveUnitByUnit := by
  intro s hq hm m i d r hd hr
  subst m
  rw [← show s.m.fresh.moving = s.m.moving from rfl] at hm
  refine ⟨fun hst hctx hlt hgate hflue => ?_, fun data hready => ⟨fun hk => ?_, fun hk hdata => ?_⟩⟩
  · have hstart := Mod.unitStart_passed (m := s.m.fresh) hm hd hr hst hctx hlt hgate hflue
    refine ⟨fun hfree => ?_, fun hhost hdrain hseen => ?_⟩
    · refine hq.happens rfl (hstart.trans (if_neg ?_)) (Mod.setStr_out _ _ _)
      rintro ⟨hhost, hdrain⟩
      exact absurd hdrain (ne_true_of_eq_false (hfree hhost))
    · exact hq.happens rfl (hstart.trans ((if_pos ⟨hhost, hdrain⟩).trans (if_neg hseen))) rfl
  · refine hq.unit_moves (data := data) rfl ?_ hr (Mod.unitReady_active hready)
    rw [hd, hr]
    exact if_pos (by simp [hm, hk, hready])
  · subst hdata
    refine hq.unit_moves rfl ?_ hr (Mod.unitReady_active hready)
    rw [hd, hr]
    exact if_pos (by simp [hm, hk, hready])

end Sys2Proof.Machine

/-! PROOFS. Streams that hold, drains that succeed (O44). -/
namespace Sys2Proof.Machine

@[simp] theorem State.event_ctx (s : State) (f : Mod → Mod) (h : Nat) : (s.event f).m.ctx h = (f s.m.fresh).ctx h := by
  simp [Mod.ctx]

/-! ### Holds (spec 06, R197, R198) -/

/-- The context h is HELD at position p by the failed access f. -/
def Mod.HeldBy (m : Mod) (h p : Nat) (f : Nat × Nat × Bool × Nat) : Prop :=
  ∃ c, m.ctx h = some c ∧ c.st = .held ∧ c.cause = f.2.2.2 ∧ c.resume = p ∧ c.reading = !f.2.2.1

/-- A context that enters HELD: memory stays, and the record hands over ATTN_FAULT. -/
theorem Mod.enterHeld_holds (m : Mod) (h : Nat) (c : Ctx) (p : Nat) (f : Nat × Nat × Bool × Nat) :
    (m.enterHeld h c p f).HeldBy h p f ∧ (m.enterHeld h c p f).hbm = m.hbm
      ∧ (m.enterHeld h c p f).out = { m.out with attn := m.out.attn ||| Attn.fault } := by
  refine ⟨?_, by simp [Mod.enterHeld, Mod.setCtx], by simp [Mod.enterHeld, Mod.setCtx]⟩
  unfold Mod.enterHeld Mod.HeldBy Mod.ctx
  rw [Mod.report_ctxs, Mod.count_ctxs]
  exact ⟨_, SMap.get_put_same (Option.some_ne_none _) m.ctxs h, rfl, rfl, rfl, rfl⟩

/-- An event that ends in a hold, over a module that hands over host writes alone. -/
theorem State.event_holds {e : Instr} {s : State} {f : Mod → Mod} {m : Mod} {h p : Nat} {c : Ctx}
    {x : Nat × Nat × Bool × Nat} {ws : List HostWrite} (hx : exec e s = .next (s.event f)) (hf : f s.m.fresh = m.enterHeld h c p x)
    (hout : m.out = { Outbox.empty with host := ws }) :
    Completes e s (fun t => t.m.HeldBy h p x ∧ t.m.hbm = m.hbm ∧ Observed s t Attn.fault ws []) := by
  obtain ⟨hheld, hhbm, ho⟩ := m.enterHeld_holds h c p x
  rw [← hf] at hheld hhbm ho
  refine ⟨_, hx, ?_, (State.event_hbm s f).trans hhbm, State.event_hands_over (ho.trans (by rw [hout]; simp [Outbox.empty]))⟩
  unfold Mod.HeldBy
  rwa [State.event_ctx]

/-- A command stream's access fails: what lies below it is settled. -/
theorem Mod.streamHold_command {m : Mod} {h : Nat} {c : Ctx} {cause : HoldCause} {p : Nat} {data : Bytes}
    {f : Nat × Nat × Bool × Nat} (hc : m.ctx h = some c) (hst : c.st = .active) (hd : m.dataPlane = true)
    (hu : c.use = .command) (hlo : c.resume ≤ p) (hhi : p < c.desc.positions)
    (hfit : c.desc.dataFits none c.resume p data = true) (hok : m.settledOk c c.resume p = true)
    (hf : m.failing (m.readerOf c.desc none c.resume data) p cause true = some f) :
    m.streamHold h cause p data = (m.moveSettled c none c.resume p data).enterHeld h c p f := by
  simp [Mod.streamHold, hc, hst, hd, hu, Mod.holdSettled, hlo, hhi, hfit, hok, hf]

/-- A plan stream's host read fails: what lies below it in the unit is delivered. -/
theorem Mod.streamHold_plan {m : Mod} {h : Nat} {c : Ctx} {cause : HoldCause} {p lo : Nat} {data : Bytes} {d : StreamDesc}
    {r : StrRun} {f : Nat × Nat × Bool × Nat} (hc : m.ctx h = some c) (hst : c.st = .active) (hplane : m.dataPlane = true)
    (hu : c.use = .plan) (hm : m.moving = true) (hd : m.roundStream c.stream = some d) (hr : m.strRun c.stream = some r)
    (hact : r.st = .active) (hseen : r.seen < r.begun) (hlo : max r.pos (r.seen * d.unitSize) = lo) (hp : lo ≤ p)
    (hhi : p < (r.seen + 1) * d.unitSize) (hfit : d.dataFits r.cut lo p data = true)
    (hidx : m.indicesReady d (ceilDiv (p + 1) (d.ext 0)) = true)
    (hok : m.readsOk (m.planReader d r.cut lo data) lo p = true)
    (hf : m.failing (m.planReader d r.cut lo data) p cause false = some f) :
    m.streamHold h cause p data =
      ((m.movePlan c.stream d r lo p data).setStr c.stream (fun r => { r with st := .held, pos := p })).enterHeld h c p f := by
  subst hlo
  simp only [Mod.streamHold, hc, hst, hplane, hu, hm, Mod.holdPlan, hd, hr]
  rw [if_neg (by simp), if_pos trivial, if_pos ⟨hact, hseen, by rw [decide_eq_true hp, decide_eq_true hhi]; rfl, hfit, hok, hidx⟩, hf]

/-! ### Drains (spec 06, R191) -/

/-- What the host receives of drained writes: those that hold a byte, each in its region. -/
def Mod.drained (m : Mod) (ws : List Staged) : List HostWrite :=
  (ws.filter (fun w => !w.data.isEmpty)).map (fun w =>
    let r := SMap.get Region.free m.regions (hostRegion w.addr)
    ⟨r.port, r.base + hostOffset w.addr, w.data⟩)

/-- A write that the region table allows is handed over (spec 06, R190, R197). -/
theorem Mod.hostStore_allowed {m : Mod} {w : Staged} (hw : (m.accessCause w.addr w.data.length true).isNone = true) :
    m.hostStore w.addr w.data = { m with out := { m.out with host := m.out.host ++ m.drained [w] } } := by
  simp only [Mod.accessCause, if_true] at hw
  split at hw
  · exact nomatch hw
  · rename_i hperm
    split at hw
    · exact nomatch hw
    · rename_i hsize
      simp only [Bool.not_eq_true', not_or, Classical.not_not, Bool.not_eq_false] at hperm
      by_cases hempty : w.data = []
      · simp [Mod.hostStore, Mod.writeRegion, Mod.drained, hempty]
      · simp [Mod.hostStore, Mod.writeRegion, Mod.drained, hempty, hperm, Nat.le_of_not_lt hsize]

theorem Mod.drainWrites_allowed : ∀ (ws : List Staged) {m : Mod},
    (ws.all (fun w => (m.accessCause w.addr w.data.length true).isNone)) = true →
    m.drainWrites ws = { m with out := { m.out with host := m.out.host ++ m.drained ws } }
  | [], m, _ => by simp [Mod.drainWrites, Mod.drained]
  | w :: ws, m, h => by
    rw [List.all_cons, Bool.and_eq_true] at h
    obtain ⟨hw, hws⟩ := h
    have htail := Mod.drainWrites_allowed ws (m := { m with out := { m.out with host := m.out.host ++ m.drained [w] } }) hws
    have hjoin : m.drained [w] ++ m.drained ws = m.drained (w :: ws) := by
      simp only [Mod.drained, ← List.map_append, ← List.filter_append]; rfl
    rw [Mod.drainWrites, List.foldl_cons, Mod.hostStore_allowed hw]
    refine htail.trans ?_
    rw [← hjoin, ← List.append_assoc]
    rfl

/-- Each region's drained_serial follows the drain (spec 06, R191). -/
theorem Mod.drainRegions_eq (serial : Word) : ∀ (ws : List Staged) (m : Mod),
    ws.foldl (fun m w =>
        { m with regions := SMap.upd Region.free m.regions (hostRegion w.addr) (fun r => r.drain serial) }) m
      = { m with regions := ws.foldl (fun rs w =>
          SMap.upd Region.free rs (hostRegion w.addr) (fun r => r.drain serial)) m.regions }
  | [], _ => rfl
  | _ :: ws, _ => Mod.drainRegions_eq serial ws _

/-- A drain of a stream that is not of the round, while no open waits: its context is free. -/
theorem Mod.drainEnds_frees {m : Mod} {h : Nat} {c : Ctx} (hs : m.roundStream c.stream = none) (hw : m.run.phase ≠ .waiting) :
    m.drainEnds h c = m.setCtx h none := by
  have hs' : (m.setCtx h none).roundStream c.stream = none := hs
  unfold Mod.drainEnds
  dsimp only
  rw [hs']
  exact Mod.tryOpen_away hw

/-- A drain whose writes the region table allows writes them, and is over. -/
theorem Mod.drainDone_writes {m : Mod} {h : Nat} {c : Ctx} (hc : m.ctx h = some c) (hu : c.use = .drain) (hst : c.st = .active)
    (hcause : c.cause = 0) (hd : m.dataPlane = true)
    (hall : (c.writes.all (fun w => (m.accessCause w.addr w.data.length true).isNone)) = true)
    (hs : m.roundStream c.stream = none) (hw : m.run.phase ≠ .waiting) :
    m.drainDone h = Mod.setCtx { m with
      out := { m.out with host := m.out.host ++ m.drained c.writes }
      regions := c.writes.foldl (fun rs w =>
        SMap.upd Region.free rs (hostRegion w.addr) (fun r => r.drain c.serial)) m.regions } h none := by
  simp only [Mod.drainDone, hc]
  rw [if_pos ⟨hu, hst, hcause, hd, hall⟩, Mod.drainWrites_allowed c.writes hall, Mod.drainRegions_eq]
  exact Mod.drainEnds_frees hs hw

/-- Settles O44: a hold of a command stream by `Mod.streamHold_command`, of a plan stream by `Mod.streamHold_plan`, a drain by
`Mod.drainDone_writes`. -/
theorem streamsHoldAndDrain : Obligations.StreamsHoldAndDrain := by
  intro s hq hplane h c hc hst m held
  subst m
  refine ⟨fun cause p data f hu hlo hhi hfit hok hf => ?_,
    fun cause p data f d r hu hm hd hr hact hseen hlo hhi hfit hidx => ?_, fun hu hcause hall hw hs => ?_⟩
  · have hmove := s.m.fresh.moveSettled_moves c none c.resume p data
    obtain ⟨ws, hws⟩ := hmove.out
    obtain ⟨t, hx, hheld, hhbm, hobs⟩ := State.event_holds (e := .streamHold h cause p data) rfl
      (Mod.streamHold_command (m := s.m.fresh) hc hst hplane hu hlo hhi hfit hok hf)
      (hws.trans (congrArg (fun o : Outbox => { o with host := ws }) hq))
    exact ⟨t, hx, hheld, hhbm, ws, hobs⟩
  · intro x hok hf
    obtain ⟨hout, -⟩ := Mod.movePlan_moves hr d (max r.pos (r.seen * d.unitSize)) p data
    obtain ⟨t, hx, hheld, -, hobs⟩ := State.event_holds (e := .streamHold h cause p data) (ws := []) rfl
      (Mod.streamHold_plan (m := s.m.fresh) hc hst hplane hu hm hd hr hact hseen rfl hlo hhi hfit hidx hok hf)
      (((Mod.setStr_out _ _ _).trans hout).trans hq)
    exact ⟨t, hx, hheld, hobs⟩
  · have hdone := Mod.drainDone_writes (m := s.m.fresh) hc hu hst hcause hplane hall hs hw
    refine ⟨_, rfl, State.event_hands_over ?_, ?_, ?_, ?_⟩
    · rw [hdone, Mod.setCtx, show s.m.fresh.out = Outbox.empty from hq]; rfl
    · rw [State.event_ctxs, hdone]; rfl
    · rw [State.event_run, hdone]; rfl
    · rw [State.event_regions, hdone]; rfl

end Sys2Proof.Machine

/-! PROOFS. Verdicts and strikes (O41): what a verdict makes of an entry that is being checked (spec 07, R235; spec 08, R271),
and what is left of a unit's strikes (spec 13, R413). -/
namespace Sys2Proof.Machine

/-! ### An entry that is being checked -/

section
variable {m : Mod} {i : Nat} {w : WpEntry}

/-- Every verdict has passed: the entry is done. -/
theorem Mod.verdictsPass_checking (hst : (m.ent i).st = .checking) :
    m.verdictsPass i w = m.setEnt i { m.ent i with st := .done } := by
  unfold Mod.verdictsPass
  rw [hst]
  rfl

/-- The first failed comparison: the entry keeps it and its time, and waits for a re-execution. -/
theorem Mod.mismatch_checking (hst : (m.ent i).st = .checking) (f : Failure) :
    m.mismatch i w f = (m.setEnt i { m.ent i with st := .awaiting, failed := [f], failedAt := m.fabricTime }).tallyEvent
      w.engine.mismatch 1 := by
  unfold Mod.mismatch
  dsimp only
  rw [hst]

/-- With every row and column compared, no condition is noted. -/
theorem Mod.uncomparedCond_nil {jb : Job} (hl : m.uncompared jb = []) : m.uncomparedCond i jb = m := by
  unfold Mod.uncomparedCond
  rw [hl]

end

/-! ### Dense verdicts (spec 07, R235) -/

/-- The engines of dense items count their mismatches together. -/
theorem Engine.mismatch_dense {e : Engine} (he : e = .dense ∨ e = .nm) : e.mismatch = Cnt.denseMismatch := by
  rcases he with rfl | rfl <;> rfl

/-- Whether a verdict compares two copies of a sum, as a failure keeps it. -/
def seenCopies : Seen → Bool
  | .copies _ _ => true
  | _ => false

section
variable {m : Mod} {i : Nat} {w : WpEntry} {jb : Job} (hrun : m.running = true) (hw : m.wpEntry i = some w)
  (hst : (m.ent i).st = .checking) (he : w.engine = .dense ∨ w.engine = .nm) (hjb : m.jobOf i w = some jb)
include hrun hw hst he hjb

theorem Mod.denseVerdict_pass (place : CheckPlace) (hl : m.uncompared jb = []) :
    m.denseVerdict i place .pass = m.setEnt i { m.ent i with st := .done } := by
  have hcond : (m.running && (w.engine == .dense || w.engine == .nm)) = true := by simpa [hrun] using he
  unfold Mod.denseVerdict
  simp only [hw, hcond, hjb, if_true]
  rw [if_pos (.inl hst), Mod.uncomparedCond_nil hl, Mod.verdictsPass_checking hst]

/-- A comparison that fails holds the entry, with its place, for a re-execution. -/
theorem Mod.denseVerdict_fails {place : CheckPlace} {seen : Seen} (hf : m.fails jb place seen = true) :
    m.denseVerdict i place seen
      = (m.setEnt i { m.ent i with
          st := .awaiting, failed := [⟨seenCopies seen, place⟩], failedAt := m.fabricTime }).tallyEvent Cnt.denseMismatch 1 := by
  have hcond : (m.running && (w.engine == .dense || w.engine == .nm)) = true := by simpa [hrun] using he
  have hp : seen ≠ .pass := by rintro rfl; exact Bool.false_ne_true hf
  unfold Mod.denseVerdict
  simp only [hw, hcond, hjb, hp, hf, if_true, if_false]
  rw [Mod.mismatch_checking hst, Engine.mismatch_dense he]
  cases seen <;> rfl

end

/-! ### Sparse verdicts (spec 08, R271) -/

section
variable {m : Mod} {i : Nat} {w : WpEntry} (hrun : m.running = true) (hw : m.wpEntry i = some w)
  (hst : (m.ent i).st = .checking) (he : w.engine = .sparse)
include hrun hw hst he

/-- An item, unlike a segment, has no done_count to increment: it is done. -/
theorem Mod.sparseVerdict_pass {j : SpJob} (hj : m.spWork w 0 = some (.item j)) :
    m.sparseVerdict i .pass = m.setEnt i { m.ent i with st := .done } := by
  have hitem : m.sparsePass i w = m.verdictsPass i w := by
    unfold Mod.sparsePass
    simp only [hj]
  unfold Mod.sparseVerdict
  simp only [hw, hrun, he, beq_self_eq_true, Bool.and_self, if_true]
  rw [hitem, Mod.verdictsPass_checking hst]

theorem Mod.sparseVerdict_differs {x y : Dword} (hxy : x ≠ y) :
    m.sparseVerdict i (.copies x y)
      = (m.setEnt i { m.ent i with
          st := .awaiting, failed := [⟨true, ⟨false, 0, 0, 0, 0, 0⟩⟩], failedAt := m.fabricTime }).tallyEvent
        Cnt.sparseMismatch 1 := by
  have hdiff : seenDiffers (.copies x y) = true := bne_iff_ne.mpr hxy
  unfold Mod.sparseVerdict
  simp only [hw, hrun, he, hdiff, beq_self_eq_true, Bool.and_self, if_true, reduceCtorEq, if_false]
  rw [Mod.mismatch_checking hst, he]
  rfl

end

/-! ### Strikes (spec 13, R413) -/

/-- The strikes kept are those of the unit's record that are live. -/
theorem Mod.setUnit_liveStrikes (m : Mod) (u : Nat) :
    m.setUnit u (fun r => { r with strikes := m.liveStrikes u })
      = m.setUnit u (fun r => { r with strikes := r.strikes.filter (fun t => decide (m.powerOnS < t + 720 * 3600)) }) := rfl

/-- Settles O41: each verdict on a checked entry by its equation, an expiry by `Mod.setUnit_liveStrikes`. -/
theorem verdictsHoldOrPassEntries : Obligations.VerdictsHoldOrPassEntries := by
  refine ⟨fun s hq hrun i w hw hst => ?_, fun s unit hq => hq.happens rfl (s.m.fresh.setUnit_liveStrikes unit.toNat) rfl⟩
  intro m
  have hrun' : m.running = true := hrun
  refine ⟨fun jb place he hjb => ⟨fun hl => ?_, fun x y hxy => ?_, fun x y hxy hskip => ?_⟩,
    fun he => ⟨fun j hj => ?_, fun x y hxy => ?_⟩⟩
  · exact hq.happens rfl (Mod.denseVerdict_pass hrun' hw hst he hjb place hl) rfl
  · have hf : m.fails jb place (.copies x y) = true := bne_iff_ne.mpr hxy
    exact hq.happens rfl (Mod.denseVerdict_fails hrun' hw hst he hjb hf) rfl
  · have hf : m.fails jb place (.exact x y) = true := by simp [Mod.fails, hxy, hskip]
    exact hq.happens rfl (Mod.denseVerdict_fails hrun' hw hst he hjb hf) rfl
  · exact hq.happens rfl (Mod.sparseVerdict_pass hrun' hw hst he hj) rfl
  · exact hq.happens rfl (Mod.sparseVerdict_differs hrun' hw hst he hxy) rfl

end Sys2Proof.Machine

/-! PROOFS. What the work of a route or a mask can change: its writes, its messages, its own record in the round (spec 09). -/
namespace Sys2Proof.SMap

theorem ins_ne_nil {α : Type} (k : Nat) (v : α) (t : SMap α) : ins k v t ≠ [] := by
  unfold ins
  split
  · exact List.cons_ne_nil _ _
  · split
    · exact List.cons_ne_nil _ _
    · split <;> exact List.cons_ne_nil _ _

/-- A map that lists a value is not empty. -/
theorem put_ne_nil {α : Type} [DecidableEq α] {d v : α} (h : v ≠ d) (t : SMap α) (k : Nat) : put d t k v ≠ [] := by
  rw [put, if_neg h]
  exact ins_ne_nil k v t

end Sys2Proof.SMap

namespace Sys2Proof.Machine

/-! ### Writes (spec 04, R119 to R122) -/

/-- n differs from m at most in memory and, in the round, in held writes, counts, conditions and the douse mark. -/
def Mod.Writes (m n : Mod) : Prop :=
  ∃ h s c e d k, n = { m with
    hbm := h, run := { m.run with staged := s, counts := c, events := e, conds := d, mark := k } }

theorem Mod.Writes.refl (m : Mod) : m.Writes m := ⟨_, _, _, _, _, _, rfl⟩

theorem Mod.Writes.trans {m n k : Mod} : m.Writes n → n.Writes k → m.Writes k := by
  rintro ⟨_, _, _, _, _, _, rfl⟩ ⟨_, _, _, _, _, _, rfl⟩
  exact ⟨_, _, _, _, _, _, rfl⟩

theorem Mod.Writes.foldl {α : Type} {f : Mod → α → Mod} (hf : ∀ m a, Mod.Writes m (f m a)) (l : List α) (m : Mod) :
    m.Writes (l.foldl f m) :=
  List.foldlRecOn l f (Mod.Writes.refl m) (fun n hn a _ => hn.trans (hf n a))

theorem Mod.tally_writes (m : Mod) (id n : Nat) : m.Writes (m.tally id n) := ⟨_, _, _, _, _, _, rfl⟩
theorem Mod.condition_writes (m : Mod) (c : Cond) : m.Writes (m.condition c) := ⟨_, _, _, _, _, _, rfl⟩

theorem Mod.markDouse_writes (m : Mod) (c : Nat) : m.Writes (m.markDouse c) := by
  unfold Mod.markDouse
  split
  · exact ⟨_, _, _, _, _, _, rfl⟩
  · exact .refl m

theorem Mod.roundPut_writes (m : Mod) (a : Nat) (bs : Bytes) : m.Writes (m.roundPut a bs) := by
  unfold Mod.roundPut
  split
  · exact ⟨_, _, _, _, _, _, rfl⟩
  · exact ⟨_, _, _, _, _, _, rfl⟩
  · exact Mod.Writes.trans (n := m.tallyEvent Cnt.emberBlocked 1) ⟨_, _, _, _, _, _, rfl⟩ (Mod.markDouse_writes _ _)

theorem Mod.roundWrite_writes (m : Mod) (a : Nat) (bs : Bytes) : m.Writes (m.roundWrite a bs) := by
  unfold Mod.roundWrite
  split
  · exact .refl m
  · split
    · exact m.roundPut_writes a bs
    · exact .foldl (fun m (w : Nat × Bytes) => m.roundPut_writes w.1 w.2) _ m

theorem Mod.roundWrites_writes (m : Mod) (ws : List (Nat × Bytes)) : m.Writes (m.roundWrites ws) :=
  .foldl (fun m (w : Nat × Bytes) => m.roundWrite_writes w.1 w.2) ws m

/-! ### Messages (spec 10, R336, R337) -/

theorem Mod.Signals.foldl {α : Type} {f : Mod → α → Mod} (hf : ∀ m a, Mod.Signals m (f m a)) (l : List α) (m : Mod) :
    m.Signals (l.foldl f m) :=
  List.foldlRecOn l f (Mod.Signals.refl m) (fun n hn a _ => hn.trans (hf n a))

theorem Mod.Signals.stores {m n : Mod} : m.Signals n → m.SameStores n := by
  rintro ⟨_, _, _, _, _, rfl⟩
  exact ⟨rfl, rfl, rfl⟩

theorem Mod.incFlagFrom_signals (m : Mod) (src f n : Nat) : m.Signals (m.incFlagFrom src f n) :=
  Mod.Signals.trans ⟨_, _, _, _, _, rfl⟩ (Mod.incFlag_signals _ f n)

/-- A packet that is seen may release flag messages that waited for it. -/
theorem Mod.seePacket_signals (m : Mod) (src : Nat) : m.Signals (m.seePacket src) :=
  Mod.Signals.trans ⟨_, _, _, _, _, rfl⟩ (.foldl (fun m (x : FlagMsg) => m.incFlagFrom_signals x.sender x.flag x.inc) _ _)

/-! ### The record of a route -/

theorem Mod.route_setRoute {m : Mod} {i : Nat} {f : RouteRun → RouteRun} (h : f (m.route i) ≠ RouteRun.idle) :
    (m.setRoute i f).route i = f (m.route i) :=
  SMap.get_put_same h m.run.routes i

theorem RouteRun.ne_idle_of_st {x : RouteRun} (h : x.st ≠ .idle) : x ≠ RouteRun.idle := mt (congrArg RouteRun.st) h

/-- From m to n the host sees nothing new, plan and woodpile stand, and P holds of the record of route i. -/
structure Mod.RouteAt (i : Nat) (P : RouteRun → Prop) (m n : Mod) : Prop where
  out : n.out = m.out
  plan : n.plan = m.plan
  ents : n.run.ents = m.run.ents
  route : P (n.route i)

section
variable {i : Nat} {P Q : RouteRun → Prop} {m n k : Mod}

theorem Mod.RouteAt.refl (h : P (m.route i)) : Mod.RouteAt i P m m := ⟨rfl, rfl, rfl, h⟩

theorem Mod.RouteAt.trans (h : Mod.RouteAt i P m n) (h' : Mod.RouteAt i Q n k) : Mod.RouteAt i Q m k :=
  ⟨h'.out.trans h.out, h'.plan.trans h.plan, h'.ents.trans h.ents, h'.route⟩

theorem Mod.RouteAt.mono (h : Mod.RouteAt i P m n) (hPQ : ∀ x, P x → Q x) : Mod.RouteAt i Q m n :=
  ⟨h.out, h.plan, h.ents, hPQ _ h.route⟩

theorem Mod.RouteAt.foldl {α : Type} {f : Mod → α → Mod} (hf : ∀ n a, P (n.route i) → Mod.RouteAt i P n (f n a))
    (l : List α) (h : P (m.route i)) : Mod.RouteAt i P m (l.foldl f m) :=
  List.foldlRecOn l f (Mod.RouteAt.refl h) (fun n hn a _ => hn.trans (hf n a hn.route))

theorem Mod.Writes.routeAt (h : m.Writes n) (hP : P (m.route i)) : Mod.RouteAt i P m n := by
  obtain ⟨_, _, _, _, _, _, rfl⟩ := h
  exact ⟨rfl, rfl, rfl, hP⟩

theorem Mod.Signals.routeAt (h : m.Signals n) (hP : P (m.route i)) : Mod.RouteAt i P m n := by
  obtain ⟨_, _, _, _, _, rfl⟩ := h
  exact ⟨rfl, rfl, rfl, hP⟩

theorem Mod.setRoute_at {f : RouteRun → RouteRun} (h : f (m.route i) ≠ RouteRun.idle) :
    Mod.RouteAt i (· = f (m.route i)) m (m.setRoute i f) :=
  ⟨rfl, rfl, rfl, Mod.route_setRoute h⟩

end

/-- What is left to show of an event that is work on route i. -/
theorem State.Quiet.routeWork {e : Instr} {s : State} {f : Mod → Mod} {i : Nat} {P : RouteRun → Prop} {Q : State → Prop}
    (hq : s.Quiet) (hx : exec e s = .next (s.event f)) (h : Mod.RouteAt i P s.m.fresh (f s.m.fresh))
    (hQ : ∀ t, (Observed s t 0 [] [] ∧ t.m.plan = s.m.plan ∧ t.m.run.ents = s.m.run.ents) → P (t.m.route i) →
      t.m.hbm = (f s.m.fresh).hbm → t.m.run.staged = (f s.m.fresh).run.staged → Q t) : Completes e s Q := by
  have hrun := State.event_run s f
  refine ⟨_, hx, hQ _ ⟨hq.observed h.out, (State.event_plan s f).trans h.plan, by rw [hrun, h.ents]; rfl⟩ ?_
    (State.event_hbm s f) (by rw [hrun])⟩
  rw [Mod.route, hrun]
  exact h.route

end Sys2Proof.Machine

/-! PROOFS. Routes choose, count and grant (O45). -/
namespace Sys2Proof.Machine

/-! ### Grants (spec 09, R291) -/

/-- The record of a route whose grant frame of a home is here: with every grant the source dispatches. -/
def RouteRun.granted (x : RouteRun) (d : RouteDesc) (home : Nat) (g : List (Nat × Nat)) : RouteRun :=
  let gs := SMap.put [] x.grants home g
  let all := x.st = .counting ∧ gs.length = d.group.length
  { x with grants := gs, st := if all then .dispatching else x.st, late := if all then false else x.late }

theorem RouteRun.granted_st_ne_idle {x : RouteRun} (h : x.st ≠ .idle) (d : RouteDesc) (home : Nat) (g : List (Nat × Nat)) :
    (x.granted d home g).st ≠ .idle := by
  dsimp only [RouteRun.granted]
  split
  · exact RouteSt.noConfusion
  · exact h

/-- Table, mask and drops of a route are written and counted (spec 09, R288, R291). -/
theorem Mod.routeTable_writes (m : Mod) (i : Nat) (d : RouteDesc) : m.Writes (m.routeTable i d) := by
  unfold Mod.routeTable
  extract_lets x drops n k
  have hn : m.Writes n := by
    unfold n
    split
    · exact m.roundWrite_writes _ _
    · exact .refl m
  clear_value n
  have hk : m.Writes k := by
    unfold k
    split
    · exact hn.trans (n.roundWrite_writes _ _)
    · exact hn
  clear_value k drops
  split
  · exact .refl m
  · split
    · exact hk
    · exact hk.trans ((k.tally_writes _ _).trans (Mod.condition_writes _ _))

/-- A grant frame is taken. -/
theorem Mod.takeGrant_at {m : Mod} {i home : Nat} {d : RouteDesc} {g : List (Nat × Nat)}
    (h : { m.route i with grants := SMap.put [] (m.route i).grants home g } ≠ RouteRun.idle) :
    Mod.RouteAt i (· = (m.route i).granted d home g) m (m.takeGrant i d home g) := by
  unfold Mod.takeGrant
  extract_lets n
  have hn : Mod.RouteAt i (· = { m.route i with grants := SMap.put [] (m.route i).grants home g }) m n :=
    Mod.setRoute_at (f := fun x => { x with grants := SMap.put [] x.grants home g }) h
  clear_value n
  rw [hn.route]
  by_cases hall : (m.route i).st = .counting ∧ (SMap.put [] (m.route i).grants home g).length = d.group.length
  · have hw := (n.routeTable_writes i d).routeAt (P := (· = n.route i)) rfl
    have hst := Mod.setRoute_at (m := n.routeTable i d) (i := i) (f := fun x => { x with st := .dispatching, late := false })
      (RouteRun.ne_idle_of_st RouteSt.noConfusion)
    rw [hw.route, hn.route] at hst
    rw [if_pos hall]
    exact ((hn.trans hw).trans hst).mono (fun y hy => by simp only [hy, RouteRun.granted, if_pos hall])
  · rw [if_neg hall]
    exact hn.mono (fun y hy => by simp only [hy, RouteRun.granted, if_neg hall])

/-! ### Counts (spec 09, R289) -/

/-- From x to y the requests are qs; with every count the home admits by capacity, and the source keeps its choices. -/
structure RouteRun.Counted (d : RouteDesc) (qs : SMap (List Nat)) (x y : RouteRun) : Prop where
  n : y.n = x.n
  choices : y.choices = x.choices
  requests : y.requests = qs
  counts : y.counts = if x.counts = [] ∧ qs.length = d.group.length then homeCounts d qs else x.counts
  begins : x.st ≠ .idle → y.st ≠ .idle

/-- A grant changes nothing of the counts. -/
theorem RouteRun.Counted.granted {d : RouteDesc} {qs : SMap (List Nat)} {x y : RouteRun} (h : y.Counted d qs x)
    (home : Nat) (g : List (Nat × Nat)) : y.Counted d qs (x.granted d home g) where
  n := h.n
  choices := h.choices
  requests := h.requests
  counts := h.counts
  begins hx := granted_st_ne_idle (h.begins hx) d home g

/-- A count frame is taken: with the last one the home sends its grants, its own among them. -/
theorem Mod.takeCount_at {m : Mod} {i source : Nat} {d : RouteDesc} {req : List Nat}
    (h : (m.route i).st ≠ .idle ∨ SMap.put [] (m.route i).requests source req ≠ []) :
    Mod.RouteAt i (RouteRun.Counted d (SMap.put [] (m.route i).requests source req) (m.route i)) m
      (m.takeCount i d source req) := by
  generalize hqs : SMap.put [] (m.route i).requests source req = qs at h ⊢
  have hne {y : RouteRun} (hst : (m.route i).st ≠ .idle → y.st ≠ .idle) (hreq : y.requests = qs) : y ≠ RouteRun.idle :=
    h.elim (fun h => RouteRun.ne_idle_of_st (hst h)) (fun h e => h (hreq.symm.trans (congrArg RouteRun.requests e)))
  unfold Mod.takeCount
  extract_lets n x counts k k'
  have hn : Mod.RouteAt i (· = { m.route i with requests := qs }) m n := by
    subst hqs
    exact Mod.setRoute_at (f := fun x => { x with requests := SMap.put [] x.requests source req }) (hne id rfl)
  have hx : x = { m.route i with requests := qs } := hn.route
  clear_value x n
  subst hx
  split
  next hall =>
    have hk : Mod.RouteAt i (· = { m.route i with requests := qs, counts := counts }) n k := by
      have hset := Mod.setRoute_at (m := n) (i := i) (f := fun x => { x with counts := counts })
        (by rw [hn.route]; exact hne id rfl)
      rwa [hn.route] at hset
    have hk' : Mod.RouteAt i (RouteRun.Counted d qs (m.route i)) k k' :=
      (k.tally_writes _ _).routeAt (by rw [hk.route]; exact ⟨rfl, rfl, rfl, (if_pos hall).symm, id⟩)
    refine (hn.trans (hk.trans hk')).trans (.foldl (fun n e hc => ?_) _ hk'.route)
    dsimp only
    split
    · exact (Mod.takeGrant_at (hne hc.begins hc.requests)).mono (fun y hy => hy ▸ hc.granted _ _)
    · exact (n.sendPacket_signals _ _ _).routeAt hc
  next hmiss =>
    exact hn.mono (fun y hy => by subst hy; exact ⟨rfl, rfl, rfl, (if_neg hmiss).symm, id⟩)

/-! ### The start (spec 09, R284 to R289) -/

/-- The route has begun, with n tokens and their choices. -/
structure RouteRun.Chosen (n : Nat) (choices : List (List (Nat × F32))) (x : RouteRun) : Prop where
  begun : x.st ≠ .idle
  n : x.n = n
  choices : x.choices = choices

/-- A route whose gate has passed makes its choices and gives each home its count. -/
theorem Mod.routeStart_at {m : Mod} {i : Nat} {d : RouteDesc} (hrun : m.running = true) (hd : m.routeDesc i = some d)
    (hst : (m.route i).st = .idle) (hgate : m.flagMet d.startFlag d.startValue = true) :
    Mod.RouteAt i (RouteRun.Chosen (m.routeTokens d).1 ((List.range (m.routeTokens d).1).map (m.chooseToken d))) m
      (m.routeStart i) := by
  unfold Mod.routeStart
  rw [hd]
  dsimp -zeta only
  rw [if_pos (by rw [hrun, hst, hgate]; rfl)]
  extract_lets n choices odd k k' k''
  have hk : Mod.RouteAt i (RouteRun.Chosen n.1 choices) m k :=
    (Mod.setRoute_at (RouteRun.ne_idle_of_st RouteSt.noConfusion)).mono
      (fun y hy => by subst hy; exact ⟨RouteSt.noConfusion, rfl, rfl⟩)
  have hw : k.Writes k'' := by
    refine Mod.Writes.trans (n := k') ((k.tally_writes _ _).trans (Mod.tally_writes _ _ _)) ?_
    unfold k''
    split
    · exact .refl k'
    · exact k'.tally_writes _ _
  have hk'' := hk.trans (hw.routeAt hk.route)
  refine hk''.trans (.foldl (fun n e hc => ?_) _ hk''.route)
  dsimp only
  split
  · exact (Mod.takeCount_at (.inl hc.begun)).mono
      (fun y hy => ⟨hy.begins hc.begun, hy.n.trans hc.n, hy.choices.trans hc.choices⟩)
  · exact (n.sendPacket_signals _ _ _).routeAt hc

/-! ### Frames (spec 09, R290) -/

theorem Mod.countFrame_at {m : Mod} {f : Frame} {d : RouteDesc} (hd : m.frameRoute f = some d) (hne : f.entries ≠ []) :
    Mod.RouteAt f.route (RouteRun.Counted d
      (SMap.put [] (m.route f.route).requests (d.rankOf f.sender) (f.entries.map (·.1))) (m.route f.route)) m (m.countFrame f) := by
  have hreq : f.entries.map (·.1) ≠ [] := by simpa using hne
  have htake := Mod.takeCount_at (m := m) (i := f.route) (d := d) (.inr (SMap.put_ne_nil hreq _ (d.rankOf f.sender)))
  unfold Mod.countFrame
  simp only [hd]
  exact htake.trans ((Mod.seePacket_signals _ _).routeAt htake.route)

theorem Mod.grantFrame_at {m : Mod} {f : Frame} {d : RouteDesc} (hd : m.frameRoute f = some d) (hne : f.entries ≠ []) :
    Mod.RouteAt f.route (· = (m.route f.route).granted d (d.rankOf f.sender) f.entries) m (m.grantFrame f) := by
  have htake := Mod.takeGrant_at (m := m) (i := f.route) (d := d) (home := d.rankOf f.sender) (g := f.entries)
    (mt (congrArg RouteRun.grants) (SMap.put_ne_nil hne _ _))
  unfold Mod.grantFrame
  simp only [hd]
  exact htake.trans ((Mod.seePacket_signals _ _).routeAt htake.route)

/-- Settles O45: a start by `Mod.routeStart_at`, a frame by what it makes of the route's record. -/
theorem routesChooseCountAndGrant : Obligations.RoutesChooseCountAndGrant := by
  intro s hq
  refine ⟨fun i d hrun hd hst hgate => ?_, fun f d hd hne => ⟨?_, ?_⟩⟩
  · refine hq.routeWork rfl (Mod.routeStart_at (m := s.m.fresh) hrun hd hst hgate) ?_
    exact fun t ⟨ho, hp, he⟩ hr _ _ => ⟨ho, hp, he, hr.begun, hr.n, hr.choices⟩
  · refine hq.routeWork rfl (Mod.countFrame_at (m := s.m.fresh) hd hne) ?_
    exact fun t ⟨ho, hp, he⟩ hr _ _ => ⟨ho, hp, he, hr.requests, fun hc hl => hr.counts.trans (if_pos ⟨hc, hl⟩)⟩
  · refine hq.routeWork rfl (Mod.grantFrame_at (m := s.m.fresh) hd hne) ?_
    exact fun t ⟨ho, hp, he⟩ hr _ _ => ⟨ho, hp, he, by rw [hr]; rfl, by rw [hr]; rfl⟩

end Sys2Proof.Machine

/-! PROOFS. Rows go to their homes, return and are combined (O46). -/
namespace Sys2Proof.Machine

/-! ### Rows given to a member (spec 09, R294, R296) -/

theorem Mod.giveRows_at {i : Nat} {P : RouteRun → Prop} {m : Mod} (h : P (m.route i)) (dst : Nat) (ws : List (Nat × Bytes)) :
    Mod.RouteAt i P m (m.giveRows dst ws) := by
  unfold Mod.giveRows
  dsimp only
  split
  · exact (m.roundWrites_writes _).routeAt h
  · refine Mod.Signals.routeAt (.foldl (fun m w => ?_) _ m) h
    exact .foldl (fun m (c : Bytes × Nat) => m.sendPacket_signals _ _ _) _ m

/-- After n has what the route gave or wrote, a flag's increment follows, and the route's record is set. -/
theorem Mod.RouteAt.flag_setRoute {m n k v : Mod} {i : Nat} {f : RouteRun → RouteRun}
    (hn : Mod.RouteAt i (· = m.route i) m n) (hk : n.Signals k) (hv : v = k.setRoute i f) (hf : f (m.route i) ≠ RouteRun.idle) :
    Mod.RouteAt i (· = f (m.route i)) m v ∧ n.SameStores v := by
  subst hv
  have hflag : Mod.RouteAt i (· = m.route i) m k := hn.trans (hk.routeAt (P := (· = m.route i)) hn.route)
  have hset := Mod.setRoute_at (m := k) (i := i) (f := f) (by rwa [hflag.route])
  rw [hflag.route] at hset
  obtain ⟨hhbm, hstaged, hplan⟩ := hk.stores
  exact ⟨hflag.trans hset, hhbm, hstaged, hplan⟩

/-! ### The events of a route that runs -/

section
variable {m : Mod} {i : Nat} {d : RouteDesc} (hrun : m.running = true) (hd : m.routeDesc i = some d)
include hrun hd

theorem Mod.dispatchVisible_gives {home : Nat} (hst : (m.route i).st = .dispatching) (hin : home ∈ d.group)
    (hnew : home ∉ (m.route i).sent) :
    m.dispatchVisible i home = ((m.giveRows home (m.dispatchRows i d home)).sendFlag home d.dispatchFlag).setRoute i
      (fun x => { x with
        sent := x.sent ++ [home], st := if (x.sent ++ [home]).length = d.group.length then .returning else x.st }) := by
  simp only [Mod.dispatchVisible, hd]
  rw [if_pos (by simp [hrun, hst, hin, hnew])]

theorem Mod.returnStart_starts (hc : (m.route i).counts ≠ []) (hret : (m.route i).ret = false)
    (hgate : m.flagMet d.outFlag d.outValue = true) : m.returnStart i = m.setRoute i (fun x => { x with ret := true }) := by
  simp only [Mod.returnStart, hd]
  rw [if_pos (by simp [hrun, hc, hret, hgate])]

theorem Mod.returnVisible_gives {source : Nat} (hret : (m.route i).ret = true) (hin : source ∈ d.group)
    (hnew : source ∉ (m.route i).returned) :
    m.returnVisible i source
      = ((m.giveRows source (m.returnRows d (m.route i).counts source)).sendFlag source d.returnFlag).setRoute i
        (fun x => { x with returned := x.returned ++ [source] }) := by
  simp only [Mod.returnVisible, hd]
  rw [if_pos (by simp [hrun, hret, hin, hnew])]

theorem Mod.combineStart_starts (hst : (m.route i).st = .returning) (hgate : m.flagMet d.returnFlag d.group.length = true) :
    m.combineStart i = m.setRoute i (fun x => { x with st := .combining }) := by
  simp only [Mod.combineStart, hd]
  rw [if_pos (by simp [hrun, hst, hgate])]

theorem Mod.routeCombine_writes {p : Plan} {ret out : Alloc} (hp : m.plan.plan = some p) (hret : p.alloc d.retRec = some ret)
    (hout : p.alloc d.outRec = some out) (hst : (m.route i).st = .combining) :
    m.routeCombine i = ((m.roundWrites (m.combineRows d (m.route i) ret out)).incFlag d.combineFlag 1).setRoute i
      (fun x => { x with st := .done }) := by
  simp only [Mod.routeCombine, hd, hp, hret, hout]
  rw [if_pos (by simp [hrun, hst])]

theorem Mod.routeTimeout_records {gone : List Nat} (hlate : (m.route i).late = false)
    (hgone : (m.routeMissing d (m.route i)).filter (fun w => w != Config.position) = gone) (hne : gone ≠ []) :
    m.routeTimeout i = ((m.setRoute i (fun x => { x with late := true })).timeoutRecord Detail.routeTimeout i gone).raiseSuspects
      gone .noFrame i := by
  simp only [Mod.routeTimeout, hd, hgone]
  rw [if_pos (by simp [hrun, hlate, hne])]

end

/-! ### Waits past their timeout (spec 09, R306) -/

theorem Mod.raiseSuspects_hbm (m : Mod) (who : List Nat) (cls : SuspectClass) (d : Nat) :
    (m.raiseSuspects who cls d).hbm = m.hbm := by
  refine foldl_keeps Mod.hbm (fun m w => ?_) who m
  unfold Mod.raiseSuspect Mod.holdSuspect
  split <;> rfl

/-- The record of a wait past its timeout, with its suspects: ATTN_FAULT, and nothing of the round. -/
theorem Mod.timeoutSuspects_records {m : Mod} (hm : m.out = Outbox.empty) (detail index : Nat) (gone : List Nat)
    (cls : SuspectClass) :
    let n := (m.timeoutRecord detail index gone).raiseSuspects gone cls index
    n.out = { Outbox.empty with attn := Attn.fault } ∧ n.run = m.run ∧ n.plan = m.plan ∧ n.hbm = m.hbm := by
  obtain ⟨hout, hrun, hplan⟩ := Mod.raiseSuspects_keeps (m.timeoutRecord detail index gone) gone cls index
  refine ⟨hout.trans (Mod.report_out_quiet hm), hrun.trans (Mod.report_run _ _), hplan.trans (Mod.report_plan _ _),
    (Mod.raiseSuspects_hbm _ _ _ _).trans (Mod.report_hbm _ _)⟩

/-- Settles O46: rows that are given, and the combine's writes, by `Mod.RouteAt.flag_setRoute`, a timeout by
`Mod.timeoutSuspects_records`. -/
theorem routesDispatchReturnAndCombine : Obligations.RoutesDispatchReturnAndCombine := by
  intro s hq hrun m i d hd x kept
  replace hrun : m.running = true := hrun
  refine ⟨fun home hst hin hnew => ?_, fun hc hret hgate => ?_, fun source hret hin hnew => ?_, fun hst hgate => ?_,
    fun p ret out hp hret hout hst => ?_, fun hlate hgone => ?_⟩
  · obtain ⟨hat, hstores⟩ := (Mod.giveRows_at (P := (· = m.route i)) rfl home (m.dispatchRows i d home)).flag_setRoute
      (Mod.sendFlag_signals _ home d.dispatchFlag) (Mod.dispatchVisible_gives hrun hd hst hin hnew)
      (RouteRun.ne_idle_of_st (by dsimp only; rw [hst]; split <;> exact RouteSt.noConfusion))
    exact hq.routeWork rfl hat (fun t hk hr hh _ => ⟨hk, hh.trans hstores.hbm, by rw [hr], by rw [hr, hst]⟩)
  · exact hq.happens rfl (Mod.returnStart_starts hrun hd hc hret hgate) rfl
  · obtain ⟨hat, hstores⟩ := (Mod.giveRows_at (P := (· = m.route i)) rfl source (m.returnRows d x.counts source)).flag_setRoute
      (Mod.sendFlag_signals _ source d.returnFlag) (Mod.returnVisible_gives hrun hd hret hin hnew)
      (mt (congrArg RouteRun.returned) (List.append_ne_nil_of_right_ne_nil _ (List.cons_ne_nil _ _)))
    exact hq.routeWork rfl hat (fun t hk hr hh _ => ⟨hk, hh.trans hstores.hbm, by rw [hr]⟩)
  · exact hq.happens rfl (Mod.combineStart_starts hrun hd hst hgate) rfl
  · have hwrites := (m.roundWrites_writes (m.combineRows d x ret out)).routeAt (i := i) (P := (· = m.route i)) rfl
    obtain ⟨hat, hstores⟩ := hwrites.flag_setRoute (Mod.incFlag_signals _ d.combineFlag 1)
      (Mod.routeCombine_writes hrun hd hp hret hout hst) (RouteRun.ne_idle_of_st RouteSt.noConfusion)
    exact hq.routeWork rfl hat (fun t hk hr hh hs => ⟨hk, hh.trans hstores.hbm, hs.trans hstores.staged, by rw [hr]⟩)
  · have htime := Mod.routeTimeout_records hrun hd hlate rfl hgone
    obtain ⟨ho, hr, hp, hh⟩ := Mod.timeoutSuspects_records (m := m.setRoute i (fun x => { x with late := true })) hq
      Detail.routeTimeout i ((m.routeMissing d x).filter (fun w => w != Config.position)) .noFrame
    rw [← htime] at ho hr hp hh
    exact ⟨_, rfl, State.event_observed (ks := []) ho, (State.event_plan s _).trans hp, (State.event_hbm s _).trans hh,
      (State.event_run s _).trans hr⟩

end Sys2Proof.Machine

/-! PROOFS. Masks are generated (O47). -/
namespace Sys2Proof.Machine

/-- Positions that did not fit are counted and noted (spec 09, R305). -/
theorem Mod.noteLost_notes (m : Mod) (i : Nat) (rows : List (Nat × List (Nat × Bytes) × List Nat)) :
    m.Writes (m.noteLost i rows) ∧ m.SameStores (m.noteLost i rows) := by
  unfold Mod.noteLost
  split
  · exact ⟨(m.tally_writes _ _).trans (Mod.condition_writes _ _), rfl, rfl, rfl⟩
  · exact ⟨.refl m, .refl m⟩

/-- An increment depends on the flags alone. -/
theorem Mod.incFlag_flags {m n : Mod} (h : n.run.flags = m.run.flags) (f k : Nat) :
    (n.incFlag f k).run.flags = (m.incFlag f k).run.flags := by
  unfold Mod.incFlag
  split
  · exact h
  · exact congrArg (SMap.upd 0 · f (fun v => (v + k) % 2 ^ 32)) h

/-- What a generated mask writes, then its done_flag, and its place among the masks that are done. -/
structure Mod.MaskDone (i : Nat) (g : MaskGen) (written m n : Mod) : Prop where
  out : n.out = m.out
  plan : n.plan = m.plan
  ents : n.run.ents = m.run.ents
  stores : written.SameStores n
  masks : n.run.masks = m.run.masks ++ [i]
  flags : n.run.flags = (m.incFlag g.doneFlag 1).run.flags

theorem Mod.maskDone_done {m : Mod} {i : Nat} {g : MaskGen} {p : Plan} {a : Alloc} (hrun : m.running = true)
    (hg : m.maskDesc i = some g) (hp : m.plan.plan = some p) (ha : p.alloc g.outRec = some a) (hi : i ∉ m.run.masks) :
    Mod.MaskDone i g (m.roundWrites (m.maskOutput g a)) m (m.maskDone i) := by
  have heq : m.maskDone i = (((m.roundWrites (m.maskOutput g a)).noteLost i (m.maskRows g a)).incFlag g.doneFlag 1).endMask i := by
    simp only [Mod.maskDone, hg, hp, Option.bind_some, ha]
    rw [if_pos (by simp [hrun, hi])]
  obtain ⟨hnote, hstores⟩ := Mod.noteLost_notes (m.roundWrites (m.maskOutput g a)) i (m.maskRows g a)
  have hw := (m.roundWrites_writes (m.maskOutput g a)).trans hnote
  rw [heq]
  generalize (m.roundWrites (m.maskOutput g a)).noteLost i (m.maskRows g a) = n at hw hstores
  obtain ⟨fl, hfl⟩ := n.incFlag_eq g.doneFlag 1
  have hflags : n.run.flags = m.run.flags := by obtain ⟨_, _, _, _, _, _, rfl⟩ := hw; rfl
  have hinc := Mod.incFlag_flags hflags g.doneFlag 1
  rw [hfl] at hinc ⊢
  obtain ⟨_, _, _, _, _, _, rfl⟩ := hw
  exact ⟨rfl, rfl, rfl, ⟨hstores.hbm, hstores.staged, hstores.plan⟩, rfl, hinc⟩

/-- Settles O47, by `Mod.maskDone_done`. -/
theorem masksAreGenerated : Obligations.MasksAreGenerated := by
  intro s hq hrun m i g p a hg hp ha hi
  have h := Mod.maskDone_done (m := m) hrun hg hp ha hi
  refine ⟨_, rfl, hq.observed h.out, ?_⟩
  rw [State.event_plan, State.event_run, State.event_hbm]
  exact ⟨h.plan, h.ents, h.stores.hbm, h.stores.staged, h.masks, h.flags.trans (Mod.incFlag_flags (m := s.m) (n := m) rfl _ _)⟩

end Sys2Proof.Machine

/-! PROOFS. Suspects that a module raises (spec 10, R343, R346): what they can change. -/
namespace Sys2Proof.Machine

theorem Mod.holdSuspect_eq (m : Mod) (r : Suspect) :
    ∃ x, m.holdSuspect r = { m with fab := { m.fab with suspects := x } } := by
  unfold Mod.holdSuspect
  split
  · exact ⟨_, rfl⟩
  · exact ⟨_, rfl⟩

theorem Mod.raiseSuspect_eq (m : Mod) (who : Nat) (cls : SuspectClass) (detail : Nat) :
    ∃ x c, m.raiseSuspect who cls detail = { m with fab := { m.fab with suspects := x }, cnt := c } := by
  obtain ⟨x, hx⟩ := m.holdSuspect_eq ⟨who, cls, m.reportSerial, m.fabricTime, Config.position, 1, detail⟩
  exact ⟨x, _, by rw [Mod.raiseSuspect, hx]; rfl⟩

/-- What is left of an event whose last effect is a record without an interruption: its attention bits, and the fabric,
round and memory as the record finds them. -/
theorem State.Quiet.event_report {s : State} {f : Mod → Mod} {n : Mod} {x : Report} (hq : s.Quiet)
    (hf : f s.m.fresh = n.report x) (hn : n.out = s.m.out) :
    Observed s (s.event f) x.attn [] [] ∧ (s.event f).m.fab = n.fab ∧ (s.event f).m.run = n.run
      ∧ (s.event f).m.hbm = n.hbm := by
  refine ⟨State.event_observed (ks := []) ((congrArg Mod.out hf).trans (Mod.report_out_quiet (hn.trans hq))), ?_, ?_, ?_⟩
  · rw [State.event_fab, hf, Mod.report_fab]
  · rw [State.event_run, hf, Mod.report_run]
  · rw [State.event_hbm, hf, Mod.report_hbm]

end Sys2Proof.Machine

/-! PROOFS. Suspect records climb the report tree (O53). -/
namespace Sys2Proof.Machine

section
variable {m : Mod} {i : Nat} {r : Suspect} (hr : m.fab.suspects[i]? = some r)
include hr

/-- The root writes a record whose time has come (spec 10, R344). -/
theorem Mod.reportExpiry_root (hroot : m.fab.reportParent = 0xFFFF) :
    m.reportExpiry i
      = Mod.report { m with fab := { m.fab with suspects := m.fab.suspects.eraseIdx i } } (suspectRecord r) := by
  simp only [Mod.reportExpiry, hr]
  exact if_pos hroot

/-- Another module sends it on (spec 10, R344, R346, R347). -/
theorem Mod.reportExpiry_sends {dest : Nat} (hroot : m.fab.reportParent ≠ 0xFFFF) (hto : m.reportTo r = some dest)
    (hcls : r.cls ≠ .storm) (hroom : m.fab.sentRecords < 64) :
    m.reportExpiry i = Mod.send { m with fab := { m.fab with
      suspects := m.fab.suspects.eraseIdx i, sentRecords := m.fab.sentRecords + 1 } } (.report dest r) := by
  simp only [Mod.reportExpiry, hr, hto]
  rw [if_neg hroot, if_neg hcls, if_pos hroom]

end

theorem Mod.holdSuspect_out (m : Mod) (r : Suspect) : (m.holdSuspect r).out = m.out := by
  obtain ⟨x, hx⟩ := m.holdSuspect_eq r
  rw [hx]

/-- Settles O53: a record is held by `Mod.holdSuspect`, and its expiry is `Mod.reportExpiry_root` at the root and
`Mod.reportExpiry_sends` below it. -/
theorem suspectsClimbTheTree : Obligations.SuspectsClimbTheTree := by
  intro s hq hd m
  replace hd : m.dataPlane = true := hd
  refine ⟨fun r => ⟨?_, ?_, fun hnew => ?_⟩, fun i r hr => ⟨fun hroot => ?_, fun dest hroot hto hcls hroom => ?_⟩⟩
  · exact hq.happens rfl (if_pos hd) (m.holdSuspect_out r)
  · exact hq.happens rfl (if_pos hd) (m.holdSuspect_out _)
  · exact if_neg (by simp [hnew])
  · exact ⟨_, rfl, hq.event_report ((if_pos hd).trans (Mod.reportExpiry_root hr hroot)) rfl⟩
  · exact hq.happens rfl ((if_pos hd).trans (Mod.reportExpiry_sends hr hroot hto hcls hroom)) rfl

end Sys2Proof.Machine

/-! PROOFS. Channels lose lanes, replay and go down (O51). -/
namespace Sys2Proof.Machine

/-! ### The record of a channel -/

theorem Mod.chan_setChan {m : Mod} {k : Nat} {f : Chan → Chan} (h : f (m.chan k) ≠ Chan.off) :
    (m.setChan k f).chan k = f (m.chan k) :=
  SMap.get_put_same h m.fab.chans k

theorem Chan.ne_off_of_downs {c : Chan} (h : c.downs ≠ 0) : c ≠ Chan.off := mt (congrArg Chan.downs) h

theorem Chan.ne_off_of_failedLane {c : Chan} (h : c.failedLane ≠ none) : c ≠ Chan.off := mt (congrArg Chan.failedLane) h

theorem satInc_ne_zero (n : Nat) : satInc n ≠ 0 := by unfold satInc; omega

/-! ### A channel that is lost (spec 10, R341, R342) -/

/-- The time base may go to HOLDOVER (spec 10, R328). -/
theorem Mod.parentLost_eq (m : Mod) (role : Nat) :
    ∃ f : Fab, m.parentLost role = { m with fab := f } ∧ f.chans = m.fab.chans := by
  unfold Mod.parentLost
  split
  · exact ⟨_, rfl, rfl⟩
  · exact ⟨m.fab, rfl, rfl⟩

/-- From m to n a channel is lost, with a record that sets ATTN_FAULT; ember traffic that is not acknowledged (`loose`)
marks the attempt. -/
structure Mod.LosesChannel (k : Nat) (loose : Bool) (m n : Mod) : Prop where
  out : n.out = { m.out with attn := m.out.attn ||| Attn.fault }
  st : (n.chan k).st = .down
  downs : (n.chan k).downs = satInc (m.chan k).downs
  run : n.run = if loose then (m.markDouse Douse.fabricLoss).run else m.run
  hbm : n.hbm = m.hbm

/-- A mark depends on the round alone. -/
theorem Mod.markDouse_run {m n : Mod} (h : n.run = m.run) (c : Nat) : (n.markDouse c).run = (m.markDouse c).run := by
  simp only [Mod.markDouse, h]
  split
  · rfl
  · exact h

theorem Mod.markIf_run {m n : Mod} (h : n.run = m.run) (loose : Bool) (c : Nat) :
    (if loose then (n.markDouse c).run else n.run) = if loose then (m.markDouse c).run else m.run := by
  rw [Mod.markDouse_run h, h]

theorem Mod.markIf_eq {m n : Mod} (h : n.run = m.run) (loose : Bool) (c : Nat) :
    (if loose then n.markDouse c else n) = { n with run := if loose then (m.markDouse c).run else m.run } := by
  cases loose
  · rw [if_neg Bool.false_ne_true, if_neg Bool.false_ne_true, ← h]
  · obtain ⟨r, hr⟩ := n.markDouse_eq c
    rw [if_pos rfl, if_pos rfl, ← Mod.markDouse_run h, hr]

/-- The parts of a channel's loss: its record of the channel, the time base, the mark, the fault record, the suspect. -/
theorem Mod.channelLost_eq {m : Mod} {k : Nat} (hk : k < 28) (hst : (m.chan k).st = .up ∨ (m.chan k).st = .shadow)
    (loose : Bool) :
    ∃ f : Fab, f.chans = (m.setChan k (fun c => { c with st := .down, downs := satInc c.downs, tries := 0 })).fab.chans
      ∧ m.channelLost k loose
        = (Mod.reportFault { m with fab := f, run := if loose then (m.markDouse Douse.fabricLoss).run else m.run }
            (fabricReport k (m.roleNow k) 1 0xFF Detail.channelDown Scope.inBound Attn.fault)).raiseSuspect
          (rolePeer (m.roleNow k)) .linkDown (m.roleNow k) := by
  obtain ⟨f, hheld, hf⟩ := (m.setChan k (fun c => { c with
    st := .down, downs := satInc c.downs, tries := 0 })).parentLost_eq (m.roleNow k)
  refine ⟨f, hf, ?_⟩
  unfold Mod.channelLost
  rw [if_pos ⟨hk, hst⟩]
  dsimp only
  rw [hheld]
  exact congrArg (fun n => (Mod.reportFault n _).raiseSuspect (rolePeer (m.roleNow k)) .linkDown (m.roleNow k))
    (Mod.markIf_eq (m := m) (n := { m with fab := f }) rfl loose Douse.fabricLoss)

theorem Mod.channelLost_loses {m : Mod} {k : Nat} (hk : k < 28) (hst : (m.chan k).st = .up ∨ (m.chan k).st = .shadow)
    (loose : Bool) : Mod.LosesChannel k loose m (m.channelLost k loose) := by
  obtain ⟨f, hf, heq⟩ := Mod.channelLost_eq hk hst loose
  have hdown : SMap.get Chan.off f.chans k = { m.chan k with st := .down, downs := satInc (m.chan k).downs, tries := 0 } := by
    rw [hf]
    exact Mod.chan_setChan (Chan.ne_off_of_downs (satInc_ne_zero _))
  obtain ⟨x, c, hx⟩ := Mod.raiseSuspect_eq (Mod.reportFault
      { m with fab := f, run := if loose then (m.markDouse Douse.fabricLoss).run else m.run }
      (fabricReport k (m.roleNow k) 1 0xFF Detail.channelDown Scope.inBound Attn.fault))
    (rolePeer (m.roleNow k)) .linkDown (m.roleNow k)
  rw [heq, hx]
  refine ⟨Mod.reportFault_out _ _ (BitVec.or_self (x := Attn.fault)), ?_, ?_, Mod.reportFault_run _ _, Mod.reportFault_hbm _ _⟩
  · rw [Mod.chan, Mod.reportFault_fab, hdown]
  · rw [Mod.chan, Mod.reportFault_fab, hdown]

/-! ### Lanes (spec 10, R317) -/

section
variable {m : Mod} {k lane : Nat} (hk : k < 28) (hst : (m.chan k).st = .up ∨ (m.chan k).st = .shadow) (hl : lane < 9)
include hk hst hl

/-- The first lane that fails: the spare lane carries its stripe, and a record is written. -/
theorem Mod.laneFail_first (hf : (m.chan k).failedLane = none) (loose : Bool) :
    ∃ x, m.laneFail k lane loose = (m.setChan k (fun c => { c with
      failedLane := some lane, lanes := c.lanes - 1,
      laneSwitches := if lane ≠ 8 then satInc c.laneSwitches else c.laneSwitches })).reportFault x := by
  simp only [Mod.laneFail, hf, decide_eq_true_eq]
  exact ⟨_, if_neg (by rcases hst with h | h <;> simp [h, hk, hl])⟩

/-- The second takes the channel down. -/
theorem Mod.laneFail_second (hf : (m.chan k).failedLane.isSome = true) (loose : Bool) :
    Mod.LosesChannel k loose m (m.laneFail k lane loose) := by
  obtain ⟨first, hfirst⟩ := Option.isSome_iff_exists.mp hf
  have hset : (m.setChan k (fun c => { c with lanes := c.lanes - 1 })).chan k
      = { m.chan k with lanes := (m.chan k).lanes - 1 } := Mod.chan_setChan (Chan.ne_off_of_failedLane (by simp [hfirst]))
  have heq : m.laneFail k lane loose = (m.setChan k (fun c => { c with lanes := c.lanes - 1 })).channelLost k loose := by
    simp only [Mod.laneFail, hfirst]
    exact if_neg (by rcases hst with h | h <;> simp [h, hk, hl])
  obtain ⟨hout, hdown, hdowns, hrun, hhbm⟩ := Mod.channelLost_loses
    (m := m.setChan k (fun c => { c with lanes := c.lanes - 1 })) hk (by rw [hset]; exact hst) loose
  rw [heq]
  refine ⟨hout, hdown, by rw [hdowns, hset], hrun.trans (Mod.markIf_run (m := m) ?_ _ _), hhbm⟩
  rfl

end

/-! ### The events -/

/-- What is left to show of an event that loses a channel. -/
theorem State.Quiet.channel_lost {e : Instr} {s : State} {f : Mod → Mod} {k : Nat} {loose : Bool} (hq : s.Quiet)
    (hx : exec e s = .next (s.event f)) (h : Mod.LosesChannel k loose s.m.fresh (f s.m.fresh)) :
    Completes e s (fun t =>
      Observed s t Attn.fault [] [] ∧ (t.m.chan k).st = .down ∧ (t.m.chan k).downs = satInc (s.m.fresh.chan k).downs
      ∧ t.m.run = (if loose then (s.m.fresh.markDouse Douse.fabricLoss).run else s.m.run) ∧ t.m.hbm = s.m.hbm) := by
  have hout : s.m.fresh.out = Outbox.empty := hq
  have hchan : (s.event f).m.chan k = (f s.m.fresh).chan k := by rw [Mod.chan, State.event_fab, Mod.chan]
  refine ⟨_, hx, State.event_observed (ks := []) (h.out.trans (by rw [hout]; rfl)), ?_, ?_, ?_, ?_⟩
  · rw [hchan, h.st]
  · rw [hchan, h.downs]
  · rw [State.event_run, h.run]; rfl
  · rw [State.event_hbm, h.hbm]; rfl

/-- Settles O51: a channel is lost by `Mod.channelLost_loses`, lanes fail by `Mod.laneFail_first` and
`Mod.laneFail_second`, and a NAK replays unless it is the fourth in a row. -/
theorem channelsFailAndReplay : Obligations.ChannelsFailAndReplay := by
  intro s hq k hk m c lost
  refine ⟨fun hst => ⟨fun loose => ⟨?_, ?_⟩, fun lane loose hl hf => ?_, fun lane loose hl hf => ?_⟩, fun hf => ?_,
    fun hup => ⟨fun lastGood => ?_, fun ackSeq loose => ?_⟩⟩
  · exact hq.channel_lost rfl (Mod.channelLost_loses hk hst loose)
  · exact hq.channel_lost rfl (Mod.channelLost_loses hk hst loose)
  · obtain ⟨x, hx⟩ := Mod.laneFail_first hk hst hl hf loose
    refine ⟨_, rfl, ?_, ?_, ?_, State.event_reportFault hq hx rfl⟩
    · rw [Mod.chan, State.event_fab, hx, Mod.reportFault_fab]
      exact Mod.chan_setChan (Chan.ne_off_of_failedLane (by simp))
    · rw [State.event_run, hx, Mod.reportFault_run]; rfl
    · rw [State.event_hbm, hx, Mod.reportFault_hbm]; rfl
  · exact hq.channel_lost rfl (Mod.laneFail_second hk hst hl hf loose)
  · exact hq.happens rfl (if_pos ⟨hk, hf⟩) rfl
  · exact hq.happens rfl (if_pos ⟨hk, hup⟩) rfl
  · intro again
    refine ⟨fun hmore => ?_, fun hagain htries => ?_⟩
    · have hgo : ¬(again = true ∧ 3 ≤ c.tries) := by rcases hmore with h | h <;> simp [h]
      exact hq.happens rfl ((if_pos ⟨hk, hup⟩).trans (if_neg hgo)) rfl
    · refine hq.channel_lost (f := fun m => m.takeNak k ackSeq loose) rfl ?_
      rw [show s.m.fresh.takeNak k ackSeq loose = m.channelLost k loose from
        (if_pos ⟨hk, hup⟩).trans (if_pos ⟨hagain, htries⟩)]
      exact Mod.channelLost_loses hk (.inl hup) loose

end Sys2Proof.Machine

/-! PROOFS. The time base acquires, locks, holds over and unlocks (O52). -/
namespace Sys2Proof.Machine

/-! ### An exchange with a parent (spec 10, R327 to R329) -/

/-- From m to n an exchange with a parent has given θ: the time base is in state st and follows the parent that answered;
round and memory stand, and the host sees nothing of it. -/
structure Mod.Steers (alt : Bool) (theta2 : Int) (st : TimeSt) (m n : Mod) : Prop where
  out : n.out = m.out
  theta : n.fab.theta2 = theta2
  state : n.fab.timeState = st
  onAlt : n.fab.onAlt = alt
  run : n.run = m.run
  hbm : n.hbm = m.hbm

section
variable {m : Mod} (alt : Bool) (theta2 : Int)

theorem Mod.steer_free (h : m.fab.timeState = .free) : Mod.Steers alt theta2 .acquiring m (m.steer alt theta2) := by
  simp only [Mod.steer, h]
  exact ⟨rfl, rfl, rfl, rfl, rfl, rfl⟩

/-- The 16th exchange in a row within 2 ns locks a module that has made its step. -/
theorem Mod.steer_locks (h : m.fab.timeState = .acquiring) (hs : m.fab.stepped = true) (ha : m.fab.onAlt = alt)
    (hg : 15 ≤ m.fab.good) (hn : thetaOver theta2 2 = false) (hw : m.run.phase ≠ .waiting) :
    Mod.Steers alt theta2 .locked m (m.steer alt theta2) := by
  have hgood : 16 ≤ m.fab.good + 1 := by omega
  simp only [Mod.steer, h, hn, ha, hs, hgood, Bool.not_false, and_self, if_true, Mod.timeLocked]
  rw [Mod.tryOpen_away (by exact hw)]
  exact ⟨rfl, rfl, rfl, rfl, rfl, rfl⟩

theorem Mod.steer_unstepped (h : m.fab.timeState = .acquiring) (hs : m.fab.stepped = false) :
    Mod.Steers alt theta2 .acquiring m (m.steer alt theta2) := by
  simp only [Mod.steer, h, hs, Bool.false_eq_true, false_and, if_false]
  exact ⟨rfl, rfl, rfl, rfl, rfl, rfl⟩

theorem Mod.steer_far (h : m.fab.timeState = .locked) (hf : thetaOver theta2 25 = true) :
    Mod.Steers alt theta2 .acquiring m (m.steer alt theta2) := by
  simp only [Mod.steer, h, hf, if_true]
  exact ⟨rfl, rfl, rfl, rfl, rfl, rfl⟩

theorem Mod.steer_near (h : m.fab.timeState = .locked) (hf : thetaOver theta2 25 = false) :
    Mod.Steers alt theta2 .locked m (m.steer alt theta2) := by
  simp only [Mod.steer, h, hf, Bool.false_eq_true, if_false]
  exact ⟨rfl, rfl, rfl, rfl, rfl, rfl⟩

end

/-- A TIME flit that ends an exchange with a parent: a suspect may be raised first (spec 10, R343). -/
theorem Mod.takeTime_steers {m : Mod} {k : Nat} {alt : Bool} (hd : m.dataPlane = true) (hk : k < 28)
    (hup : (m.chan k).st = .up) (hp : m.fab.parentOf (m.roleNow k) = some alt) (s1 r1 s2 r2 : Int) :
    ∃ x c, m.takeTime k s1 r1 s2 r2
      = Mod.steer { m with fab := { m.fab with suspects := x }, cnt := c } alt ((r1 - s1) - (r2 - s2)) := by
  obtain ⟨x, c, h⟩ : ∃ x c,
      (if m.fab.timeState = .locked ∧ thetaOver ((r1 - s1) - (r2 - s2)) 100 then
        m.raiseSuspect (rolePeer (m.roleNow k)) .timeFault 0 else m)
      = { m with fab := { m.fab with suspects := x }, cnt := c } := by
    split
    · exact m.raiseSuspect_eq _ _ _
    · exact ⟨m.fab.suspects, m.cnt, rfl⟩
  have hp' : Fab.parentOf { m.fab with suspects := x } (m.roleNow k) = some alt := hp
  refine ⟨x, c, ?_⟩
  unfold Mod.takeTime
  rw [if_pos ⟨hd, hk, hup⟩]
  dsimp only at hp' ⊢
  rw [h, hp']

/-- What is left to show of such a flit: where the exchange steers the time base. -/
theorem State.Quiet.steers {s : State} {k : Nat} {alt : Bool} {st : TimeSt} {s1 r1 s2 r2 : Int} (hq : s.Quiet)
    (hd : s.m.fresh.dataPlane = true) (hk : k < 28) (hup : (s.m.fresh.chan k).st = .up)
    (hp : s.m.fresh.fab.parentOf (s.m.fresh.roleNow k) = some alt)
    (h : ∀ n : Mod, n.fab = { s.m.fresh.fab with suspects := n.fab.suspects } → n.run = s.m.run →
      Mod.Steers alt ((r1 - s1) - (r2 - s2)) st n (n.steer alt ((r1 - s1) - (r2 - s2)))) :
    Completes (.timeFlit k s1 r1 s2 r2) s (fun t =>
      Observed s t 0 [] [] ∧ t.m.fab.theta2 = (r1 - s1) - (r2 - s2) ∧ t.m.fab.timeState = st ∧ t.m.fab.onAlt = alt
      ∧ t.m.run = s.m.run ∧ t.m.hbm = s.m.hbm) := by
  obtain ⟨x, c, hx⟩ := Mod.takeTime_steers hd hk hup hp s1 r1 s2 r2
  obtain ⟨hout, htheta, hstate, halt, hrun, hhbm⟩ :=
    h { s.m.fresh with fab := { s.m.fresh.fab with suspects := x }, cnt := c } rfl rfl
  rw [← hx] at hout htheta hstate halt hrun hhbm
  refine ⟨_, rfl, hq.observed hout, ?_⟩
  rw [State.event_fab, State.event_run, State.event_hbm]
  exact ⟨htheta, hstate, halt, hrun, hhbm⟩

/-! ### Steps of time -/

@[simp] theorem Mod.sendAll_out (m : Mod) (xs : List Sent) : (m.sendAll xs).out = m.out := rfl

/-- 10 µs pass, and every channel that is up sends its TIME flit (spec 10, R327). -/
theorem Mod.timeExchange_passes {m : Mod} (hd : m.dataPlane = true) :
    m.timeExchange = Mod.sendAll { m with fab := { m.fab with time := (m.fab.time + 10000) % 2 ^ 64 } }
      (((List.range 28).filter (fun k => (m.chan k).st == ChanSt.up)).map Sent.time) := by
  have hchan : ∀ t k, Mod.chan { m with fab := { m.fab with time := t } } k = m.chan k := fun _ _ => rfl
  simp only [Mod.timeExchange, if_pos hd, hchan]

/-- The single step of an ACQUIRING module, by an even θ (spec 10, R329). -/
theorem Mod.timeStep_even {m : Mod} (hst : m.fab.timeState = .acquiring) (ha : m.fab.answered = true)
    (hs : m.fab.stepped = false) (ho : m.fabricOpen = false) (he : m.fab.theta2 % 2 = 0) :
    m.timeStep = { m with fab := { m.fab with
      time := unsigned 64 ((m.fab.time : Int) + m.fab.theta2 / 2), stepped := true, good := 0 } } := by
  have htheta : m.thetaNs = (m.fab.theta2 / 2, m) := if_pos he
  unfold Mod.timeStep
  rw [if_pos ⟨hst, ha, by simp [hs], by simp [ho]⟩, htheta]

/-- Settles O52: an exchange with a parent steers the time base by its state (`State.Quiet.steers`), a HOLDOVER without an
answer ends with its record, and the single step goes by an even θ. -/
theorem theTimeBaseLocks : Obligations.TheTimeBaseLocks := by
  intro s hq m
  refine ⟨fun hd => ?_, fun k s1 r1 s2 r2 alt hd hk hup hp hw => ?_, fun hst ha => ?_, fun hst ha hs ho he => ?_⟩
  · exact hq.happens rfl (s.m.fresh.timeExchange_passes hd) (Mod.sendAll_out _ _)
  · have hsteers := fun st h => State.Quiet.steers (st := st) (s1 := s1) (r1 := r1) (s2 := s2) (r2 := r2) hq hd hk hup hp h
    intro theta2 now
    refine ⟨fun h => ?_, fun h hs ha hg hn => ?_, fun h hs => ?_, fun h hf => ?_, fun h hf => ?_⟩
    · exact hsteers _ (fun n hn _ => Mod.steer_free alt theta2 (by rw [hn]; exact h))
    · exact hsteers _ (fun n hf hr => Mod.steer_locks alt theta2 (by rw [hf]; exact h) (by rw [hf]; exact hs)
        (by rw [hf]; exact ha) (by rw [hf]; exact hg) hn (by rw [hr]; exact hw))
    · exact hsteers _ (fun n hn _ => Mod.steer_unstepped alt theta2 (by rw [hn]; exact h) (by rw [hn]; exact hs))
    · exact hsteers _ (fun n hn _ => Mod.steer_far alt theta2 (by rw [hn]; exact h) hf)
    · exact hsteers _ (fun n hn _ => Mod.steer_near alt theta2 (by rw [hn]; exact h) hf)
  · obtain ⟨hobs, hfab, hrun, hhbm⟩ := hq.event_report
      (f := fun m => if m.fab.timeState = .holdover ∧ !m.fab.answered then m.timeLost else m)
      (if_pos ⟨hst, congrArg (!·) ha⟩) rfl
    exact ⟨_, rfl, hobs, by rw [hfab], hrun, hhbm⟩
  · exact hq.happens rfl (Mod.timeStep_even hst ha hs ho he) rfl

end Sys2Proof.Machine

/-! PROOFS. Packets and flag messages are taken (O49). -/
namespace Sys2Proof.Machine

/-! ### What follows a packet (spec 10, R332, R336, R337; spec 11, R362) -/

theorem Mod.Counts.foldl {α : Type} {f : Mod → α → Mod} (hf : ∀ m a, Mod.Counts m (f m a)) (l : List α) (m : Mod) :
    m.Counts (l.foldl f m) :=
  List.foldlRecOn l f (Mod.Counts.refl m) (fun n hn a _ => hn.trans (hf n a))

theorem Mod.Signals.counts {m n : Mod} : m.Signals n → m.Counts n := by
  rintro ⟨_, _, _, _, _, rfl⟩
  exact ⟨⟨rfl, rfl, rfl⟩, rfl, rfl, rfl⟩

theorem Mod.Signals.colls {m n : Mod} : m.Signals n → n.run.colls = m.run.colls := by
  rintro ⟨_, _, _, _, _, rfl⟩
  rfl

theorem Mod.setColl_counts (m : Mod) (i : Nat) (f : CollRun → CollRun) : m.Counts (m.setColl i f) :=
  ⟨⟨rfl, rfl, rfl⟩, rfl, rfl, rfl⟩

theorem Mod.raiseSuspect_counts (m : Mod) (who : Nat) (cls : SuspectClass) (d : Nat) : m.Counts (m.raiseSuspect who cls d) := by
  obtain ⟨x, c, h⟩ := m.raiseSuspect_eq who cls d
  rw [h]
  exact ⟨⟨rfl, rfl, rfl⟩, rfl, rfl, rfl⟩

theorem Mod.sendChunk_counts (m : Mod) (dst addr : Nat) (v : List F32) : m.Counts (m.sendChunk dst addr v) := by
  unfold Mod.sendChunk
  split
  · exact (m.sendPacket_signals dst _ _).counts.trans (Mod.tally_counts _ _ _)
  · exact (m.sendPacket_signals dst _ _).counts

theorem Mod.gatherStage_counts (m : Mod) (p : Plan) (i s : Nat) (c : Coll) (a : Alloc) : m.Counts (m.gatherStage p i s c a) :=
  .trans (.foldl (fun m _ => .foldl (fun m _ => m.sendChunk_counts _ _ _) _ m) _ m) (Mod.setColl_counts _ i _)

theorem Mod.gather_counts (m : Mod) (i : Nat) (c : Coll) : m.Counts (m.gather i c) := by
  unfold Mod.gather
  split
  · refine .foldl (fun m s => ?_) _ m
    split
    · exact m.gatherStage_counts _ i s c _
    · exact .refl m
  · exact .refl m

/-- Chunks that arrive in a gathered destination are noted, and later stages are sent; nothing is written. -/
theorem Mod.noteGather_counts (m : Mod) (s : Span) : m.Counts (m.noteGather s) := by
  unfold Mod.noteGather
  split
  · refine .foldl (fun m e => ?_) _ m
    split
    · split
      · dsimp only
        split
        · exact (m.setColl_counts e.1 _).trans (Mod.gather_counts _ e.1 e.2)
        · exact m.setColl_counts e.1 _
      · exact .refl m
    · exact .refl m
  · exact .refl m

/-- A packet that is seen leaves a douse mark as it stands. -/
theorem Mod.seePacket_mark (m : Mod) (src : Nat) : (m.seePacket src).run.mark = m.run.mark := by
  refine foldl_keeps (fun m : Mod => m.run.mark) (fun m (x : FlagMsg) => ?_) _ _
  obtain ⟨fl, h⟩ := Mod.incFlag_eq { m with run := { m.run with
    flagFrom := SMap.upd [] m.run.flagFrom x.flag (fun l => x.sender :: l) } } x.flag x.inc
  rw [Mod.incFlagFrom, h]

/-! ### Packets that are held or dropped (spec 10, R322, R325) -/

theorem Mod.dropPacket_out (m : Mod) (k : Packet) : (m.dropPacket k).out = m.out := by
  have hdrop : ((m.count Cnt.fabricDropped 1).raiseSuspect k.src .badPacket 0).out = m.out :=
    (Mod.raiseSuspect_counts (m.count Cnt.fabricDropped 1) k.src .badPacket 0).work.out
  unfold Mod.dropPacket
  dsimp only
  split
  · exact (Mod.seePacket_signals _ k.src).counts.work.out.trans hdrop
  · exact hdrop

theorem Mod.receive_ember {m : Mod} {k : Packet} (hb : packetBad k = false) (he : k.ember = true) :
    m.receive k = m.acceptEmber k := by
  simp [Mod.receive, hb, he]

theorem Mod.acceptEmber_now {m : Mod} {k : Packet} (h : m.takeOf k = .now) : m.acceptEmber k = m.takePacket k := by
  rw [Mod.acceptEmber, h]

theorem Mod.acceptEmber_hold {m : Mod} {k : Packet} (h : m.takeOf k = .hold) :
    m.acceptEmber k = { m with fab := { m.fab with early := m.fab.early ++ [k] } } := by
  rw [Mod.acceptEmber, h]

theorem Mod.acceptEmber_drop {m : Mod} {k : Packet} (h : m.takeOf k = .drop) : m.acceptEmber k = m.dropEmber := by
  rw [Mod.acceptEmber, h]

/-- A packet is taken only while a round is open. -/
theorem Mod.isOpen_of_takeOf {m : Mod} {k : Packet} (h : m.takeOf k = .now) : m.run.phase.isOpen = true := by
  cases hopen : m.run.phase.isOpen
  case true => rfl
  case false =>
    simp only [Mod.takeOf, hopen, Bool.false_and, Bool.false_eq_true, if_false] at h
    split at h
    · exact Take.noConfusion h
    · split at h
      · exact Take.noConfusion h
      · exact Take.noConfusion h

/-- A packet for another module leaves on the one live twin of its first hop (spec 10, R326). -/
theorem Mod.forward_live {m : Mod} {k : Packet} {role : Nat}
    (h : (firstHops k.dst).filter (fun r => (m.liveChannel r).isSome) = [role]) :
    m.forward k = (m.send (.forward role k)).count Cnt.fabricForwarded 1 := by
  simp only [Mod.forward, h]

/-! ### MEMORY packets (spec 06, R189) -/

/-- A packet of the attempt that lies in records it may write is written, and then seen. -/
theorem Mod.takeMemory_writes {m : Mod} {p : Plan} {parts : List (Nat × Bytes)} (hp : m.plan.plan = some p)
    (ho : m.run.phase.isOpen = true) (hok : parts.all (fun w => p.takesWrite ⟨w.1, w.1 + w.2.length⟩) = true) (src : Nat) :
    m.takeMemory src parts = (m.roundWrites parts).seePacket src := by
  simp only [Mod.takeMemory, hp, hok, ho, Bool.not_true, Bool.false_eq_true, if_false, if_true]

theorem Mod.takePacket_memory {m : Mod} {k : Packet} (ht : k.target = .memory) :
    m.takePacket k = (m.takeMemory k.src (m.packetParts k.addr k.data)).noteGather
      (partsSpan k.addr (m.packetParts k.addr k.data)) := by
  rw [Mod.takePacket, ht]

/-- Such a packet differs from its write in what it notes and sends alone. -/
theorem Mod.takePacket_writes {m : Mod} {k : Packet} {p : Plan} (ht : k.target = .memory) (hp : m.plan.plan = some p)
    (ho : m.run.phase.isOpen = true)
    (hok : (m.packetParts k.addr k.data).all (fun w => p.takesWrite ⟨w.1, w.1 + w.2.length⟩) = true) :
    (m.roundWrites (m.packetParts k.addr k.data)).Counts (m.takePacket k) := by
  rw [Mod.takePacket_memory ht, Mod.takeMemory_writes hp ho hok]
  exact (Mod.seePacket_signals _ k.src).counts.trans (Mod.noteGather_counts _ _)

/-! ### SUM packets (spec 10, R340; spec 11, R361, R363) -/

theorem Mod.takePacket_sum {m : Mod} {k : Packet} (ht : k.target = .reduction) (hf : m.sumFits k = true) :
    m.takePacket k
      = (m.takeSum k.src (bits k.addr 31 0) (bits k.addr 47 32) (bits k.addr 55 48) (packetValues k.data)).seePacket k.src := by
  rw [Mod.takePacket, ht]
  exact if_pos hf

theorem Mod.takePacket_unfit {m : Mod} {k : Packet} (ht : k.target = .reduction) (hf : m.sumFits k = false) :
    m.takePacket k = m.dropPacket k := by
  rw [Mod.takePacket, ht]
  exact if_neg (by simp [hf])

theorem Mod.markDouse_isSome {m : Mod} (h : m.run.phase.runs = true) (c : Nat) : (m.markDouse c).run.mark.isSome = true := by
  unfold Mod.markDouse
  split
  · rfl
  · next hm => simpa [h, Option.isSome_iff_ne_none] using hm

/-- A duplicate contribution is counted and its sender reported; no collective takes it, and an attempt that runs is marked
(spec 11, R363). -/
theorem Mod.duplicate_marks (m : Mod) (src : Nat) :
    let n := ((m.tallyEvent Cnt.collDup 1).raiseSuspect src .badPacket 0).markDouse Douse.fence
    m.Counts n ∧ n.run.colls = m.run.colls ∧ (m.run.phase.runs = true → n.run.mark.isSome = true) := by
  obtain ⟨x, c, h⟩ := (m.tallyEvent Cnt.collDup 1).raiseSuspect_eq src .badPacket 0
  refine ⟨((m.tallyEvent_counts _ 1).trans (Mod.raiseSuspect_counts _ _ _ _)).trans (Mod.markDouse_counts _ _), ?_,
    fun hr => Mod.markDouse_isSome (by rw [h]; exact hr) _⟩
  rw [(Mod.markDouse_signals _ _).colls, h]
  rfl

/-- A contribution with values, held in its slot until the chunk is summed (spec 11, R361). -/
def Mod.storeSum (m : Mod) (i stage chunk slot : Nat) (vs : List F32) : Mod :=
  m.setColl i (fun x => { x with got := SMap.put none x.got (gotKey stage chunk slot) (some ⟨vs, 0, false⟩) })

section
variable {m : Mod} {p : Plan} {c : Coll} {i key slot : Nat} (hp : m.plan.plan = some p) (hc : m.collDesc i = some c)
include hp hc

/-- A slot that is filled already: counted, the sender reported, the attempt marked (spec 11, R363). -/
theorem Mod.takeSum_duplicate (h : ((m.coll i).held (key / 16384) (key % 16384) slot).isSome = true) (src : Nat)
    (vs : List F32) :
    m.takeSum src i key slot vs
      = ((m.tallyEvent Cnt.collDup 1).raiseSuspect src .badPacket 0).markDouse Douse.fence := by
  simp only [Mod.takeSum, hp, hc]
  exact if_pos h

/-- A contribution goes to the stage buffer, and its chunk is summed once all its slots are here. -/
theorem Mod.takeSum_stores (h : (m.coll i).held (key / 16384) (key % 16384) slot = none) (hn : c.op ≠ .normFinite)
    {vs : List F32} (hv : vs ≠ []) (src : Nat) :
    m.takeSum src i key slot vs
      = Mod.trySum 3 ((m.storeSum i (key / 16384) (key % 16384) slot vs).stageChunk c (p.rankIn c) (key / 16384) (key % 16384)
          slot vs) p i c (key / 16384) (key % 16384) := by
  simp [Mod.takeSum, hp, hc, h, hn, hv, Mod.storeSum]

end

theorem Mod.stageChunk_writes (m : Mod) (c : Coll) (q s j k : Nat) (v : List F32) : m.Writes (m.stageChunk c q s j k v) := by
  unfold Mod.stageChunk
  split
  · exact m.roundWrite_writes _ _
  · exact .refl m

theorem Mod.Writes.plan {m n : Mod} : m.Writes n → n.plan = m.plan := by
  rintro ⟨_, _, _, _, _, _, rfl⟩
  rfl

theorem Mod.Writes.out {m n : Mod} : m.Writes n → n.out = m.out := by
  rintro ⟨_, _, _, _, _, _, rfl⟩
  rfl

theorem Mod.Writes.coll {m n : Mod} (i : Nat) : m.Writes n → n.coll i = m.coll i := by
  rintro ⟨_, _, _, _, _, _, rfl⟩
  rfl

section
variable {m : Mod} {c : Coll} {i stage chunk : Nat} (hs : sumKey stage chunk ∉ (m.coll i).summed)
include hs

theorem Mod.trySum_waits (h : (m.coll i).sumOf c stage chunk = none) (fuel : Nat) (p : Plan) :
    Mod.trySum (fuel + 1) m p i c stage chunk = m := by
  simp only [Mod.trySum, if_neg hs, h]

/-- The sum of the last stage of REDUCE_SCATTER goes to the destination. -/
theorem Mod.trySum_last {v : Contribution} {a : Alloc} (h : (m.coll i).sumOf c stage chunk = some v)
    (hnext : c.nextStage stage = none) (hop : c.op = .reduceScatter) (ha : m.operand c.dstRec = some a) (fuel : Nat) (p : Plan) :
    Mod.trySum (fuel + 1) m p i c stage chunk
      = (m.setColl i (fun x => { x with summed := x.summed ++ [sumKey stage chunk] })).roundWrites
          (storeF32 a (chunk % c.shardChunks * 896) v.values) := by
  have ha' : ∀ f, (m.setColl i f).operand c.dstRec = some a := fun _ => ha
  have hall : (c.op == .allReduce) = false := by rw [hop]; rfl
  simp [Mod.trySum, if_neg hs, h, Mod.passSum, hnext, hall, ha']

end

/-! ### Flag messages (spec 10, R336) -/

/-- A flag message that waits for its fence. -/
def Mod.holdFlag (m : Mod) (f : FlagMsg) : Mod := { m with fab := { m.fab with flagWait := m.fab.flagWait ++ [f] } }

theorem Mod.applyFlags_signals (m : Mod) : m.Signals m.applyFlags :=
  Mod.Signals.trans ⟨_, _, _, _, _, rfl⟩ (.foldl (fun m (x : FlagMsg) => m.incFlagFrom_signals x.sender x.flag x.inc) _ _)

/-- A malformed flag message is counted and its sender reported, no more. -/
theorem Mod.takeFlag_malformed {m : Mod} {f : FlagMsg} (h : f.flag < 768) :
    (m.takeFlag f).out = m.out ∧ (m.takeFlag f).run = m.run ∧ (m.takeFlag f).fab.flagWait = m.fab.flagWait
      ∧ (m.takeFlag f).hbm = m.hbm := by
  have htake : m.takeFlag f = (m.count Cnt.fabricDropped 1).raiseSuspect f.sender .badPacket 0 := if_pos (.inl h)
  obtain ⟨x, c, hx⟩ := (m.count Cnt.fabricDropped 1).raiseSuspect_eq f.sender .badPacket 0
  rw [htake, hx]
  exact ⟨rfl, rfl, rfl, rfl⟩

section
variable {m : Mod} {f : FlagMsg} (hlo : 768 ≤ f.flag) (hhi : f.flag ≤ 1023) (hi : f.inc = 1)
include hlo hhi hi

/-- A flag message of the open attempt. -/
theorem Mod.takeFlag_open (ho : (m.run.phase.isOpen && m.run.phase != .doused && m.run.phase != .replay) = true)
    (hs : f.serial = m.run.serial) (ha : f.attempt = m.run.attempt) (hmem : f.sender ∈ m.others) :
    m.takeFlag f = (m.holdFlag f).applyFlags := by
  unfold Mod.takeFlag
  rw [if_neg (by omega), if_pos ⟨ho, hs, ha⟩, if_pos hmem]
  rfl

/-- With no round, one of the round that opens next is held, any other dropped. -/
theorem Mod.takeFlag_closed (hph : m.run.phase = .none) :
    m.takeFlag f = if m.plan.st = .running ∧ f.serial = m.nextRoundSerial ∧ f.attempt = 0 then m.holdFlag f else m.dropEmber := by
  unfold Mod.takeFlag
  rw [if_neg (by omega), if_neg (by simp [hph, Phase.isOpen]), if_neg (by simp [hph])]
  rfl

end

/-! ### The events -/

/-- What is left to show of an event that ends with a packet that is seen. -/
theorem State.Quiet.packet_seen {e : Instr} {s : State} {f : Mod → Mod} {n : Mod} {src : Nat} {P : State → Prop} (hq : s.Quiet)
    (hx : exec e s = .next (s.event f)) (hf : f s.m.fresh = n.seePacket src) (ho : n.out = s.m.out) (hp : n.plan = s.m.plan)
    (hP : ∀ t, Observed s t 0 [] [] → t.m.plan = s.m.plan → t.m.hbm = n.hbm → t.m.run.colls = n.run.colls →
      t.m.run.mark = n.run.mark → P t) : Completes e s P := by
  have hsig := n.seePacket_signals src
  have hcounts := hsig.counts
  refine ⟨_, hx, hP _ (hq.observed ?_) ?_ ?_ ?_ ?_⟩
  · rw [hf, hcounts.work.out, ho]
  · rw [State.event_plan, hf, hcounts.stores.plan, hp]
  · rw [State.event_hbm, hf, hcounts.stores.hbm]
  · rw [State.event_run, hf, hsig.colls]
  · rw [State.event_run, hf, Mod.seePacket_mark]

/-- An ember packet that this module may receive and that is held or dropped. -/
theorem State.Quiet.packet_waits {e : Instr} {s : State} {f : Mod → Mod} {k : Packet} (hq : s.Quiet)
    (hx : exec e s = .next (s.event f)) (hf : f s.m.fresh = s.m.fresh.acceptEmber k) :
    (s.m.fresh.takeOf k = .hold →
      Happens e s 0 [] { s.m.fresh with fab := { s.m.fresh.fab with early := s.m.fresh.fab.early ++ [k] } })
    ∧ (s.m.fresh.takeOf k = .drop → Happens e s 0 [] s.m.fresh.dropEmber) :=
  ⟨fun h => hq.happens hx (hf.trans (Mod.acceptEmber_hold h)) rfl,
    fun h => hq.happens hx (hf.trans (Mod.acceptEmber_drop h)) (Mod.dropEmber_out _)⟩

theorem flagInc_takes {s : State} (hd : s.m.fresh.dataPlane = true) (f : FlagMsg) :
    ∃ g : Mod → Mod, exec (.flagInc f) s = .next (s.event g) ∧ g s.m.fresh = s.m.fresh.takeFlag f :=
  ⟨_, rfl, if_pos hd⟩

section
variable {s : State} {k : Packet} (hd : s.m.fresh.dataPlane = true) (hb : packetBad k = false)
  (hdst : k.dst = Config.position) (he : k.ember = true)
include hd hb hdst he

theorem dataPacket_accepts (ht : k.target = .memory) :
    ∃ f : Mod → Mod, exec (.dataPacket k) s = .next (s.event f) ∧ f s.m.fresh = s.m.fresh.acceptEmber k :=
  ⟨_, rfl, (if_pos ⟨hd, hdst, .inl ht⟩).trans (Mod.receive_ember hb he)⟩

theorem sumPacket_accepts (ht : k.target = .reduction) (hz : bits k.addr 63 56 = 0) :
    ∃ f : Mod → Mod, exec (.sumPacket k) s = .next (s.event f) ∧ f s.m.fresh = s.m.fresh.acceptEmber k :=
  ⟨_, rfl, (if_pos ⟨hd, hdst, ht⟩).trans ((if_neg (by simp [hz])).trans (Mod.receive_ember hb he))⟩

end

/-- Settles O49: packets by what `Mod.acceptEmber` makes of them, flag messages by the cases of `Mod.takeFlag`. -/
theorem packetsAndFlagsAreTaken : Obligations.PacketsAndFlagsAreTaken := by
  intro s hq hd m
  replace hd : m.dataPlane = true := hd
  refine ⟨fun k hb hdst he => ?_, fun k a hdst hlive => ?_, fun f hlo hhi hi => ?_, fun f hf => ?_⟩
  · intro arrives
    refine ⟨fun ht => ?_, fun ht hz => ?_⟩
    · obtain ⟨f, hx, hev⟩ := dataPacket_accepts hd hb hdst he ht
      refine ⟨hq.packet_waits hx hev, fun p hnow hp => ?_⟩
      intro parts hok
      have hcounts := Mod.takePacket_writes ht hp (Mod.isOpen_of_takeOf hnow) hok
      rw [← Mod.acceptEmber_now hnow, ← hev] at hcounts
      have hwork := (m.roundWrites_sameWork parts).trans hcounts.work
      refine ⟨_, hx, hq.observed hwork.out, ?_⟩
      rw [State.event_plan, State.event_run, State.event_hbm]
      exact ⟨hcounts.stores.plan.trans (m.roundWrites_writes parts).plan, hwork.ents, hcounts.stores.hbm, hcounts.stores.staged⟩
    · obtain ⟨f, hx, hev⟩ := sumPacket_accepts hd hb hdst he ht hz
      refine ⟨hq.packet_waits hx hev, fun hnow hfit => ?_, fun p c hnow hp hc hfit => ?_⟩
      · exact hq.happens hx (hev.trans ((Mod.acceptEmber_now hnow).trans (Mod.takePacket_unfit ht hfit))) (m.dropPacket_out k)
      · intro i stage j slot vs
        have htake := hev.trans ((Mod.acceptEmber_now hnow).trans (Mod.takePacket_sum ht hfit))
        refine ⟨fun hdup => ?_, fun hnew hop hvs => ?_⟩
        · rw [Mod.takeSum_duplicate hp hc hdup] at htake
          obtain ⟨hcounts, hcolls, hmark⟩ := m.duplicate_marks k.src
          exact hq.packet_seen hx htake hcounts.work.out hcounts.stores.plan
            (fun t ho hp hh hr hm => ⟨ho, hp, hh.trans hcounts.stores.hbm, hr.trans hcolls, fun h => hm ▸ hmark h⟩)
        · rw [Mod.takeSum_stores hp hc hnew hop hvs] at htake
          intro stored n
          have hwrites : stored.Writes n := stored.stageChunk_writes c _ stage j slot vs
          have hcoll := hwrites.coll i
          refine ⟨fun hsum hnone => ?_, fun v a hsum hsome hnext hred ha => ?_⟩
          · rw [← hcoll] at hsum hnone
            refine hq.packet_seen hx (htake.trans (congrArg (Mod.seePacket · k.src) (Mod.trySum_waits hsum hnone 2 p)))
              hwrites.out hwrites.plan (fun t ho hp hh hr _ => ⟨ho, hp, hh, hr⟩)
          · rw [← hcoll] at hsum hsome
            have hlast := (n.setColl i (fun x => { x with summed := x.summed ++ [sumKey stage j] })).roundWrites_writes
              (storeF32 a (j % c.shardChunks * 896) v.values)
            exact hq.packet_seen hx
              (htake.trans (congrArg (Mod.seePacket · k.src) (Mod.trySum_last hsum hsome hnext hred ha 2 p)))
              (hlast.out.trans hwrites.out) (hlast.plan.trans hwrites.plan) (fun t ho hp hh _ _ => ⟨ho, hp, hh⟩)
  · exact hq.happens rfl ((if_pos ⟨hd, hdst⟩).trans (Mod.forward_live hlive)) rfl
  · intro held isOpen
    obtain ⟨g, hx, hev⟩ := flagInc_takes hd f
    refine ⟨fun ho hs ha hmem => ?_, fun hph hother => ?_, fun hph hst hs ha => ?_⟩
    · exact hq.happens hx (hev.trans (Mod.takeFlag_open hlo hhi hi ho hs ha hmem)) held.applyFlags_signals.counts.work.out
    · have hnot : ¬(m.plan.st = .running ∧ f.serial = m.nextRoundSerial ∧ f.attempt = 0) :=
        fun ⟨hst, hs, ha⟩ => hother.elim (· hst) (fun h => h.elim (· hs) (· ha))
      exact hq.happens hx (hev.trans ((Mod.takeFlag_closed hlo hhi hi hph).trans (if_neg hnot))) m.dropEmber_out
    · exact hq.happens hx (hev.trans ((Mod.takeFlag_closed hlo hhi hi hph).trans (if_pos ⟨hst, hs, ha⟩))) rfl
  · obtain ⟨g, hx, hev⟩ := flagInc_takes hd f
    obtain ⟨hout, hrun, hwait, hhbm⟩ := Mod.takeFlag_malformed (m := m) hf
    rw [← hev] at hout hrun hwait hhbm
    refine ⟨_, hx, hq.observed hout, ?_⟩
    rw [State.event_run, State.event_fab, State.event_hbm]
    exact ⟨hrun, hwait, hhbm⟩

end Sys2Proof.Machine

/-! PROOFS. Collectives start, complete and time out (O48). -/
namespace Sys2Proof.Machine

/-! ### The record of a collective -/

theorem Mod.coll_setColl {m : Mod} {i : Nat} {f : CollRun → CollRun} (h : f (m.coll i) ≠ CollRun.idle) :
    (m.setColl i f).coll i = f (m.coll i) :=
  SMap.get_put_same h m.run.colls i

theorem CollRun.ne_idle_of_started {x : CollRun} (h : x.started = true) : x ≠ CollRun.idle := by
  rintro rfl
  exact Bool.false_ne_true h

theorem CollRun.ne_idle_of_done {x : CollRun} (h : x.done = true) : x ≠ CollRun.idle := by
  rintro rfl
  exact Bool.false_ne_true h

/-- From m to n the host sees nothing new, plan and woodpile stand, and collective i stays started. -/
structure Mod.Collects (i : Nat) (m n : Mod) : Prop where
  work : m.SameWork n
  plan : n.plan = m.plan
  started : (m.coll i).started = true → (n.coll i).started = true

section
variable {i : Nat} {m n k : Mod}

theorem Mod.Collects.refl (i : Nat) (m : Mod) : Mod.Collects i m m := ⟨.refl m, rfl, id⟩

theorem Mod.Collects.trans (h : Mod.Collects i m n) (h' : Mod.Collects i n k) : Mod.Collects i m k :=
  ⟨h.work.trans h'.work, h'.plan.trans h.plan, h'.started ∘ h.started⟩

theorem Mod.Collects.foldl {α : Type} {f : Mod → α → Mod} (hf : ∀ m a, Mod.Collects i m (f m a)) (l : List α) (m : Mod) :
    Mod.Collects i m (l.foldl f m) :=
  List.foldlRecOn l f (Mod.Collects.refl i m) (fun n hn a _ => hn.trans (hf n a))

theorem Mod.Writes.collects (h : m.Writes n) : Mod.Collects i m n := by
  obtain ⟨_, _, _, _, _, _, rfl⟩ := h
  exact ⟨⟨rfl, rfl, rfl⟩, rfl, id⟩

theorem Mod.Signals.coll (i : Nat) (h : m.Signals n) : n.coll i = m.coll i := by
  rw [Mod.coll, h.colls, Mod.coll]

theorem Mod.Signals.collects (h : m.Signals n) : Mod.Collects i m n :=
  ⟨h.counts.work, h.counts.stores.plan, fun hs => by rwa [h.coll i]⟩

/-- A change of a collective's record that keeps `started`. -/
theorem Mod.setColl_collects (m : Mod) (i : Nat) (f : CollRun → CollRun)
    (hf : ∀ x, x.started = true → (f x).started = true := by exact fun _ h => h) : Mod.Collects i m (m.setColl i f) := by
  refine ⟨(m.setColl_counts i f).work, rfl, fun h => ?_⟩
  rw [Mod.coll_setColl (CollRun.ne_idle_of_started (hf _ h))]
  exact hf _ h

end

/-! ### Gathering (spec 11, R362) -/

theorem Mod.sendChunk_collects (i : Nat) (m : Mod) (dst addr : Nat) (v : List F32) :
    Mod.Collects i m (m.sendChunk dst addr v) := by
  unfold Mod.sendChunk
  split
  · exact (m.sendPacket_signals dst _ _).collects.trans (Mod.tally_writes _ _ _).collects
  · exact (m.sendPacket_signals dst _ _).collects

theorem Mod.gatherStage_collects (m : Mod) (p : Plan) (i s : Nat) (c : Coll) (a : Alloc) :
    Mod.Collects i m (m.gatherStage p i s c a) :=
  .trans (.foldl (fun m _ => .foldl (fun m _ => m.sendChunk_collects i _ _ _) _ m) _ m)
    (Mod.setColl_collects _ i _)

theorem Mod.gather_collects (m : Mod) (i : Nat) (c : Coll) : Mod.Collects i m (m.gather i c) := by
  unfold Mod.gather
  split
  · refine .foldl (fun m s => ?_) _ m
    split
    · exact m.gatherStage_collects _ i s c _
    · exact .refl i m
  · exact .refl i m

/-! ### Reduce-scatter (spec 11, R359 to R361) -/

theorem Mod.contribute_collects (m : Mod) (p : Plan) (i : Nat) (c : Coll) (s j dest : Nat) (v : Contribution) :
    Mod.Collects i m (m.contribute p i c s j dest v) := by
  unfold Mod.contribute
  extract_lets q dst n k
  split
  · exact m.setColl_collects i _
  · have hk : Mod.Collects i m k := (m.sendPacket_signals _ _ _).collects.trans (n.tally_writes _ _).collects
    split
    · exact hk.trans (k.tally_writes _ _).collects
    · exact hk

theorem Mod.passSum_collects (m : Mod) (p : Plan) (i : Nat) (c : Coll) (s q part : Nat) (v : Contribution) :
    Mod.Collects i m (m.passSum p i c s q part v) := by
  unfold Mod.passSum
  extract_lets q first
  split
  · refine Mod.Collects.trans ?_ (Mod.contribute_collects _ p i c _ _ _ v)
    split
    · exact (m.stageChunk_writes c _ _ _ _ _).collects
    · exact .refl i m
  · split
    · extract_lets n
      have hn : Mod.Collects i m n := (m.roundWrites_writes _).collects
      split
      · exact hn.trans (n.setColl_collects i _)
      · exact hn
    · exact .refl i m

theorem Mod.trySum_collects (p : Plan) (i : Nat) (c : Coll) (fuel : Nat) :
    ∀ (m : Mod) (s j : Nat), Mod.Collects i m (Mod.trySum fuel m p i c s j) := by
  induction fuel with
  | zero => exact fun m _ _ => .refl i m
  | succ fuel ih =>
    intro m s j
    unfold Mod.trySum
    split
    · exact .refl i m
    · split
      · exact .refl i m
      · extract_lets q q' part n k
        have hk : Mod.Collects i m k :=
          (m.setColl_collects i _).trans (n.passSum_collects p i c s q' part _)
        split
        · split
          · exact hk.trans (ih k _ _)
          · exact hk
        · split
          · exact hk.trans (k.gather_collects i c)
          · exact hk

theorem Mod.startReduce_collects (m : Mod) (p : Plan) (i : Nat) (c : Coll) (empty : Bool) :
    Mod.Collects i m (m.startReduce p i c empty) := by
  unfold Mod.startReduce
  split
  · exact .refl i m
  · refine .foldl (fun m k => .foldl (fun m sh => .foldl (fun m part => ?_) _ m) _ m) _ m
    extract_lets j v n
    have hn : Mod.Collects i m n := m.contribute_collects p i c _ j _ v
    split
    · exact hn.trans (Mod.trySum_collects p i c 3 n _ j)
    · exact hn

/-! ### NORM_FINITE (spec 11, R369) -/

theorem Mod.sendPair_collects (m : Mod) (p : Plan) (i : Nat) (c : Coll) (s : Nat) (v : Contribution) :
    Mod.Collects i m (m.sendPair p i c s v) :=
  .trans (m.setColl_collects i _)
    (.foldl (fun m _ => (m.sendPacket_signals _ _ _).collects.trans (Mod.tally_writes _ _ _).collects) _ _)

theorem Mod.tryNorm_collects (p : Plan) (i : Nat) (c : Coll) (fuel : Nat) :
    ∀ (m : Mod) (s : Nat), Mod.Collects i m (Mod.tryNorm fuel m p i c s) := by
  induction fuel with
  | zero => exact fun m _ => .refl i m
  | succ fuel ih =>
    intro m s
    unfold Mod.tryNorm
    extract_lets slots vs v n
    have hn : Mod.Collects i m n := m.setColl_collects i _
    split
    · exact .refl i m
    · split
      · exact (hn.trans (n.sendPair_collects p i c _ v)).trans (ih _ _)
      · split
        · exact hn.trans (n.roundWrite_writes _ _).collects
        · exact hn

/-! ### The start (spec 11, R351, R359 to R362, R369) -/

theorem Mod.copyShard_writes (m : Mod) (c : Coll) (first : Nat) : m.Writes (m.copyShard c first) := by
  unfold Mod.copyShard
  split
  · exact m.roundWrites_writes _
  · exact .refl m

theorem Mod.markHere_collects (m : Mod) (i : Nat) (l : List Nat) : Mod.Collects i m (m.markHere i l) :=
  m.setColl_collects i _

/-- What a collective does first sends, writes and sums; it stays started. -/
theorem Mod.collBegin_collects (m : Mod) (p : Plan) (i : Nat) (c : Coll) : Mod.Collects i m (m.collBegin p i c) := by
  unfold Mod.collBegin
  extract_lets q v
  cases c.op
  case reduceScatter =>
    dsimp only
    split
    · exact (m.copyShard_writes c 0).collects
    · exact m.startReduce_collects p i c _
  case allReduce =>
    dsimp only
    split
    · exact (m.copyShard_writes c 0).collects.trans (Mod.markHere_collects _ i _)
    · exact m.startReduce_collects p i c _
  case allGather =>
    exact ((m.copyShard_writes c _).collects.trans (Mod.markHere_collects _ i _)).trans (Mod.gather_collects _ i c)
  case normFinite =>
    dsimp only
    split
    · split
      · exact (m.roundWrite_writes _ _).collects
      · exact .refl i m
    · exact (m.sendPair_collects p i c _ v).trans (Mod.tryNorm_collects p i c 3 _ _)
  case tieSum => exact .refl i m
  case seed => exact .refl i m
  case ortho => exact .refl i m

/-- A local operation does nothing before its completion. -/
theorem Mod.collBegin_local {c : Coll} (h : c.op = .tieSum ∨ c.op = .seed ∨ c.op = .ortho) (m : Mod) (p : Plan) (i : Nat) :
    m.collBegin p i c = m := by
  rcases h with h | h | h <;> simp only [Mod.collBegin, h]

/-! ### The events of a collective -/

theorem Mod.localOp_writes (m : Mod) (c : Coll) : m.Writes (m.localOp c) := by
  unfold Mod.localOp
  split
  · exact .refl m
  · split
    · exact m.roundWrites_writes _
    · exact m.roundWrites_writes _
    · exact (m.roundWrites_writes _).trans (Mod.tally_writes _ _ _)
    · exact .refl m

/-- The record of a collective that starts. -/
def Mod.markStarted (m : Mod) (i : Nat) (c : Coll) : Mod :=
  m.setColl i (fun x => { x with started := true, empty := m.emptyContribution c })

section
variable {m : Mod} {p : Plan} {c : Coll} {i : Nat} (hrun : m.running = true) (hp : m.plan.plan = some p)
  (hc : m.collDesc i = some c)
include hrun hp hc

theorem Mod.collStart_begins (hst : (m.coll i).started = false) (hgate : m.flagMet c.startFlag c.startValue = true) :
    m.collStart i = (m.markStarted i c).collBegin p i c := by
  simp only [Mod.collStart, hp, hc]
  exact if_pos (by simp [hrun, hst, hgate])

theorem Mod.collComplete_ends (hst : (m.coll i).started = true) (hdone : (m.coll i).done = false)
    (hready : m.collReady p i c = true) :
    m.collComplete i
      = (((m.localOp c).setColl i (fun x => { x with done := true })).incFlag c.doneFlag 1).sendSignals 3 i := by
  simp only [Mod.collComplete, hp, hc]
  exact if_pos (by simp [hrun, hst, hdone, hready])

/-- A chunk with a slot here lacks those in `gone`: the record names the members that they are of (spec 11, R363). -/
theorem Mod.collTimeout_records {stage chunk : Nat} {gone : List Nat} (hs : stage ∈ c.stages)
    (hgone : (List.range (c.size stage)).filter (fun k => ((m.coll i).held stage chunk k).isNone) = gone) (hne : gone ≠ [])
    (hlt : gone.length < c.size stage) (hlate : sumKey stage chunk ∉ (m.coll i).late) :
    m.collTimeout i stage chunk
      = (m.setColl i (fun x => { x with late := x.late ++ [sumKey stage chunk] })).timeoutRecord Detail.collTimeout i
          (gone.map (fun k => p.wordOf c (c.peer stage (p.rankIn c) k))) := by
  simp only [Mod.collTimeout, hp, hc, hgone]
  exact if_pos (by simp [hrun, hs, hne, hlt, hlate])

/-- A collective whose gate has passed is started, whatever it does first. -/
theorem Mod.collStart_starts (hst : (m.coll i).started = false) (hgate : m.flagMet c.startFlag c.startValue = true) :
    m.SameWork (m.collStart i) ∧ (m.collStart i).plan = m.plan ∧ ((m.collStart i).coll i).started = true := by
  have hmark : ((m.markStarted i c).coll i).started = true := by
    rw [Mod.markStarted, Mod.coll_setColl (CollRun.ne_idle_of_started rfl)]
  obtain ⟨hwork, hplan, hstarted⟩ := (m.markStarted i c).collBegin_collects p i c
  rw [Mod.collStart_begins hrun hp hc hst hgate]
  exact ⟨(m.setColl_counts i _).work.trans hwork, hplan, hstarted hmark⟩

/-- At its completion a collective writes what its local operation computes, and nothing else; it is done. -/
theorem Mod.collComplete_completes (hst : (m.coll i).started = true) (hdone : (m.coll i).done = false)
    (hready : m.collReady p i c = true) :
    m.SameWork (m.collComplete i) ∧ (m.collComplete i).plan = m.plan ∧ ((m.collComplete i).coll i).done = true
      ∧ (m.localOp c).SameStores (m.collComplete i) := by
  have hlocal : Mod.Collects i m (m.localOp c) := (m.localOp_writes c).collects
  rw [Mod.collComplete_ends hrun hp hc hst hdone hready]
  generalize m.localOp c = n at hlocal
  have hset := n.setColl_counts i (fun x => { x with done := true })
  have hcoll := Mod.coll_setColl (m := n) (i := i) (f := fun x => { x with done := true }) (CollRun.ne_idle_of_done rfl)
  have hsig := (Mod.incFlag_signals (n.setColl i (fun x => { x with done := true })) c.doneFlag 1).trans
    (Mod.sendSignals_signals _ 3 i)
  have hcounts := hset.trans hsig.counts
  refine ⟨hlocal.work.trans hcounts.work, hcounts.stores.plan.trans hlocal.plan, ?_, hcounts.stores⟩
  rw [hsig.coll, hcoll]

end

/-- What is left to show of an event that is work on a collective. -/
theorem State.Quiet.collWork {e : Instr} {s : State} {f : Mod → Mod} {P : State → Prop} (hq : s.Quiet)
    (hx : exec e s = .next (s.event f)) (hw : s.m.fresh.SameWork (f s.m.fresh)) (hp : (f s.m.fresh).plan = s.m.plan)
    (hP : Observed s (s.event f) 0 [] [] ∧ (s.event f).m.plan = s.m.plan ∧ (s.event f).m.run.ents = s.m.run.ents →
      P (s.event f)) : Completes e s P :=
  ⟨_, hx, hP ⟨hq.observed hw.out, (State.event_plan s f).trans hp, by rw [State.event_run]; exact hw.ents⟩⟩

/-- Settles O48: a start by `Mod.collStart_starts`, a completion by `Mod.collComplete_completes`, a chunk past its timeout by
the record that `Mod.collTimeout_records` names. -/
theorem collectivesRun : Obligations.CollectivesRun := by
  intro s hq hrun m i p c hp hc
  replace hrun : m.running = true := hrun
  refine ⟨fun hst hgate => ⟨?_, fun hop => ?_⟩, fun hst hdone hready => ?_, fun stage chunk => ?_⟩
  · obtain ⟨hwork, hplan, hstarted⟩ := Mod.collStart_starts hrun hp hc hst hgate
    refine hq.collWork rfl hwork hplan (fun ⟨ho, hpl, he⟩ => ⟨ho, hpl, he, ?_⟩)
    rw [Mod.coll, State.event_run]
    exact hstarted
  · exact hq.happens rfl ((Mod.collStart_begins hrun hp hc hst hgate).trans (Mod.collBegin_local hop _ p i)) rfl
  · obtain ⟨hwork, hplan, hend, hstores⟩ := Mod.collComplete_completes hrun hp hc hst hdone hready
    refine hq.collWork rfl hwork hplan (fun ⟨ho, hpl, he⟩ => ⟨ho, hpl, he, ?_⟩)
    rw [Mod.coll, State.event_run, State.event_hbm]
    exact ⟨hend, hstores.hbm, hstores.staged⟩
  · intro gone hs hne hlt hlate
    have htime := Mod.collTimeout_records hrun hp hc hs rfl hne hlt hlate
    have hout := (congrArg Mod.out htime).trans (Mod.report_out_quiet hq)
    refine ⟨_, rfl, State.event_observed (ks := []) hout, ?_⟩
    rw [State.event_plan, State.event_hbm, State.event_run, htime]
    exact ⟨Mod.report_plan _ _, Mod.report_hbm _ _, Mod.report_run _ _⟩

end Sys2Proof.Machine

/-! PROOFS. What the result of a test changes (spec 13, R421 to R424). -/
namespace Sys2Proof.Machine

/-! ### Records of targets and units -/

theorem Mod.testRow_setRow {m : Mod} {t : TestTarget} {f : TestRow → TestRow} (h : f (m.testRow t) ≠ TestRow.never) :
    (m.setRow t f).testRow t = f (m.testRow t) :=
  SMap.get_put_same h m.tests.rows (rowKey t)

@[simp] theorem Mod.setRow_out (m : Mod) (t : TestTarget) (f : TestRow → TestRow) : (m.setRow t f).out = m.out := rfl
@[simp] theorem Mod.setRow_run (m : Mod) (t : TestTarget) (f : TestRow → TestRow) : (m.setRow t f).run = m.run := rfl
@[simp] theorem Mod.setRow_units (m : Mod) (t : TestTarget) (f : TestRow → TestRow) : (m.setRow t f).units = m.units := rfl
@[simp] theorem Mod.setRow_running (m : Mod) (t : TestTarget) (f : TestRow → TestRow) :
    (m.setRow t f).tests.running = m.tests.running := rfl

theorem TestRow.ne_never_of_result {r : TestRow} (h : r.result ≠ 0) : r ≠ TestRow.never := mt (congrArg TestRow.result) h

theorem Mod.testRow_rowDone (m : Mod) (t : TestTarget) {n : Nat} (hn : n ≠ 0) :
    (m.rowDone t n).testRow t = ⟨n, m.powerOnS, false, false⟩ :=
  Mod.testRow_setRow (TestRow.ne_never_of_result hn)

theorem Mod.unit_setUnit {m : Mod} {u : Nat} {f : UnitRec → UnitRec} (h : f (m.unit u) ≠ UnitRec.healthy) :
    (m.setUnit u f).unit u = f (m.unit u) :=
  SMap.get_put_same h m.units.recs u

theorem UnitRec.ne_healthy_of_pending {r : UnitRec} (h : r.pending = true) : r ≠ UnitRec.healthy := by rintro rfl; cases h
theorem UnitRec.ne_healthy_of_disabled {r : UnitRec} (h : r.disabled = true) : r ≠ UnitRec.healthy := by rintro rfl; cases h
theorem UnitRec.ne_healthy_of_draining {r : UnitRec} {t : Ticket} (h : r.draining = some t) : r ≠ UnitRec.healthy := by
  rintro rfl; cases h

@[simp] theorem State.event_testRow (s : State) (f : Mod → Mod) (t : TestTarget) :
    (s.event f).m.testRow t = (f s.m.fresh).testRow t := by simp [Mod.testRow]
@[simp] theorem State.event_unit (s : State) (f : Mod → Mod) (u : Nat) :
    (s.event f).m.unit u = (f s.m.fresh).unit u := by simp [Mod.unit]
@[simp] theorem Mod.report_testRow (m : Mod) (x : Report) (t : TestTarget) : (m.report x).testRow t = m.testRow t := by
  simp [Mod.testRow]
@[simp] theorem Mod.report_unit (m : Mod) (x : Report) (u : Nat) : (m.report x).unit u = m.unit u := by simp [Mod.unit]

/-! ### Events -/

/-- What is left to show of an event: P of the state that it leaves, where its effect on the module is known. -/
theorem completes_of_event {i : Instr} {s : State} {f : Mod → Mod} {n : Mod} {P : State → Prop}
    (hx : exec i s = .next (s.event f)) (hf : f s.m.fresh = n) (hP : ∀ g : Mod → Mod, g s.m.fresh = n → P (s.event g)) :
    Completes i s P := ⟨_, hx, hP f hf⟩

/-! ### A failed test (spec 13, R421) -/

theorem Mod.testRecord_eq (m : Mod) (t : TestTarget) (result column detail : Nat) (attn : Byte) :
    ∃ x, x.attn = attn ∧ m.testRecord t result column detail attn = m.report x := ⟨_, rfl, rfl⟩

/-- A retired unit is fenced, and it may be counted. -/
theorem Mod.retireTested_eq (m : Mod) (u : Nat) : ∃ c, m.retireTested u = { m.fenceTested u with cnt := c } := by
  unfold Mod.retireTested
  dsimp only
  split
  · exact ⟨m.cnt, rfl⟩
  · exact ⟨_, rfl⟩

theorem Mod.steerOrFence_eq (m : Mod) (u column : Nat) :
    ∃ us c, m.steerOrFence u column = { m with units := us, cnt := c } := by
  unfold Mod.steerOrFence
  dsimp only
  split
  · exact ⟨_, m.cnt, rfl⟩
  · obtain ⟨c, hc⟩ := m.retireTested_eq u
    exact ⟨_, c, hc⟩

theorem Mod.fenceTested_pending (m : Mod) (u : Nat) : ((m.fenceTested u).unit u).pending = true := by
  rw [Mod.fenceTested, Mod.unit_setUnit (UnitRec.ne_healthy_of_pending rfl)]

/-- A failed test changes units, fenced contexts and counters by the kind of its target, and its record sets
ATTN_INTEGRITY. -/
theorem Mod.testFailed_eq (m : Mod) (t : TestTarget) (column : Nat) (ctx : Option Nat) :
    ∃ us fs c x, x.attn = Attn.integrity
      ∧ m.testFailed t column ctx = Mod.report { m with units := us, fenced := fs, cnt := c } x
      ∧ (t.kind = .sparse → us = (m.fenceTested t.address).units) := by
  unfold Mod.testFailed
  extract_lets n
  obtain ⟨us, fs, c, hn, hus⟩ : ∃ us fs c, n = { m with units := us, fenced := fs, cnt := c }
      ∧ (t.kind = .sparse → us = (m.fenceTested t.address).units) := by
    cases hk : t.kind
    case tile =>
      obtain ⟨us, c, h⟩ := m.steerOrFence_eq t.address column
      exact ⟨us, m.fenced, c, by simp only [n, hk, h], nofun⟩
    case sparse =>
      obtain ⟨c, h⟩ := m.retireTested_eq t.address
      exact ⟨_, m.fenced, c, by simp only [n, hk, h]; rfl, fun _ => rfl⟩
    case stream =>
      cases ctx with
      | none => exact ⟨m.units, m.fenced, m.cnt, by simp only [n, hk], nofun⟩
      | some h => exact ⟨m.units, _, m.cnt, by simp only [n, hk]; rfl, nofun⟩
    all_goals exact ⟨m.units, m.fenced, m.cnt, by simp only [n, hk], nofun⟩
  obtain ⟨x, hx, hrec⟩ := Mod.testRecord_eq (n.count Cnt.testFail 1) t TestRes.fail column Detail.testFail Attn.integrity
  exact ⟨us, fs, _, x, hx, by rw [hrec, hn]; rfl, hus⟩

end Sys2Proof.Machine

/-! PROOFS. Tests run in windows; due and overdue targets are reported (O50). -/
namespace Sys2Proof.Machine

/-! ### Tests in windows (spec 13, R419, R421) -/

/-- A free slot of a window's core tests the earliest due target that fits. -/
theorem Mod.testStart_runs {m : Mod} {window core remainNs kinds cores : Nat} {target : TestTarget}
    (hw : m.testWindow window = some (kinds, cores)) (hp : m.run.phase = .run) (hc : core < 8) (hb : bit cores core = true)
    (hwd : m.withdrawnCores = []) (hr : m.tests.running.any (fun t => t.core == core) = false)
    (ht : m.earliest (m.candidates core kinds) = some target) (hfit : TestKind.ns target.kind ≤ remainNs) :
    m.testStart window core remainNs = { m with tests := { m.tests with running := m.tests.running
      ++ [⟨core, target, if target.kind = .stream then (m.cmdCtxs core).head? else none, false⟩] } } := by
  have hopen : m.run.phase = .run ∧ core < 8 ∧ bit cores core ∧ m.withdrawnCores = []
      ∧ !(m.tests.running.any (fun t => t.core == core)) := ⟨hp, hc, hb, hwd, by rw [hr]; rfl⟩
  simp only [Mod.testStart, hw, if_pos hopen, ht, if_pos hfit]

/-- The test of a core is over: its slot is free. -/
def Mod.freeSlot (m : Mod) (core : Nat) : Mod :=
  { m with tests := { m.tests with running := m.tests.running.filter (fun t => t.core != core) } }

@[simp] theorem Mod.freeSlot_ctl (m : Mod) (core : Nat) : (m.freeSlot core).ctl = m.ctl := rfl
@[simp] theorem Mod.freeSlot_out (m : Mod) (core : Nat) : (m.freeSlot core).out = m.out := rfl
@[simp] theorem Mod.freeSlot_run (m : Mod) (core : Nat) : (m.freeSlot core).run = m.run := rfl
@[simp] theorem Mod.freeSlot_units (m : Mod) (core : Nat) : (m.freeSlot core).units = m.units := rfl
@[simp] theorem Mod.freeSlot_running (m : Mod) (core : Nat) :
    (m.freeSlot core).tests.running = m.tests.running.filter (fun t => t.core != core) := rfl

section
variable {m : Mod} {core : Nat} {x : RunTest} {r : TestOut} (hx : m.tests.running.find? (fun t => t.core == core) = some x)
include hx

theorem Mod.testComplete_aborted (ha : x.aborted = true) :
    m.testComplete core r = (m.freeSlot core).setRow x.target (fun y => { y with result := TestRes.aborted }) := by
  simp only [Mod.testComplete, hx, if_pos ha]
  rfl

theorem Mod.testComplete_pass (ha : x.aborted = false) (hp : r.pass = true) :
    m.testComplete core r = ((m.freeSlot core).count Cnt.testRun 1).rowDone x.target TestRes.pass := by
  simp only [Mod.testComplete, hx, ha, Bool.false_eq_true, if_false, if_pos hp]
  rfl

theorem Mod.testComplete_fail (ha : x.aborted = false) (hp : r.pass = false) :
    m.testComplete core r = (((m.freeSlot core).count Cnt.testRun 1).rowDone x.target TestRes.fail).testFailed
      x.target r.column x.ctx := by
  simp only [Mod.testComplete, hx, ha, hp, Bool.false_eq_true, if_false]
  rfl

end

/-! ### Due and overdue targets (spec 13, R422) -/

/-- An event that sets attention bits and hands nothing else over. -/
theorem State.Quiet.happens_attention {i : Instr} {s : State} {f : Mod → Mod} {m : Mod} {a : Byte} (hq : s.Quiet)
    (hx : exec i s = .next (s.event f)) (hf : f s.m.fresh = m.attention a) (ho : m.out = s.m.out) : Happens i s a [] m := by
  have hm : m.out = Outbox.empty := ho.trans hq
  have hout : (f s.m.fresh).out = { Outbox.empty with attn := a, completions := [] } := by
    rw [hf, Mod.attention, hm]; simp [Outbox.empty]
  refine ⟨_, hx, State.event_observed hout, ?_⟩
  rw [State.event_m hout, hf, ← hm]
  rfl

/-- Settles O50: a window's test by `Mod.testStart_runs`, a completed one by the equation of its outcome, with the record
of `Mod.testFailed_eq` for a failure. -/
theorem testsRunInWindows : Obligations.TestsRunInWindows := by
  intro s hq m
  refine ⟨fun window core remainNs kinds cores target hw hp hc hb hwd hr ht hfit => ?_,
    fun core result x hx => ⟨fun ha hp => ?_, fun ha hp => ?_, fun ha => ?_⟩, fun target hdue hseen => ?_,
    fun target hover hseen => ?_⟩
  · exact hq.happens rfl (Mod.testStart_runs hw hp hc hb hwd hr ht hfit) rfl
  · refine completes_of_event rfl (Mod.testComplete_pass (m := s.m.fresh) hx ha hp)
      (fun f hf => ⟨hq.observed ?_, ?_, ?_, ?_, ?_⟩)
    · simp [hf, Mod.rowDone]
    · simp [hf, Mod.rowDone]
    · rw [State.event_testRow, hf, Mod.testRow_rowDone _ _ (by decide)]
      simp [Mod.powerOnS]
    · simp [hf, Mod.rowDone]
    · simp [hf, Mod.rowDone]
  · obtain ⟨us, fs, c, y, hy, hfail, hus⟩ := Mod.testFailed_eq
      (((m.freeSlot core).count Cnt.testRun 1).rowDone x.target TestRes.fail) x.target result.column x.ctx
    refine completes_of_event rfl ((Mod.testComplete_fail (m := s.m.fresh) hx ha hp).trans hfail) (fun f hf => ?_)
    obtain ⟨hobs, -, hrun, -⟩ := hq.event_report hf (by simp [Mod.rowDone, m])
    refine ⟨hy ▸ hobs, ?_, ?_, ?_, fun hk => ?_⟩
    · simp [hf, Mod.rowDone, m]
    · rw [State.event_testRow, hf, Mod.report_testRow]
      exact (Mod.testRow_rowDone ((m.freeSlot core).count Cnt.testRun 1) x.target (by decide)).trans
        (by simp [Mod.powerOnS, m])
    · simp [hf, Mod.rowDone, m]
    · rw [State.event_unit, hf, Mod.report_unit, hus hk]
      exact Mod.fenceTested_pending _ x.target.address
  · refine completes_of_event rfl (Mod.testComplete_aborted (m := s.m.fresh) hx ha)
      (fun f hf => ⟨hq.observed ?_, ?_, ?_, ?_, ?_⟩)
    · simp [hf]
    · simp [hf]
    · rw [State.event_testRow, hf, Mod.testRow_setRow (TestRow.ne_never_of_result (by simp))]
    · simp [hf]
    · simp [hf]
  · exact hq.happens_attention rfl (if_pos ⟨hdue, by rw [hseen]; rfl⟩) rfl
  · refine completes_of_event rfl (if_pos ⟨hover, by rw [hseen]; rfl⟩) (fun f hf => ?_)
    obtain ⟨hobs, -, hrun, -⟩ := hq.event_report hf rfl
    exact ⟨hobs, by rw [State.event_tests, hf]; exact Mod.report_tests _ _, hrun⟩

end Sys2Proof.Machine

/-! PROOFS. Forced windows, margin tests, pattern packages, the digest interval (O35). -/
namespace Sys2Proof.Machine

/-! ### Posted results (spec 13, R423, R424) -/

/-- From m to n results of tests are posted: state, power and the tests that are pending stay, and the host is handed
attention bits alone. -/
structure Mod.Posts (m n : Mod) : Prop where
  ctl : n.ctl = m.ctl
  pwr : n.pwr = m.pwr
  forced : n.tests.forced = m.tests.forced
  margin : n.tests.margin = m.tests.margin
  out : ∃ a, n.out = { m.out with attn := a }

theorem Mod.Posts.refl (m : Mod) : m.Posts m := ⟨rfl, rfl, rfl, rfl, _, rfl⟩

theorem Mod.Posts.trans {m n k : Mod} (h : m.Posts n) (h' : n.Posts k) : m.Posts k := by
  obtain ⟨a, ha⟩ := h.out
  obtain ⟨b, hb⟩ := h'.out
  exact ⟨h'.ctl.trans h.ctl, h'.pwr.trans h.pwr, h'.forced.trans h.forced, h'.margin.trans h.margin, b, by rw [hb, ha]⟩

theorem Mod.Posts.foldl {α : Type} {f : Mod → α → Mod} (hf : ∀ m a, Mod.Posts m (f m a)) (l : List α) (m : Mod) :
    m.Posts (l.foldl f m) :=
  List.foldlRecOn l f (Mod.Posts.refl m) (fun n hn a _ => hn.trans (hf n a))

theorem Mod.count_posts (m : Mod) (id n : Nat) : m.Posts (m.count id n) := ⟨rfl, rfl, rfl, rfl, _, rfl⟩
theorem Mod.setRow_posts (m : Mod) (t : TestTarget) (f : TestRow → TestRow) : m.Posts (m.setRow t f) :=
  ⟨rfl, rfl, rfl, rfl, _, rfl⟩
theorem Mod.rowDone_posts (m : Mod) (t : TestTarget) (n : Nat) : m.Posts (m.rowDone t n) := m.setRow_posts t _
theorem Mod.report_posts (m : Mod) (x : Report) : m.Posts (m.report x) :=
  ⟨m.report_ctl x, m.report_pwr x, by rw [m.report_tests], by rw [m.report_tests], _, m.report_out x⟩
theorem Mod.testRecord_posts (m : Mod) (t : TestTarget) (result column detail : Nat) (attn : Byte) :
    m.Posts (m.testRecord t result column detail attn) := m.report_posts _

theorem Mod.testFailed_posts (m : Mod) (t : TestTarget) (column : Nat) (ctx : Option Nat) :
    m.Posts (m.testFailed t column ctx) := by
  obtain ⟨us, fs, c, x, -, h, -⟩ := m.testFailed_eq t column ctx
  rw [h]
  have hn : m.Posts { m with units := us, fenced := fs, cnt := c } := ⟨rfl, rfl, rfl, rfl, m.out.attn, rfl⟩
  exact hn.trans (Mod.report_posts _ x)

theorem Mod.forcedResult_posts (m : Mod) (r : TestOut) : m.Posts (m.forcedResult r) := by
  unfold Mod.forcedResult
  refine (m.count_posts Cnt.testRun 1).trans ?_
  dsimp only
  split
  · exact Mod.rowDone_posts _ _ _
  · exact (Mod.rowDone_posts _ _ _).trans (Mod.testFailed_posts _ _ _ _)

theorem Mod.marginResult_posts (m : Mod) (r : MarginOut) : m.Posts (m.marginResult r) := by
  unfold Mod.marginResult
  extract_lets res n
  have hn : m.Posts n := m.rowDone_posts _ _
  split
  · exact m.setRow_posts _ _
  · refine hn.trans ?_
    split
    · exact Mod.testRecord_posts _ _ _ _ _ _
    · split
      · exact Mod.testFailed_posts _ _ _ _
      · exact .refl n

/-! ### Forced windows and margin tests (spec 13, R423, R424) -/

theorem State.found_noForce (s : State) (h : Cmd) (core : Nat) : (s.found h).noForce core = s.m.noForce core := by
  obtain ⟨_, _, hf⟩ := s.found_eq h; rw [hf]; rfl
theorem State.found_noRelief (s : State) (h : Cmd) (core : Nat) : (s.found h).noRelief core = s.m.noRelief core := by
  obtain ⟨_, _, hf⟩ := s.found_eq h; rw [hf]; rfl

/-- A margin test that begins puts its core into kindling mode (spec 13, R424). -/
theorem Mod.beginMargin_begins {m : Mod} {t : CoreTest} (hm : m.tests.margin = some t) (hb : t.begun = false)
    (ha : t.aborted = false) :
    m.beginMargin.tests.margin = some { t with begun := true } ∧ (m.beginMargin.core t.core).kindling = true
      ∧ m.beginMargin.out = m.out := by
  have hgo : m.beginMargin = Mod.setCore { m with tests := { m.tests with margin := some { t with begun := true } } } t.core
      (fun r => { r with kindling := true }) := by
    simp [Mod.beginMargin, hm, hb, ha]
  rw [hgo]
  refine ⟨rfl, ?_, rfl⟩
  rw [Mod.core, Mod.setCore_cores]
  exact congrArg CoreRec.kindling (SMap.get_put_same (by simp [CoreRec.off]) _ _)

/-- A margin test is accepted, and waits to begin. -/
def Mod.holdMargin (m : Mod) (core : Nat) (t : Ticket) : Mod :=
  { m with tests := { m.tests with margin := some ⟨core, t, false, false⟩ } }

/-- It begins at once unless a plan is RUNNING (spec 13, R424). -/
theorem Mod.holdMargin_starts (m : Mod) (core : Nat) (t : Ticket) :
    let n := if m.plan.st = .running then m.holdMargin core t else (m.holdMargin core t).beginMargin
    n.tests.margin = some ⟨core, t, m.plan.st != .running, false⟩ ∧ (m.plan.st ≠ .running → (n.core core).kindling = true)
      ∧ n.out = m.out := by
  intro n
  unfold n
  split
  next hst => exact ⟨by simp [Mod.holdMargin, hst], fun hno => absurd hst hno, rfl⟩
  next hst =>
    obtain ⟨hmargin, hkindling, hout⟩ := Mod.beginMargin_begins (m := m.holdMargin core t) rfl rfl rfl
    exact ⟨hmargin.trans (by simp [hst]), fun _ => hkindling, hout⟩

/-- The end of a margin test takes its core out of kindling mode, posts results, and completes the command. -/
theorem Mod.marginDone_ends (m : Mod) (t : CoreTest) (rs : List MarginOut) :
    ∃ n cls d, m.marginDone t rs = n.complete t.ticket Op.marginTestRun cls d []
      ∧ (Mod.setCore { m with tests := { m.tests with margin := none } } t.core (fun c => { c with kindling := false })).Posts n := by
  unfold Mod.marginDone
  extract_lets freed core posted res target all
  have hresults : core.Posts posted := Mod.Posts.foldl Mod.marginResult_posts rs core
  have hall : core.Posts all := by
    refine hresults.trans ?_
    unfold all
    split
    · exact Mod.setRow_posts _ _ _
    · exact (Mod.rowDone_posts _ _ _).trans (Mod.count_posts _ _ _)
  split
  · exact ⟨all, _, _, rfl, hall⟩
  · split <;> exact ⟨all, _, _, rfl, hall⟩

/-- What the host sees of an event that posts results, while nothing else waits, and then completes a command. -/
theorem Mod.Posts.observed {s : State} {f : Mod → Mod} {m n : Mod} {t : Ticket} {op cls d : Nat} (h : m.Posts n)
    (hm : m.out = Outbox.empty) (hf : f s.m.fresh = n.complete t op cls d []) :
    ∃ a, Observed s (s.event f) a [] [⟨t.port, t.tag, op, cls, d, []⟩] := by
  obtain ⟨a, ha⟩ := h.out
  rw [hm] at ha
  exact ⟨a, State.event_hands_over (by rw [hf, Mod.complete, ha]; rfl)⟩

/-- A forced window ends: its results are posted, and it is counted (spec 13, R423). -/
def Mod.endForced (m : Mod) (rs : List TestOut) : Mod :=
  (rs.foldl Mod.forcedResult { m with tests := { m.tests with forced := none } }).count Cnt.testForced 1

theorem Mod.endForced_posts (m : Mod) (rs : List TestOut) :
    Mod.Posts { m with tests := { m.tests with forced := none } } (m.endForced rs) :=
  (Mod.Posts.foldl Mod.forcedResult_posts rs _).trans (Mod.count_posts _ Cnt.testForced 1)

/-- Settles O35: a command by its equation, a test's end by the results it posts (`Mod.Posts`). -/
theorem fieldTestCommands : Obligations.FieldTestCommands := by
  refine ⟨fun s h hs hown => ⟨fun core ha hb hc hnf => ?_, fun core ha hb hc hnf hnr => ?_, fun bs ha hbuf hi => ?_,
    fun interval ha hb hle => ?_⟩, fun s hq => ⟨fun core c results hf hcore hbegun => ?_,
    fun core c results hm hcore hbegun => ?_, fun w bs hi => ?_⟩⟩
  · rw [← s.found_noForce h] at hnf
    rw [← s.found_tests h, ← s.found_plan h]
    exact (hs.replies (i := .testWindowForce h core) rfl ha (fun _ => hown) rfl rfl
      (plainParams_none hb (by simpa using hc) (s.found h)) (if_neg (by simp [hnf])) (.inr rfl) (s.found_out h) :)
  · rw [← s.found_noForce h] at hnf
    rw [← s.found_noRelief h] at hnr
    rw [← s.found_plan h]
    obtain ⟨hmargin, hkindling, hout⟩ := (s.found h).holdMargin_starts core.toNat ⟨h.port, h.tag⟩
    refine hs.completes (i := .marginTestRun h core) (b := 0) (ks := []) rfl ha (fun _ => hown) rfl rfl
      (plainParams_none hb (by simpa using hc) (s.found h)) (if_neg (by simp [hnf, hnr])) (.inr rfl)
      (hout.trans ((s.found_out h).trans hs.quiet)) (by simp) (fun t hans hm => ?_)
    rw [hm]
    exact ⟨hans, hmargin, hkindling⟩
  · rw [← s.found_tests h] at hi ⊢
    exact (hs.replies (i := .patternInstall h (.data bs)) rfl ha (fun _ => hown) rfl rfl (by simp [hbuf])
      (if_neg (by rw [hi]; decide)) (.inr rfl) (s.found_out h) :)
  · rw [← s.found_tests h]
    exact (hs.replies (i := .digestPolicySet h interval) rfl ha (fun _ => hown) rfl rfl
      (plainParams_none hb (by simpa using hle) (s.found h)) rfl (.inl rfl) (s.found_out h) :)
  · have hposts := s.m.fresh.endForced_posts results
    refine completes_of_event (n := (s.m.fresh.endForced results).complete c.ticket Op.testWindowForce
      (if results.all (fun r => r.pass) then Cls.ok else Cls.faulted)
      (if results.all (fun r => r.pass) then Detail.none else Detail.testFail) []) rfl ?_ (fun f hf => ⟨?_, ?_, ?_⟩)
    · rw [s.m.fresh_tests, hf]
      exact if_pos ⟨hcore, hbegun⟩
    · rw [State.event_tests, hf]; exact hposts.forced
    · rw [State.event_ctl, hf]; exact hposts.ctl
    · exact hposts.observed hq hf
  · obtain ⟨n, cls, d, hdone, hposts⟩ := s.m.fresh.marginDone_ends c results
    refine completes_of_event (n := n.complete c.ticket Op.marginTestRun cls d []) rfl ?_ (fun f hf => ⟨?_, ?_, ?_⟩)
    · rw [← hdone, s.m.fresh_tests, hm]
      exact if_pos ⟨hcore, .inl hbegun⟩
    · rw [State.event_tests, hf]; exact hposts.margin
    · rw [State.event_ctl, hf]; exact hposts.ctl
    · rw [State.event_pwr, hf, Mod.complete_pwr, hposts.pwr, ← hcore]; rfl
  · intro r
    refine completes_of_event (n := Mod.complete { s.m.fresh with tests := { r.2.2 with install := none } } w
      Op.patternInstall r.1 r.2.1 []) rfl ?_ (fun f hf => ⟨?_, ?_⟩)
    · rw [s.m.fresh_tests, hi]; rfl
    · exact State.event_hands_over (hf ▸ Mod.complete_out_quiet hq _ _ _ _ _)
    · rw [State.event_tests, hf]; rfl

end Sys2Proof.Machine

/-! PROOFS. Units, the fabric's configuration and channels by command (O36). -/
namespace Sys2Proof.Machine

/-! ### Units (spec 13, R415 to R417) -/

/-- What waits for the host is no part of a unit's record. -/
theorem Mod.unit_handOver (m : Mod) (o : Outbox) (u : Nat) : ({ m with out := o } : Mod).unit u = m.unit u := rfl

theorem State.found_unit (s : State) (h : Cmd) (u : Nat) : (s.found h).unit u = s.m.unit u := by simp [Mod.unit]
theorem Mod.fresh_unit (m : Mod) (u : Nat) : m.fresh.unit u = m.unit u := rfl
theorem Mod.fresh_unitOpen (m : Mod) (u : Nat) : m.fresh.unitOpen u = m.unitOpen u := rfl
theorem State.found_otherWithdrawn (s : State) (h : Cmd) (core : Nat) :
    (s.found h).otherWithdrawn core = s.m.otherWithdrawn core := by
  obtain ⟨_, _, hf⟩ := s.found_eq h; rw [hf]; rfl

theorem Mod.abortMargin_eq (m : Mod) (core : Nat) : ∃ t p, m.abortMargin core = { m with tests := t, pwr := p } := by
  unfold Mod.abortMargin
  split
  · split
    · exact ⟨_, _, rfl⟩
    · exact ⟨m.tests, m.pwr, rfl⟩
  · exact ⟨m.tests, m.pwr, rfl⟩

/-- From m to n a unit becomes DISABLED and drains no more, with a record that sets ATTN_FAULT. -/
structure Mod.Disables (u : Nat) (m n : Mod) : Prop where
  disabled : (n.unit u).disabled = true
  draining : (n.unit u).draining = none
  out : n.out = { m.out with attn := m.out.attn ||| Attn.fault }

theorem Mod.disableNow_disables (m : Mod) (u returned : Nat) : Mod.Disables u m (m.disableNow u returned) := by
  unfold Mod.disableNow
  extract_lets n k
  have hunit : n.unit u = { m.unit u with disabled := true, draining := none } :=
    Mod.unit_setUnit (UnitRec.ne_healthy_of_disabled rfl)
  obtain ⟨t, p, hk⟩ : ∃ t p, k = { n with tests := t, pwr := p } := by
    unfold k
    split
    · exact n.abortMargin_eq (unitCore u)
    · exact ⟨n.tests, n.pwr, rfl⟩
  have hkeep : k.unit u = n.unit u := by rw [hk]; rfl
  refine ⟨?_, ?_, ?_⟩
  · rw [Mod.report_unit, hkeep, hunit]
  · rw [Mod.report_unit, hkeep, hunit]
  · rw [Mod.report_out, hk]; rfl

/-- Tests on the unit end and its work returns before it is disabled. -/
theorem Mod.abandon_disables (m : Mod) (u : Nat) : Mod.Disables u m ((m.abortTests u).abandon u) := by
  have hback : ((m.abortTests u).returnWork u Douse.abandon).out = m.out := Mod.returnWork_out _ _ _
  obtain ⟨hdis, hdrain, hout⟩ := Mod.disableNow_disables ((m.abortTests u).returnWork u Douse.abandon) u
    ((m.abortTests u).entsOn u).length
  rw [hback] at hout
  unfold Mod.abandon
  exact ⟨hdis, hdrain, hout⟩

/-! ### The fabric's configuration (spec 10, R328, R348) -/

theorem Mod.configureTime_eq (m : Mod) (epoch : Nat) :
    ∃ st t, m.configureTime epoch = { m with fab := { m.fab with timeState := st, time := t } }
      ∧ (m.fab.isRoot = true → st = .locked ∧ t = epoch) := by
  unfold Mod.configureTime
  split
  · exact ⟨_, _, rfl, fun _ => ⟨rfl, rfl⟩⟩
  next hroot =>
    have hno : ∀ st t, m.fab.isRoot = true → st = TimeSt.locked ∧ t = epoch := fun _ _ h => absurd h hroot
    split
    · exact ⟨_, m.fab.time, rfl, hno _ _⟩
    · split
      · exact ⟨m.fab.timeState, m.fab.time, rfl, hno _ _⟩
      · exact ⟨_, m.fab.time, rfl, hno _ _⟩

/-- The module's own member word. -/
theorem position_toNat : (BitVec.ofNat 16 Config.position).toNat = Config.position := by
  have h : Config.position < 2 ^ 11 := Config.straps.isLt
  exact Nat.mod_eq_of_lt (by omega)

/-! ### Channels (spec 10, R341, R342) -/

theorem State.found_chan (s : State) (h : Cmd) (k : Nat) : (s.found h).chan k = s.m.chan k := by
  obtain ⟨_, _, hf⟩ := s.found_eq h; rw [hf]; rfl

theorem Mod.looseNow_out (m : Mod) : m.looseNow.2.out = m.out := by
  unfold Mod.looseNow
  split <;> rfl

/-- A channel that may be lost hands over attention bits alone. -/
theorem Mod.channelLost_out (m : Mod) (k : Nat) (loose : Bool) :
    ∃ a, (m.channelLost k loose).out = { m.out with attn := a } := by
  by_cases hst : k < 28 ∧ ((m.chan k).st = .up ∨ (m.chan k).st = .shadow)
  · exact ⟨_, (Mod.channelLost_loses hst.1 hst.2 loose).out⟩
  · exact ⟨m.out.attn, congrArg Mod.out (if_neg hst)⟩

theorem Mod.setChan_out (m : Mod) (k : Nat) (f : Chan → Chan) : (m.setChan k f).out = m.out := rfl

/-- CHANNEL_DISABLE leaves the channel DISABLED, and hands over attention bits alone. -/
theorem Mod.disableChannel_disables (m : Mod) (k : Nat) :
    ((m.disableChannel k).chan k).st = .disabled ∧ ((m.disableChannel k).chan k).restore = false
      ∧ ∃ a, (m.disableChannel k).out = { m.out with attn := a } := by
  obtain ⟨a, ha⟩ := m.looseNow.2.channelLost_out k m.looseNow.1
  have hset : m.disableChannel k = (m.looseNow.2.channelLost k m.looseNow.1).setChan k
      (fun c => { c with st := .disabled, restore := false, trained := false }) := rfl
  rw [hset, Mod.chan_setChan (mt (congrArg Chan.st) (by simp [Chan.off]))]
  exact ⟨rfl, rfl, a, by rw [Mod.setChan_out, ha, Mod.looseNow_out]⟩

/-! ### The commands -/

section
variable {s : State} {h : Cmd} (hs : s.Starts h) (hown : s.m.ctl.owner = some h.port) (hb : noBuffer h = true)
include hs hown hb

/-- A healthy unit is DISABLED at once, or waits for its work to drain (spec 13, R416). -/
theorem State.Starts.unitDisable {unit : Half} {mode : Byte} (ha : s.accepts Op.unitDisable)
    (hres : unitReserved unit.toNat = false) (hill : unitIllegal unit.toNat = false) (hmode : mode.toNat ≤ 1)
    (hdrain : (s.m.unit unit.toNat).draining = none) (hclinker : (s.m.unit unit.toNat).isClinker = false)
    (hdis : (s.m.unit unit.toNat).disabled = false)
    (hother : unitKind unit.toNat = 3 → s.m.otherWithdrawn (unitCore unit.toNat) = false) :
    Completes (.unitDisable h unit mode) s (fun t =>
      if mode = 1 ∨ s.m.plan.st ≠ .running then
        (t.m.unit unit.toNat).disabled = true
        ∧ Answered s t h Attn.fault [] Op.unitDisable Cls.accepted Detail.none []
            [⟨h.port, h.tag, Op.unitDisable, Cls.ok, Detail.none, []⟩]
      else (t.m.unit unit.toNat).draining = some ⟨h.port, h.tag⟩
        ∧ Answered s t h 0 [] Op.unitDisable Cls.accepted Detail.none []) := by
  rw [← s.found_unit h] at hdrain hclinker hdis
  rw [← s.found_otherWithdrawn h] at hother
  rw [← s.found_plan h]
  have hq : (s.found h).out = Outbox.empty := (s.found_out h).trans hs.quiet
  have hpar := plainParams_none hb (bad := unitIllegal unit.toNat || decide (1 < mode.toNat))
    (by simp [hill, hmode]) (s.found h)
  have hfree : ¬ ((s.found h).unit unit.toNat).draining.isSome = true := by simp [hdrain]
  have hgood : ¬ (((s.found h).unit unit.toNat).isClinker = true ∨ ((s.found h).unit unit.toNat).disabled = true
      ∨ (unitKind unit.toNat = 3 ∧ (s.found h).otherWithdrawn (unitCore unit.toNat) = true)) := by
    simpa [hclinker, hdis] using hother
  split
  next hnow =>
    obtain ⟨hdisabled, -, hout⟩ := (s.found h).abandon_disables unit.toNat
    refine hs.completes (b := Attn.fault) (ks := [⟨h.port, h.tag, Op.unitDisable, Cls.ok, Detail.none, []⟩]) rfl ha
      (fun _ => hown) hres rfl hpar
      ((if_neg (fun hno => hfree hno.1)).trans ((if_neg hfree).trans ((if_neg hgood).trans (if_pos hnow))))
      (.inr rfl) ?_ (by simp) (fun t hans hm => ⟨?_, hans⟩)
    · rw [Mod.complete, hout, hq]; rfl
    · rw [hm, Mod.unit_handOver]; exact hdisabled
  next hnow =>
    refine hs.completes (b := 0) (ks := []) rfl ha (fun _ => hown) hres rfl hpar
      ((if_neg (fun hno => hfree hno.1)).trans ((if_neg hfree).trans ((if_neg hgood).trans (if_neg hnow))))
      (.inr rfl) hq (by simp) (fun t hans hm => ⟨?_, hans⟩)
    rw [hm, Mod.unit_handOver, Mod.unit_setUnit (UnitRec.ne_healthy_of_draining rfl)]

/-- A legal configuration takes effect, and a root of the time base locks at its epoch (spec 10, R328, R348). -/
theorem State.Starts.fabricConfigure {tp ta : Byte} {rp ra hold : Half} {epoch : Dword} (ha : s.accepts Op.fabricConfigure)
    (htp : timeRoleOk tp.toNat = true) (hta : timeRoleOk ta.toNat = true) (hrp : reportWordOk rp.toNat = true)
    (hra : reportWordOk ra.toNat = true) (hlo : 5 ≤ hold.toNat) (hhi : hold.toNat ≤ 1000)
    (hst : s.m.ctl.state = .ready ∨ s.m.ctl.state = .halted) :
    Completes (.fabricConfigure h (BitVec.ofNat 16 Config.position) tp ta rp ra epoch hold) s (fun t =>
      Answered s t h 0 [] Op.fabricConfigure Cls.ok Detail.none [] ∧ t.m.fab.configured = true
      ∧ t.m.fab.timeParent = tp.toNat ∧ t.m.fab.timeAlt = ta.toNat ∧ t.m.fab.reportParent = rp.toNat
      ∧ t.m.fab.reportAlt = ra.toNat ∧ t.m.fab.holdUs = hold.toNat
      ∧ (tp.toNat = 0xFF → t.m.fab.timeState = .locked ∧ t.m.fab.time = epoch.toNat)) := by
  obtain ⟨st, time, htime, hroot⟩ := Mod.configureTime_eq { s.found h with fab := { (s.found h).fab with
    configured := true, timeParent := tp.toNat, timeAlt := ta.toNat, reportParent := rp.toNat, reportAlt := ra.toNat,
    holdUs := hold.toNat, onAlt := false, good := 0, stepped := false, answered := false } } epoch.toNat
  refine hs.completes (b := 0) (ks := []) rfl ha (fun _ => hown) rfl rfl (plainParams_none hb ?_ (s.found h))
    ((if_neg ?_).trans (congrArg (Ans.ok ·) htime)) (.inl rfl) ((s.found_out h).trans hs.quiet) (by simp)
    (fun t hans hm => ?_)
  · rw [position_toNat]
    simp [htp, hta, hrp, hra, hlo, hhi]
  · rw [s.found_state]
    rcases hst with hst | hst <;> simp [hst]
  · rw [hm]
    exact ⟨hans, rfl, rfl, rfl, rfl, rfl, rfl, fun hparent => hroot (by simp [Fab.isRoot, hparent])⟩

end

/-- Settles O36: a unit by `State.Starts.unitDisable` and `Mod.disableNow_disables`, a channel by
`Mod.disableChannel_disables`, the configuration by `State.Starts.fabricConfigure`. -/
theorem unitsAndChannelsByCommand : Obligations.UnitsAndChannelsByCommand := by
  refine ⟨?_, ?_⟩
  · intro s h hs hown hb ok
    have hq : (s.found h).out = Outbox.empty := (s.found_out h).trans hs.quiet
    refine ⟨?_, ?_, ?_, ?_⟩
    · intro unit mode u ha hres hill hmode hdrain hclinker hdis hother
      obtain ⟨t, hx, ht⟩ := hs.unitDisable hown hb ha hres hill hmode hdrain hclinker hdis hother
      refine ⟨t, hx, fun hrun => ?_, fun hnow => ?_⟩
      · rwa [if_neg (by simp [hrun.1, hrun.2])] at ht
      · rw [if_pos hnow.symm] at ht
        exact ⟨ht.1, _, ht.2⟩
    · intro unit u ha hres hill hdrain htest
      rw [← s.found_unit h] at hdrain htest ⊢
      have hpar := plainParams_none hb hill (s.found h)
      have hfree : ¬ (((s.found h).unit u).draining.isSome = true ∨ ((s.found h).unit u).testing.isSome = true) := by
        simp [hdrain, htest]
      refine ⟨fun hdis => ?_, fun hdis hclinker => ?_⟩
      · refine hs.completes (i := .unitEnable h unit) (b := 0) (ks := [ok Op.unitEnable]) rfl ha (fun _ => hown) hres rfl hpar
          ((if_neg hfree).trans (if_pos hdis)) (.inr rfl) (Mod.complete_out_quiet (by exact hq) _ _ _ _ _) (by simp [ok])
          (fun t hans hm => ⟨hans, hm.trans ?_⟩)
        rw [← hq]; rfl
      · exact (hs.replies (i := .unitEnable h unit) rfl ha (fun _ => hown) hres rfl hpar
          ((if_neg hfree).trans ((if_neg (ne_true_of_eq_false hdis)).trans (if_pos hclinker))) (.inr rfl) (s.found_out h) :)
    · intro tp ta rp ra epoch hold ha htp hta hrp hra hlo hhi hst
      exact hs.fabricConfigure hown hb ha htp hta hrp hra hlo hhi hst
    · intro channel mode ha hc
      have hpar : mode.toNat ≤ 1 →
          plainParams h (decide (27 < channel.toNat) || decide (1 < mode.toNat)) (s.found h) = none :=
        fun hmode => plainParams_none hb (by simp [hmode]; omega) (s.found h)
      refine ⟨fun hmode => ?_, fun hmode hst => ?_⟩
      · obtain ⟨hdisabled, hrestore, a, hout⟩ := (s.found h).disableChannel_disables channel.toNat
        refine hs.completes (b := a) (ks := []) rfl ha (fun _ => hown) rfl rfl
          (hpar (by simp [hmode])) (if_pos hmode) (.inl rfl) (by rw [hout, hq]; rfl) (by simp) (fun t hans hm => ?_)
        rw [hm]
        exact ⟨hdisabled, hrestore, a, hans⟩
      · rw [← s.found_chan h] at hst
        exact (hs.replies (i := .channelDisable h channel mode) rfl ha (fun _ => hown) rfl rfl (hpar (by simp [hmode]))
          ((if_neg (by simp [hmode])).trans (if_pos hst)) (.inl rfl) (s.found_out h) :)
  · intro s unit w hq
    refine ⟨fun hdrain hopen => ?_, fun htest => ⟨?_, ?_⟩⟩
    · obtain ⟨hdisabled, hdrained, hout⟩ := s.m.fresh.disableNow_disables unit.toNat 0
      refine completes_of_event
        (n := (s.m.fresh.disableNow unit.toNat 0).complete w Op.unitDisable Cls.ok Detail.none []) rfl ?_
        (fun f hf => ⟨?_, ?_, Attn.fault, ?_⟩)
      · rw [Mod.fresh_unit, hdrain]
        exact if_neg (by rw [Mod.fresh_unitOpen, hopen]; decide)
      · rw [State.event_unit, hf]; exact hdisabled
      · rw [State.event_unit, hf]; exact hdrained
      · exact State.event_hands_over (by rw [hf, Mod.complete, hout, Mod.fresh_out, hq]; rfl)
    · exact hq.happens_complete rfl (by dsimp only; rw [Mod.fresh_unit, htest]; rfl) rfl (by decide)
    · exact hq.happens_complete rfl (by dsimp only; rw [Mod.fresh_unit, htest]; rfl) rfl (by decide)

end Sys2Proof.Machine

/-! PROOFS. The bank is configured, told to bank, relights and serves (O33). -/
namespace Sys2Proof.Machine

/-! ### Messages sent one after another -/

theorem Mod.sendAll_nil (m : Mod) : m.sendAll [] = m := by
  rw [Mod.sendAll, List.append_nil]

theorem Mod.sendAll_cons (m : Mod) (x : Sent) (xs : List Sent) : m.sendAll (x :: xs) = (m.send x).sendAll xs := by
  simp [Mod.sendAll, Mod.send]

theorem Mod.send_sendAll (m : Mod) (xs : List Sent) (x : Sent) : (m.sendAll xs).send x = m.sendAll (xs ++ [x]) := by
  simp [Mod.sendAll, Mod.send]

@[simp] theorem Mod.send_liveChannel (m : Mod) (x : Sent) (role : Nat) :
    (m.send x).liveChannel role = m.liveChannel role := rfl
@[simp] theorem Mod.send_bankQ (m : Mod) (x : Sent) : (m.send x).bankQ = m.bankQ := rfl
@[simp] theorem Mod.send_bankX (m : Mod) (x : Sent) : (m.send x).bankX = m.bankX := rfl

/-! ### What a command finds of the bank -/

theorem State.found_bankBusy (s : State) (h : Cmd) : (s.found h).bankBusy = s.m.bankBusy := by
  obtain ⟨_, _, hf⟩ := s.found_eq h; rw [hf]; rfl
theorem State.found_pairLegal (s : State) (h : Cmd) (used : Bool) (r0 r1 : Nat) :
    (s.found h).pairLegal used r0 r1 = s.m.pairLegal used r0 r1 := by
  obtain ⟨_, _, hf⟩ := s.found_eq h; rw [hf]; rfl
theorem State.found_ownTransfer (s : State) (h : Cmd) : (s.found h).ownTransfer = s.m.ownTransfer := by
  obtain ⟨_, _, hf⟩ := s.found_eq h; rw [hf]; rfl
theorem State.found_relightBad (s : State) (h : Cmd) (source owner holder r0 r1 : Nat) :
    (s.found h).relightBad source owner holder r0 r1 = s.m.relightBad source owner holder r0 r1 := by
  obtain ⟨_, _, hf⟩ := s.found_eq h; rw [hf]; rfl
theorem State.found_servedImage (s : State) (h : Cmd) (owner : Nat) (step : Word) (target : Nat) :
    (s.found h).servedImage owner step target = s.m.servedImage owner step target := by
  obtain ⟨_, _, hf⟩ := s.found_eq h; rw [hf]; rfl
theorem State.found_serveBad (s : State) (h : Cmd) (owner : Nat) (step : Word) (target : Nat) :
    (s.found h).serveBad h owner step target = s.m.serveBad h owner step target := by
  obtain ⟨_, _, hf⟩ := s.found_eq h; rw [hf]; rfl
theorem State.found_fabOut (s : State) (h : Cmd) : (s.found h).fab.out = [] := by
  obtain ⟨_, _, hf⟩ := s.found_eq h; rw [hf]; rfl

/-! ### Effects -/

/-- The interval in force stays until a plan starts, also where the held slots are emptied (spec 14, R439, R442). -/
theorem Bank.configure_interval (b : Bank) (interval slots snapGib pairs p0a p0b p1a p1b : Nat) :
    (b.configure interval slots snapGib pairs p0a p0b p1a p1b).interval = b.interval := by
  unfold Bank.configure
  extract_lets b'
  show b'.interval = b.interval
  unfold b'
  split
  · rfl
  · rfl

section
variable {s : State} {h : Cmd} (hs : s.Starts h) (hown : s.m.ctl.owner = some h.port)
include hs hown

/-- A legal configuration takes effect in READY and HALTED while no transfer runs (spec 14, R442). -/
theorem State.Starts.bankConfigure {interval : Half} {slots snap pairs : Byte} {a b c d : Half}
    (ha : s.accepts Op.bankConfigure) (hb : noBuffer h = true) (hslots : 0 < slots.toNat) (hslots' : slots.toNat ≤ 2)
    (hsnap : snap.toNat ≤ 64) (hpairs : pairs.toNat ≤ 2) (hroom : snap.toNat ≤ s.m.hbm.bankGib)
    (hpair0 : s.m.pairLegal (decide (0 < pairs.toNat)) a.toNat c.toNat = true)
    (hpair1 : s.m.pairLegal (decide (1 < pairs.toNat)) b.toNat d.toNat = true)
    (hst : s.m.ctl.state = .ready ∨ s.m.ctl.state = .halted) (hfree : s.m.bankBusy = false) :
    Replies (.bankConfigure h interval slots snap pairs a b c d) s h 0 [] Op.bankConfigure Cls.ok []
      { s.found h with
        bank := s.m.bank.configure interval.toNat slots.toNat snap.toNat pairs.toNat a.toNat b.toNat c.toNat d.toNat } := by
  rw [← s.found_pairLegal h] at hpair0 hpair1
  rw [← s.found_bankBusy h] at hfree
  rw [← s.found_bank h]
  have hne : slots ≠ 0#8 := by rintro rfl; simp at hslots
  refine (hs.replies (i := .bankConfigure h interval slots snap pairs a b c d) rfl ha (fun _ => hown) rfl rfl
    (plainParams_none hb ?_ (s.found h)) ((if_neg ?_).trans (if_neg ?_)) (.inl rfl) (s.found_out h) :)
  · simp [hne, hslots', hsnap, hpairs, hroom, hpair0, hpair1]
  · rw [s.found_state]
    rcases hst with hst | hst <;> simp [hst]
  · simp [hfree]

/-- An accepted RELIGHT waits for its image; one from a partner asks for it by a PULL (spec 14, R450, R451). -/
theorem State.Starts.relight {source : Byte} {step : Word} {owner holder r0 r1 : Half} (href : s.m.ctl.refLost = false)
    (ha : s.accepts Op.relight) (hb : noBuffer h = true)
    (hgood : s.m.relightBad source.toNat owner.toNat holder.toNat r0.toNat r1.toNat = false)
    (hst : s.m.ctl.state = .ready) (hplan : s.m.plan.st = .loaded) (hnone : s.m.bank.relight = none)
    (hfree : s.m.ownTransfer = false) :
    Replies (.relight h source step owner holder r0 r1) s h 0 [] Op.relight Cls.accepted []
      (Mod.sendAll { s.found h with bank := { s.m.bank with
          relight := some ⟨⟨h.port, h.tag⟩, source.toNat, step, owner.toNat, holder.toNat, r0.toNat, r1.toNat, [], 0⟩ } }
        (if source = 0 then [.pull holder.toNat Config.position owner.toNat step.toNat] else [])) := by
  rw [← s.found_bank h]
  refine (hs.replies (i := .relight h source step owner holder r0 r1) (cls := Cls.accepted) (result := []) rfl ha
    (fun _ => hown) rfl rfl (plainParams_none hb ((s.found_relightBad h ..).trans hgood) (s.found h)) ?run (.inr rfl) ?out :)
  case out => exact s.found_out h
  refine (if_neg ?_).trans ((if_neg ?_).trans ?_)
  · simp [s.found_refLost, hst, hplan, href]
  · simp [s.found_ownTransfer, hnone, hfree]
  · split
    · rfl
    · rw [Mod.sendAll_nil]; rfl

end

/-- Settles O33: BANK_CONFIGURE by `State.Starts.bankConfigure` and `Bank.configure_interval`, RELIGHT by
`State.Starts.relight`, BANK_NOW and BANK_SERVE by their effect. -/
theorem bankCommands : Obligations.BankCommands := by
  intro s h hs hown href
  refine ⟨?_, ?_, ?_, ?_⟩
  · intro interval slots snap pairs a b c d ha hb hslots hslots' hsnap hpairs hroom hpair0 hpair1 hst hfree
    obtain ⟨t, hx, hans, hm⟩ :=
      hs.bankConfigure hown (interval := interval) ha hb hslots hslots' hsnap hpairs hroom hpair0 hpair1 hst hfree
    refine ⟨t, hx, hans, ?_⟩
    rw [hm]
    exact ⟨rfl, Bank.configure_interval .., rfl, rfl, rfl, rfl, rfl, rfl, rfl⟩
  · intro mask ha hb hlo hhi hst hupd hnow
    rw [← s.found_bank h]
    have hne : mask ≠ 0#8 := by rintro rfl; simp at hlo
    refine (hs.replies (i := .bankNow h mask) rfl ha (fun _ => hown) rfl rfl (plainParams_none hb ?_ (s.found h))
      ((if_neg ?_).trans ((if_neg ?_).trans (if_pos ?_))) (.inl rfl) (s.found_out h) :)
    · simp [hne, hhi]
    · simp [s.found_refLost, hst, href]
    · simp [hupd, hnow]
    · simpa using hst
  · intro source step owner holder r0 r1 ha hb hgood hst hplan hnone hfree
    obtain ⟨t, hx, hans, hm⟩ := hs.relight hown (step := step) href ha hb hgood hst hplan hnone hfree
    refine ⟨t, hx, hans, ?_⟩
    rw [hm]
    exact ⟨rfl, congrArg (· ++ _) (s.found_fabOut h)⟩
  · intro owner step target ha hgood hst hserving himage
    rw [← s.found_bank h] at hserving ⊢
    refine (hs.replies (i := .bankServe h owner step target) rfl ha (fun _ => hown) rfl rfl (if_neg ?_)
      ((if_neg ?_).trans ((if_neg ?_).trans (if_neg ?_))) (.inr rfl) (s.found_out h) :)
    · simp [s.found_serveBad, hgood]
    · simp [s.found_refLost, hst, href]
    · simpa using hserving
    · simpa [s.found_servedImage, Option.isSome_iff_ne_none] using himage

end Sys2Proof.Machine

/-! PROOFS. The holder of the partner's images (O54). -/
namespace Sys2Proof.Machine

/-! ### HELLO (spec 14, R445) -/

/-- This module's limits go out on every bank role that a live channel carries. -/
theorem Mod.sendHello_each : ∀ (roles : List Nat) (m : Mod),
    roles.foldl (fun m role => if (m.liveChannel role).isSome then m.send (.hello role m.bankQ m.bankX) else m) m
      = m.sendAll ((roles.filter (fun role => (m.liveChannel role).isSome)).map
          (fun role => Sent.hello role m.bankQ m.bankX))
  | [], m => m.sendAll_nil.symm
  | role :: roles, m => by
    rw [List.foldl_cons, Mod.sendHello_each roles]
    by_cases hlive : (m.liveChannel role).isSome = true
    · rw [if_pos hlive, List.filter_cons_of_pos (by exact hlive), List.map_cons, Mod.sendAll_cons]
      simp only [Mod.send_liveChannel, Mod.send_bankQ, Mod.send_bankX]
    · rw [if_neg hlive, List.filter_cons_of_neg (by exact hlive)]

/-! ### The held slots (spec 14, R446) -/

@[simp] theorem Bank.held_setHeld (b : Bank) (k : Nat) (x : Held) : (b.setHeld k x).held k = x := by
  unfold Bank.held Bank.setHeld
  split
  · rfl
  · rfl

@[simp] theorem Bank.latest_setHeld (b : Bank) (k : Nat) (x : Held) : (b.setHeld k x).latest = b.latest := by
  unfold Bank.setHeld
  split
  · rfl
  · rfl

@[simp] theorem Mod.setHeld_bankQ (m : Mod) (k : Nat) (x : Held) : (m.setHeld k x).bankQ = m.bankQ := by
  unfold Mod.bankQ Mod.bankX Mod.setHeld Bank.setHeld
  split
  · rfl
  · rfl

@[simp] theorem Mod.setHeld_heldBase (m : Mod) (k j : Nat) (x : Held) : (m.setHeld k x).heldBase j = m.heldBase j := by
  rw [Mod.heldBase, Mod.setHeld_bankQ]
  rfl

/-- Image bytes reach a slot that fills and has room for them. -/
theorem Mod.heldData_fills {m : Mod} {k off : Nat} {bs : Bytes} (hst : (m.bank.held k).st = 1)
    (hfit : off + bs.length ≤ m.bankQ) : m.heldData k off bs = m.wr (m.heldBase k + off) bs := if_pos ⟨hst, hfit⟩

/-- The bank once an OPEN has taken its slot. -/
def Bank.opened (b : Bank) (x : Held) : Bank :=
  { b.setHeld b.openSlot x with latest := if b.latest = some b.openSlot then none else b.latest }

/-- The slot that an OPEN takes fills with the image, and no latest image is in it. -/
theorem Bank.opened_takes (b : Bank) (x : Held) :
    (b.opened x).held b.openSlot = x ∧ (b.opened x).latest ≠ some b.openSlot := by
  refine ⟨b.held_setHeld b.openSlot x, ?_⟩
  show (if b.latest = some b.openSlot then none else b.latest) ≠ some b.openSlot
  split
  · simp
  · assumption

section
variable {m : Mod} {hdr : Bytes} (hlen : hdr.length ≤ m.bankQ)
include hlen

/-- An OPEN of an image that fits writes its header, takes the slot and is acknowledged. -/
theorem Mod.bankOpened_takes (hfit : (heldOf 1 hdr).imageBytes ≤ m.bankQ) :
    m.bankOpened hdr
      = Mod.send { m.wr (m.heldBase m.bank.openSlot) hdr with bank := m.bank.opened (heldOf 1 hdr) }
          (.ack partnerWord .ok m.bank.openSlot (heldOf 1 hdr).step.toNat (heldOf 1 hdr).imageBytes) := by
  have hfill : (m.setHeld m.bank.openSlot (heldOf 1 hdr)).heldData m.bank.openSlot 0 hdr
      = (m.setHeld m.bank.openSlot (heldOf 1 hdr)).wr (m.heldBase m.bank.openSlot) hdr := by
    rw [Mod.heldData_fills (by simp [Mod.setHeld, heldOf]) (by simpa using hlen), Mod.setHeld_heldBase, Nat.add_zero]
  have hlatest : ((m.setHeld m.bank.openSlot (heldOf 1 hdr)).wr (m.heldBase m.bank.openSlot) hdr).bank.latest
      = m.bank.latest := by simp [Mod.setHeld]
  unfold Mod.bankOpened
  dsimp only
  rw [if_neg (Nat.not_lt.mpr hfit), hfill, hlatest]
  unfold Bank.opened
  by_cases h : m.bank.latest = some m.bank.openSlot
  · rw [if_pos h, if_pos h]; rfl
  · rw [if_neg h, if_neg h, ← hlatest]; rfl

/-- A SEAL writes its header and judges the image: SEALED and the latest where its checks pass, ABORTED otherwise. -/
theorem Mod.sealSlot_judges {k : Nat} (hst : (m.bank.held k).st = 1) :
    let n := m.wr (m.heldBase k) hdr
    let dir := n.rdBytes (m.heldBase k + 64) (min (dirLen hdr) m.bankQ)
    let x := m.bank.held k
    m.sealSlot k hdr
      = if imgCrcOk hdr dir && n.dataCrcOk (m.heldBase k) m.bankQ dir then
          Mod.send { n with bank := { m.bank.setHeld k (heldOf 2 hdr) with latest := some k } }
            (.ack partnerWord .ok k x.step.toNat x.imageBytes)
        else (n.setHeld k { x with st := 3 }).send (.ack partnerWord .poison k x.step.toNat x.imageBytes) := by
  intro n dir x
  have hfill : m.heldData k 0 hdr = n := by
    rw [Mod.heldData_fills hst (by simpa using hlen), Nat.add_zero]
  have hq : n.bankQ = m.bankQ := rfl
  unfold Mod.sealSlot
  dsimp only
  rw [if_neg (fun hne => hne hst), hfill, hq]
  simp only [Bool.and_eq_true]
  rfl

end

/-! ### The snapshot area (spec 14, R456) -/

/-- Snapshot bytes that fit change memory and the area's own entry. -/
theorem Mod.snapData_fills {m : Mod} {off : Nat} {bs : Bytes} (hfit : off + bs.length ≤ m.bankX) :
    ∃ x, m.snapData off bs = { m.wr (m.snapBase + off) bs with bank := { m.bank with snap := x } } :=
  ⟨_, if_pos hfit⟩

/-- Settles O54: HELLO_TICK by `Mod.sendHello_each`, an OPEN by `Mod.bankOpened_takes` and `Bank.opened_takes`, DATA by
`Mod.heldData_fills` and `Mod.snapData_fills`, a SEAL by `Mod.sealSlot_judges`, HELLO and ABORT by their effect. -/
theorem theHolderKeepsImages : Obligations.TheHolderKeepsImages := by
  intro s hq hd m
  replace hd : m.dataPlane = true := hd
  refine ⟨fun q x => ?_, ?_, fun header => ?_, fun offset data hlen => ?_,
    fun k header hk hst hroom => ?_, fun k serial hk hserial => ?_⟩
  · exact hq.happens rfl (if_pos hd) rfl
  · exact hq.happens rfl ((if_pos hd).trans (Mod.sendHello_each _ m)) rfl
  · intro hdr x
    refine ⟨fun hbig => ?_, fun hfit hroom => ?_⟩
    · exact hq.happens rfl ((if_pos hd).trans (if_pos hbig)) rfl
    · have htake := Mod.bankOpened_takes (m := m) (hdr := hdr) (by rw [fitBytes_length]; exact hroom) hfit
      obtain ⟨hheld, hlatest⟩ := m.bank.opened_takes x
      refine completes_of_event rfl ((if_pos hd).trans htake) (fun f hf => ⟨hq.observed (by rw [hf]; rfl), ?_⟩)
      rw [State.event_bank, State.event_hbm, State.event_run, State.event_fab, hf]
      exact ⟨hheld, rfl, hlatest, rfl, rfl⟩
  · have hgood : ¬ ((!m.dataPlane) = true ∨ 3824 < data.length) := by simp [hd, hlen]
    refine ⟨fun area harea hst hfit => ?_, fun hfit => ?_⟩
    · exact hq.happens rfl ((if_neg hgood).trans ((if_neg (by omega)).trans ((if_neg (by omega)).trans
        ((if_pos harea).trans (Mod.heldData_fills hst hfit))))) rfl
    · obtain ⟨x, hsnap⟩ := Mod.snapData_fills hfit
      refine completes_of_event rfl ((if_neg hgood).trans ((if_neg (by decide)).trans ((if_pos rfl).trans hsnap)))
        (fun f hf => ⟨hq.observed (by rw [hf]; rfl), ?_⟩)
      rw [State.event_hbm, State.event_run, hf]
      exact ⟨rfl, rfl⟩
  · intro hdr n dir ok
    have hseal := Mod.sealSlot_judges (m := m) (hdr := hdr) (by rw [fitBytes_length]; exact hroom) hst
    refine completes_of_event rfl ((if_pos ⟨hd, hk⟩).trans hseal) (fun f hf => ?_)
    change f s.m.fresh = if ok = true then _ else _ at hf
    cases hok : ok
    all_goals
      rw [hok] at hf
      refine ⟨hq.observed (by rw [hf]; rfl), ?_⟩
      rw [State.event_bank, State.event_hbm, State.event_fab, hf]
      exact ⟨rfl, Bank.held_setHeld .., by simp [Mod.send, Mod.setHeld, m], rfl⟩
  · exact hq.happens rfl (if_pos ⟨hd, hk, hserial⟩) rfl

end Sys2Proof.Machine

/-! PROOFS. The sender of images, and what the partner asks (O55). -/
namespace Sys2Proof.Machine

/-! ### This module's own update (spec 14, R444, R448) -/

/-- An accepted OPEN sends the directory (spec 14, R444). -/
theorem Mod.updateAck_opened (m : Mod) {u : OwnUpd} {area : Nat} (hs : u.send = .opened) (harea : area < 2) :
    m.updateAck u .ok area = (m.setSend (.sending area)).sendAll (dataPackets partnerWord area 64 u.dir) := by
  simp only [Mod.updateAck, hs]
  exact if_pos harea

section
variable {m : Mod} {u : OwnUpd} (hu : m.bank.upd = some u)
include hu

theorem Mod.setSend_of_upd (p : SendPh) :
    m.setSend p = { m with bank := { m.bank with upd := some { u with send := p } } } := by
  rw [Mod.setSend, hu]

theorem Mod.setHostCopy_of_upd (p : Option Nat) :
    m.setHostCopy p = { m with bank := { m.bank with upd := some { u with host := p } } } := by
  rw [Mod.setHostCopy, hu]

/-- An update with no destination left is over: its pins go. -/
theorem Mod.closeUpdate_over (hs : u.send = .none) (hh : u.host = none) :
    m.closeUpdate = { m with bank := { m.bank with upd := none, pins := [] } } := by
  have hover : (!u.isSending && u.host.isNone) = true := by simp [OwnUpd.isSending, hs, hh]
  simp only [Mod.closeUpdate, hu]
  exact if_pos hover

/-- An accepted SEAL settles the send; without a host copy the update is over (spec 14, R446). -/
theorem Mod.updateAck_sealed {a : Nat} (hs : u.send = .sealed a) (hh : u.host = none) (area : Nat) :
    m.updateAck u .ok area
      = { m.count Cnt.bankSealed 1 with
          bank := { m.bank with sentStep := some u.step, lastResult := 1, upd := none, pins := [] } } := by
  simp only [Mod.updateAck, hs]
  rw [Mod.setSend_of_upd (u := u) (by exact hu), Mod.closeUpdate_over (u := { u with send := .none }) rfl rfl hh]
  rfl

end

/-- The update once its next extent is read and sent to area a; after the last one it waits for the answer to SEAL. -/
def OwnUpd.readNext (u : OwnUpd) (a : Nat) : OwnUpd :=
  { u with read := u.read ++ [u.read.length]
           send := if u.read.length + 1 = u.extents.length then .sealed a else .sending a }

/-- An extent goes to the partner alone; after the last one, SEAL (spec 14, R444). -/
theorem Mod.extentRead_sends (m : Mod) {u : OwnUpd} {a : Nat} (hs : u.send = .sending a) (hh : u.host = none)
    (e : Nat × Nat × Nat × Option Pin) :
    ∃ pins, m.extentRead u u.read.length e
      = Mod.sendAll { m with bank := { m.bank with upd := some (u.readNext a), pins := pins } }
          (dataPackets partnerWord a e.1 (m.rdBytes e.2.1 e.2.2.1)
            ++ (if u.read.length + 1 = u.extents.length then [.seal a (sealHeader u.header)] else [])) := by
  unfold Mod.extentRead
  extract_lets bs u1 b m1 m2 m3
  have hsend : u1.send = .sending a := hs
  have hm2 : m2 = m1.sendAll (dataPackets partnerWord a e.1 bs) := by simp only [m2, hsend]
  have hm3 : m3 = m2 := by simp only [m3, show u1.host = none from hh]
  have hlen : u1.read.length = u.read.length + 1 := by simp [u1]
  refine ⟨m1.bank.pins, ?_⟩
  rw [hsend, hm3, hm2, hlen]
  dsimp only
  by_cases hlast : u.read.length + 1 = u.extents.length
  · have hnext : u.readNext a = { u1 with send := .sealed a } := by rw [OwnUpd.readNext, if_pos hlast]
    rw [hnext, if_pos hlast, if_pos hlast, ← Mod.send_sendAll, Mod.setSend_of_upd (u := u1) rfl]
    rfl
  · have hnext : u.readNext a = u1 := by rw [OwnUpd.readNext, if_neg hlast, ← hs]
    rw [hnext, if_neg hlast, if_neg hlast, List.append_nil]

/-! ### Host copies (spec 14, R448) -/

theorem Mod.writeRegion_eq (m : Mod) (region off : Nat) (bs : Bytes) :
    ∃ ws, m.writeRegion region off bs = { m with out := { m.out with host := ws } } := by
  unfold Mod.writeRegion
  dsimp only
  split
  · exact ⟨_, rfl⟩
  · exact ⟨m.out.host, rfl⟩

/-- A write to a host pair hands over host writes alone. -/
theorem Mod.writePair_eq (m : Mod) (pair bytes off : Nat) (bs : Bytes) :
    ∃ ws, m.writePair pair bytes off bs = { m with out := { m.out with host := ws } } := by
  unfold Mod.writePair
  extract_lets h rs n m'
  obtain ⟨ws, hw⟩ := m.writeRegion_eq rs.1 off (bs.take n)
  obtain ⟨ws', hw'⟩ := m'.writeRegion_eq rs.2 (off + (bs.take n).length - h) (bs.drop n)
  exact ⟨ws', by rw [hw', show m' = _ from hw]⟩

/-- A whole copy to a pair that takes it ends the update, where no send is left. -/
theorem Mod.hostCopyDone_over {m : Mod} {u : OwnUpd} {k : Nat} (hu : m.bank.upd = some u) (hs : u.send = .none)
    (hread : u.read.length = u.extents.length) (hok : m.pairOk k u.bytes = true) :
    ∃ ws, m.hostCopyDone u k = { m with
      out := { m.out with host := ws },
      bank := { m.bank with
        lastResult := 1, upd := none, pins := [],
        hostStep0 := if k = 0 then some u.step else m.bank.hostStep0,
        hostStep1 := if k = 0 then m.bank.hostStep1 else some u.step } } := by
  obtain ⟨ws, hw⟩ := m.writePair_eq k u.bytes 0 (sealHeader u.header)
  refine ⟨ws, ?_⟩
  unfold Mod.hostCopyDone
  dsimp only
  rw [if_neg (fun hne => hne hread), if_pos hok, hw]
  by_cases hk : k = 0
  all_goals
    simp only [hk, if_true, if_false]
    rw [Mod.setHostCopy_of_upd (u := u) (by exact hu), Mod.closeUpdate_over (u := { u with host := none }) rfl hs rfl]

/-! ### Relights and PULLs (spec 14, R451, R455) -/

/-- A relight that ends in another way than OK. -/
theorem Mod.relightEnds_fails (m : Mod) (r : Relight) {cls : Nat} (hcls : cls ≠ Cls.ok) (detail : Nat) :
    m.relightEnds r cls detail
      = Mod.complete { m with bank := { m.bank with relight := none, relightFailed := true } }
          r.ticket Op.relight cls detail [] := by
  unfold Mod.relightEnds
  dsimp only
  rw [if_neg hcls, decide_eq_true hcls]

section
variable {m : Mod} (hu : m.bank.upd = none)
include hu

/-- Where no send is under way, a PULL or a lost partner ends none. -/
theorem Mod.endSend_idle (result : Nat) (abort : Bool) : m.endSend result abort = m := by
  rw [Mod.endSend, hu]

/-- A PULL of an image that is not held is refused. -/
theorem Mod.pulled_unheld {source owner : Nat} {step : Word} (hslot : m.bank.sealedSlot owner step = none) :
    m.pulled source owner step = m.send (.ack source .notHeld 0 step.toNat 0) := by
  unfold Mod.pulled
  dsimp only
  rw [Mod.endSend_idle hu, ite_self, hslot]

section
variable {source owner k : Nat} {step : Word} (hslot : m.bank.sealedSlot owner step = some k)
include hslot

/-- While this module serves an image it refuses another PULL. -/
theorem Mod.pulled_busy (hserving : m.bank.serving = true) :
    m.pulled source owner step = m.send (.ack source .busy 0 step.toNat 0) := by
  unfold Mod.pulled
  dsimp only
  rw [Mod.endSend_idle hu, ite_self, hslot]
  exact if_pos hserving

/-- The owner of an image is served without a grant. -/
theorem Mod.pulled_owned (hserving : m.bank.serving = false) (hown : source = owner) :
    m.pulled source owner step
      = Mod.streamImage { m with bank := { m.bank with pulled := some (source, k) } } source k := by
  unfold Mod.pulled
  dsimp only
  rw [Mod.endSend_idle hu, ite_self, hslot]
  exact (if_neg (ne_true_of_eq_false hserving)).trans (if_pos hown)

/-- Another module needs a grant. -/
theorem Mod.pulled_ungranted (hserving : m.bank.serving = false) (hother : source ≠ owner)
    (hgrant : m.bank.grantFor source owner step = none) :
    m.pulled source owner step = m.send (.ack source .notGranted 0 step.toNat 0) := by
  unfold Mod.pulled
  dsimp only
  rw [Mod.endSend_idle hu, ite_self, hslot, hgrant]
  exact (if_neg (ne_true_of_eq_false hserving)).trans (if_neg hother)

end

end

/-! ### Events that may let a round open -/

section
variable {s : State} (hd : s.m.fresh.dataPlane = true)
include hd

/-- The answer to an OPEN or a SEAL of the update under way (spec 14, R446). -/
theorem ack_answers_update {u : OwnUpd} (hr : s.m.fresh.bank.relight = none) (hu : s.m.fresh.bank.upd = some u)
    (status : AckStatus) (area : Nat) :
    ∃ f : Mod → Mod, exec (.ack status area u.step.toNat u.bytes) s = .next (s.event f)
      ∧ f s.m.fresh = (s.m.fresh.updateAck u status area).tryOpen := by
  refine ⟨_, rfl, ?_⟩
  rw [if_neg (by simp [hd]), hr, hu]
  exact if_pos ⟨rfl, rfl⟩

/-- The answer to the PULL of a relight (spec 14, R451). -/
theorem ack_answers_pull {r : Relight} (hr : s.m.fresh.bank.relight = some r) (hsource : r.source = 0)
    (status : AckStatus) (area bytes : Nat) :
    ∃ f : Mod → Mod, exec (.ack status area r.step.toNat bytes) s = .next (s.event f)
      ∧ f s.m.fresh = s.m.fresh.pullAck r status := by
  refine ⟨_, rfl, ?_⟩
  rw [if_neg (by simp [hd]), hr]
  exact if_pos ⟨hsource, rfl⟩

/-- The next extent is read where none of it is poisoned and the partner has answered OPEN (spec 14, R444). -/
theorem extentRead_reads {u : OwnUpd} {e : Nat × Nat × Nat × Option Pin} (hu : s.m.fresh.bank.upd = some u)
    (he : u.extents[u.read.length]? = some e) (hclean : s.m.fresh.poisoned e.2.1 e.2.2.1 = false) (hs : u.send ≠ .opened) :
    ∃ f : Mod → Mod, exec (.bankExtentRead u.read.length) s = .next (s.event f)
      ∧ f s.m.fresh = (s.m.fresh.extentRead u u.read.length e).tryOpen := by
  refine ⟨_, rfl, ?_⟩
  rw [hu]
  dsimp only
  rw [he]
  exact if_pos ⟨hd, hs, rfl, by simp [hclean]⟩

/-- A host copy is judged at its end (spec 14, R448). -/
theorem hostCopy_ends {u : OwnUpd} {k : Nat} (hu : s.m.fresh.bank.upd = some u) (hh : u.host = some k) :
    ∃ f : Mod → Mod, exec .hostCopyComplete s = .next (s.event f)
      ∧ f s.m.fresh = (s.m.fresh.hostCopyDone u k).tryOpen := by
  refine ⟨_, rfl, ?_⟩
  rw [hu]
  dsimp only
  rw [hh]
  exact if_pos hd

end

/-- Settles O55: the send by `Mod.updateAck_opened`, `Mod.extentRead_sends` and `Mod.updateAck_sealed`, the host copy by
`Mod.hostCopyDone_over`, a refused relight by `Mod.relightEnds_fails`, the lost partner by `Mod.endSend_idle`, a PULL by
`Mod.pulled_unheld`, `Mod.pulled_busy`, `Mod.pulled_owned` and `Mod.pulled_ungranted`. -/
theorem theSenderAndThePartner : Obligations.TheSenderAndThePartner := by
  intro s hq hd hw m
  replace hd : m.dataPlane = true := hd
  replace hw : m.run.phase ≠ .waiting := hw
  refine ⟨fun u hu => ⟨fun area hr harea hs => ?_, fun area a hr hs hh => ?_, fun e a he hclean hs hh => ?_,
    fun k hh hs hread hok => ?_⟩, fun r area bytes hr hsource => ?_, fun hpartner hu => ?_,
    fun source owner step hu hstep => ?_⟩
  · obtain ⟨f, hx, hf⟩ := ack_answers_update hd hr hu .ok area
    rw [Mod.updateAck_opened _ hs harea, Mod.setSend_of_upd hu, Mod.tryOpen_away (by exact hw)] at hf
    rw [Mod.setSend_of_upd hu]
    exact hq.happens hx hf rfl
  · obtain ⟨f, hx, hf⟩ := ack_answers_update hd hr hu .ok area
    rw [Mod.updateAck_sealed hu hs hh, Mod.tryOpen_away (by exact hw)] at hf
    refine ⟨_, hx, hq.observed (by rw [hf]; rfl), ?_⟩
    rw [State.event_bank, State.event_hbm, hf]
    exact ⟨rfl, rfl⟩
  · obtain ⟨f, hx, hf⟩ := extentRead_reads hd hu he hclean (by simp [hs])
    obtain ⟨pins, hsent⟩ := m.extentRead_sends hs hh e
    rw [hsent, Mod.tryOpen_away (by exact hw)] at hf
    refine ⟨_, hx, hq.observed (by rw [hf]; rfl), ?_⟩
    rw [State.event_bank, State.event_hbm, State.event_fab, hf]
    exact ⟨rfl, rfl, u.readNext a, rfl, rfl, rfl, rfl⟩
  · obtain ⟨f, hx, hf⟩ := hostCopy_ends hd hu hh
    obtain ⟨ws, hdone⟩ := Mod.hostCopyDone_over hu hs hread hok
    rw [hdone, Mod.tryOpen_away (by exact hw)] at hf
    refine ⟨_, hx, ⟨ws, State.event_hands_over ?_⟩, ?_⟩
    · rw [hf]
      show { m.out with host := ws } = _
      rw [show m.out = Outbox.empty from hq]
      rfl
    · rw [State.event_bank, State.event_hbm, hf]
      exact ⟨rfl, rfl, rfl, rfl, rfl, rfl⟩
  · obtain ⟨f, hx, hf⟩ := ack_answers_pull hd hr hsource .notHeld area bytes
    have hends : m.pullAck r .notHeld = _ := Mod.relightEnds_fails m r (cls := Cls.rejected) (by decide) Detail.bankStale
    rw [hends] at hf
    refine ⟨_, hx, State.event_hands_over ?_, ?_⟩
    · rw [hf]; exact Mod.complete_out_quiet hq ..
    · rw [State.event_bank, State.event_hbm, hf]
      exact ⟨rfl, rfl⟩
  · have hup : m.railsUp = true := by
      simp only [Mod.dataPlane, Bool.and_eq_true] at hd
      exact hd.1.1
    have hknown : (m.railsUp && m.bank.partner != 2) = true := by simp [hup, hpartner]
    have hlost : m.partnerLost = _ := Mod.endSend_idle (by exact hu) 4 false
    refine hq.happens rfl ((if_pos hknown).trans ?_) rfl
    rw [hlost]
    exact Mod.tryOpen_away (by exact hw)
  · have hstep' : (BitVec.ofNat 32 step).toNat = step := by simpa using hstep
    have hrefused : ∀ status,
        m.pulled source owner (BitVec.ofNat 32 step) = m.send (.ack source status 0 (BitVec.ofNat 32 step).toNat 0) →
          Happens (.pull source owner step) s 0 [] (m.send (.ack source status 0 step 0)) := by
      intro status h
      rw [hstep'] at h
      exact hq.happens rfl ((if_pos hd).trans ((congrArg Mod.tryOpen h).trans (Mod.tryOpen_away (by exact hw)))) rfl
    refine ⟨fun hslot => hrefused .notHeld (Mod.pulled_unheld hu hslot),
      fun k hslot hserving => hrefused .busy (Mod.pulled_busy hu hslot hserving), fun k hslot hserving hown => ?_,
      fun k hslot hserving hother hgrant => hrefused .notGranted (Mod.pulled_ungranted hu hslot hserving hother hgrant)⟩
    have hserved := congrArg Mod.tryOpen (Mod.pulled_owned hu hslot hserving hown)
    refine completes_of_event rfl ((if_pos hd).trans (hserved.trans (Mod.tryOpen_away (by exact hw))))
      (fun f hf => ⟨hq.observed (by rw [hf]; rfl), ?_⟩)
    rw [State.event_bank, State.event_hbm, State.event_fab, hf]
    exact ⟨rfl, rfl, rfl⟩

end Sys2Proof.Machine


/-! PROOFS. What a step can do: the forms that the rows of the table take, and the legal states (O56, O57, O58). -/
namespace Sys2Proof.Machine

/-! ### The rows of the table -/

/-- A command packet runs in the frame of the ring commands, with its own opcode and its own owner rule. -/
theorem exec_ringCommand {i : Instr} {h : Cmd} {op : Nat} {own : Bool} (hr : ringCommand i = some (h, op, own)) :
    ∃ c : CmdSpec, c.opcode = op ∧ c.ownerOnly = own ∧ ∀ s, exec i s = .next (runCmd h c s) := by
  cases i <;> cases hr <;> exact ⟨_, rfl, rfl, fun _ => rfl⟩

/-- A register block that is legal if the one before it was (spec 15, R465). -/
def Port.KeepsLegal (x y : Port) : Prop := x.Legal → y.Legal

/-- What a row can do. -/
inductive Effect (s : State) : Out → Prop
  | idle : Effect s (.next s)
  | command (h : Cmd) (c : CmdSpec) : Effect s (.next (runCmd h c s))
  | event (f : Mod → Mod) : Effect s (.next (s.event f))
  | register (p : Nat) (x : Port) (hx : (s.io.port p).KeepsLegal x) : Effect s (.next (s.setPort p x))
  | sideband (packet : Bytes) : Effect s (.next (s.sideCommand packet))
  | pins (x : Side) (a : Ash) : Effect s (.next { s with m := { s.m with side := x, ash := a } })
  | fault (e : Fault) : Effect s (.fault e)

theorem Effect.cases {s x y : State} {c : Prop} [Decidable c] (hx : c → Effect s (.next x)) (hy : ¬ c → Effect s (.next y)) :
    Effect s (.next (if c then x else y)) := by
  split
  next h => exact hx h
  next h => exact hy h

theorem Effect.ite {s x y : State} {c : Prop} [Decidable c] (hx : Effect s (.next x)) (hy : Effect s (.next y)) :
    Effect s (.next (if c then x else y)) := .cases (fun _ => hx) (fun _ => hy)

theorem Effect.link (s : State) (p : Nat) (f : Mod → Mod) : Effect s (.next (s.linkEvent p f)) :=
  Effect.ite (.event f) .idle

theorem Effect.i3c (s : State) (f : Side → Side) : Effect s (.next (s.i3c f)) :=
  Effect.ite (.pins _ s.m.ash) .idle

theorem Effect.bench (s : State) (bs : Bytes) : Effect s (.next (s.bench bs)) := .pins _ _

/-! ### Register writes (spec 15, R464 to R469) -/

theorem Port.start_legal {x : Port} (he : x.enable = false) : x.KeepsLegal x.start := by
  intro hx
  have hrun : x.running = false := by
    cases hr : x.running with
    | false => rfl
    | true =>
      rw [(hx.1 hr).1] at he
      cases he
  unfold Port.start
  split
  next hb => exact ⟨fun _ => ⟨rfl, rfl, hb⟩, fun h => by cases h⟩
  next => exact ⟨fun h => by simp at h, fun _ => hx.2 hrun⟩

/-- While the rings do not run, the bases are free. -/
theorem Port.rebase_legal {x : Port} (hr : x.running = false) (c r : Dword) :
    x.KeepsLegal { x with cmdBase := c, replyBase := r } := by
  intro hx
  exact ⟨fun h => by simp [hr] at h, hx.2⟩

theorem execCmdDoorbell_effect (p : Nat) (v : Word) (s : State) : Effect s (execCmdDoorbell p v s) :=
  .ite (.ite (.register p _ id) (.event _)) .idle

theorem execReplyConsumed_effect (p : Nat) (v : Word) (s : State) : Effect s (execReplyConsumed p v s) :=
  .ite (.ite (.register p _ id) (.event _)) .idle

theorem execRingEnable_effect (p : Nat) (s : State) : Effect s (execRingEnable p s) :=
  .ite (.cases (fun _ => .idle) (fun he => .register p _ (Port.start_legal (by simpa using he)))) .idle

theorem execRegisterWrite_effect (p o : Nat) (v : Dword) (s : State) : Effect s (execRegisterWrite p o v s) :=
  .ite (.cases (fun _ => .idle) (fun hr =>
    .ite (.register p _ (Port.rebase_legal (by simpa using hr) v _))
      (.ite (.register p _ (Port.rebase_legal (by simpa using hr) _ v)) .idle))) .idle

theorem execHbmPoisonRead_effect (a : Nat) (symbols : List Nat) (reader : PoisonReader) (s : State) :
    Effect s (execHbmPoisonRead a symbols reader s) := by
  unfold execHbmPoisonRead
  split
  · exact .event _
  · split
    · exact .event _
    · exact .fault _

theorem execHbmPatrol_effect (a : Nat) (symbols : List Nat) (s : State) : Effect s (execHbmPatrol a symbols s) := by
  unfold execHbmPatrol
  split
  · exact .fault _
  · exact .event _

/-- Every row is one of these. -/
theorem exec_effect (i : Instr) (s : State) : Effect s (exec i s) := by
  rcases hr : ringCommand i with _ | ⟨h, op, own⟩
  case some =>
    obtain ⟨c, -, -, hx⟩ := exec_ringCommand hr
    exact hx s ▸ .command h c
  cases i with
  | planUnloadComplete =>
    show Effect s (execPlanUnloadComplete s)
    unfold execPlanUnloadComplete
    split
    · exact .event _
    · exact .idle
  | pllLockLoss pll =>
    cases pll with
    | port n => exact .link s n _
    | _ => exact .event _
  | ownerLapse | hearthBeat | hearthLockstepMismatch | debugToken | ringDisable => exact .ite (.event _) .idle
  | linkDown | hotReset | functionLevelReset | conventionalReset | ideFail | keyExchange | ideKmKeyProg | kSetGo
  | getMeasurements => exact .link s _ _
  | hbmPatrol => exact execHbmPatrol_effect _ _ s
  | hbmPoisonRead => exact execHbmPoisonRead_effect _ _ _ s
  | cmdDoorbell => exact execCmdDoorbell_effect _ _ s
  | replyConsumed => exact execReplyConsumed_effect _ _ s
  | ringEnable => exact execRingEnable_effect _ s
  | registerWrite => exact execRegisterWrite_effect _ _ _ s
  | sidebandCommand packet => exact .ite (.sideband packet) .idle
  | sidebandBufferRead | entdaa | setdasa | setaasa | rstdaa | getpid | getbcr | getdcr | getstatus | getmwl | getmrl =>
    exact .i3c s _
  | benchRead => exact .ite .idle (.ite (.bench s _) (.bench s _))
  | benchStatusRead => exact .bench s _
  | _ => simp [ringCommand] at hr <;> exact .event _

/-! ### Legal states (spec 15, R465, R470) -/

/-- The host's side of a legal state. -/
structure HostIo.Legal (io : HostIo) : Prop where
  host : Memory.wf io.mem = true
  port0 : io.p0.Legal
  port1 : io.p1.Legal

theorem State.Settled.legal {s : State} (hs : s.Settled) : s.io.Legal := ⟨hs.host, hs.port0, hs.port1⟩

theorem Port.reset_legal : Port.reset.Legal := ⟨by simp [Port.reset], fun _ => rfl⟩

theorem Port.stop_legal (x : Port) : x.stop.Legal := ⟨by simp [Port.stop], fun _ => rfl⟩

/-- A port that is owed nothing new, or whose rings run, may change what it is owed. -/
theorem Port.Legal.owe {x : Port} (hx : x.Legal) {l : List Owed} (hl : x.running = false → l = []) :
    Port.Legal { x with owed := l } := ⟨hx.1, hl⟩

theorem dropOwed_nil (tag : Word) (op : Nat) : dropOwed tag op [] = [] := rfl

namespace HostIo.Legal

variable {io : HostIo}

theorem port (h : io.Legal) (p : Nat) : (io.port p).Legal := by
  unfold HostIo.port; split
  · exact h.port0
  · exact h.port1

theorem setPort (h : io.Legal) {p : Nat} {x : Port} (hx : x.Legal) : (io.setPort p x).Legal := by
  unfold HostIo.setPort; split
  · exact ⟨h.host, hx, h.port1⟩
  · exact ⟨h.host, h.port0, hx⟩

theorem attend (h : io.Legal) (o : Outbox) : (io.attend o).Legal :=
  ⟨h.host, h.port0, h.port1⟩

theorem store (h : io.Legal) (ws : List HostWrite) : (io.store ws).Legal :=
  ⟨HostIo.store_wf ws io h.host, h.port0, h.port1⟩

theorem putReply (h : io.Legal) (k : Nat) (r : Reply) : (io.putReply k r).Legal := by
  unfold HostIo.putReply
  dsimp only
  split
  · have hmem (a : Nat) (bs : Bytes) : HostIo.Legal { io with mem := putBytes io.mem a bs } :=
      ⟨putBytes_wf _ _ _ h.host, h.port0, h.port1⟩
    exact (hmem _ _).setPort ((h.port r.port))
  · exact h

theorem putCompletion (h : io.Legal) (r : Reply) : (io.putCompletion r).Legal := by
  unfold HostIo.putCompletion
  dsimp only
  split
  · refine (h.setPort ((h.port r.port).owe fun hr => ?_)).putReply 1 r
    rw [(h.port r.port).2 hr, dropOwed_nil]
  · exact h

theorem putCompletions : ∀ (ks : List Reply) {io : HostIo}, io.Legal → (ks.foldl HostIo.putCompletion io).Legal
  | [], _, h => h
  | r :: ks, _, h => putCompletions ks (h.putCompletion r)

theorem settle (h : io.Legal) (o : Outbox) : (io.settle o).Legal := by
  have fix (p : Nat) (x : Port) (hx : x.Legal) :
      Port.Legal (if o.portsReset then Port.reset else
        if p ∈ o.attnClear then { (if p ∈ o.ringsOff then x.stop else x) with attn := 0 }
        else if p ∈ o.ringsOff then x.stop else x) := by
    have hstop : (if p ∈ o.ringsOff then x.stop else x).Legal := by
      split
      · exact x.stop_legal
      · exact hx
    split
    · exact Port.reset_legal
    · split
      · exact hstop
      · exact hstop
  exact ⟨h.host, fix 0 _ h.port0, fix 1 _ h.port1⟩

end HostIo.Legal

/-- Whatever is handed over, a legal state stands after it. -/
theorem State.flush_settled {s : State} (h : s.io.Legal) : s.flush.Settled := by
  have hio : s.flush.io.Legal := (((h.attend _).store _).putCompletions _).settle _
  exact ⟨s.flush_out, hio.host, hio.port0, hio.port1⟩

/-- A reply is written by rings that run, so a debt that it leaves is one of rings that run. -/
theorem State.answer_settled {s : State} {h : Cmd} (hl : s.io.Legal) (hr : (s.io.port h.port).running = true) (op : Nat) (a : Ans) :
    (s.answer h op a).Settled := by
  have hreply : HostIo.Legal (((s.io.attend a.m.out).store a.m.out.host).putReply 0 ⟨h.port, h.tag, op, a.cls, a.detail, a.result⟩) :=
    ((hl.attend _).store _).putReply _ _
  have hrun : ((((s.io.attend a.m.out).store a.m.out.host).putReply 0
      ⟨h.port, h.tag, op, a.cls, a.detail, a.result⟩).port h.port).running = true := by
    have hattend : ((s.io.attend a.m.out).port h.port).running = true := by
      rw [← hr]; unfold HostIo.port HostIo.attend; split <;> rfl
    unfold HostIo.putReply
    simp [hattend]
  refine State.flush_settled ?_
  dsimp only
  split
  · exact hreply.setPort ((hreply.port h.port).owe fun hf => by rw [hrun] at hf; cases hf)
  · exact hreply

theorem runCmd_settled {s : State} (hs : s.Settled) (h : Cmd) (c : CmdSpec) : (runCmd h c s).Settled := by
  unfold runCmd
  split
  next hf =>
    split
    · have hrun : (s.io.port h.port).running = true := by
        simp only [State.fetches, Bool.and_eq_true] at hf
        exact hf.1.2
      have hio : (s.consume h.port).io.Legal := by
        unfold State.consume
        exact hs.legal.setPort ((hs.legal.port h.port))
      exact State.answer_settled hio (by simpa [State.consume] using hrun) _ _
    · exact ⟨hs.quiet, hs.host, hs.port0, hs.port1⟩
  next => exact hs

theorem State.sideCommand_settled {s : State} (hs : s.Settled) (packet : Bytes) : (s.sideCommand packet).Settled := by
  have hio : (s.sideCommand packet).io.Legal := hs.legal.attend _
  refine ⟨?_, hio.host, hio.port0, hio.port1⟩
  unfold State.sideCommand
  dsimp only
  split <;> rfl

/-- Every effect of a row leaves a legal state. -/
theorem Effect.settled {s t : State} (hs : s.Settled) {o : Out} (he : Effect s o) (ht : o = .next t) : t.Settled := by
  cases he with
  | idle => cases ht; exact hs
  | command h c => cases ht; exact runCmd_settled hs h c
  | event f => cases ht; exact State.flush_settled hs.legal
  | register p x hx =>
    cases ht
    have hio := hs.legal.setPort (p := p) (hx (hs.legal.port p))
    exact ⟨hs.quiet, hio.host, hio.port0, hio.port1⟩
  | sideband packet => cases ht; exact State.sideCommand_settled hs packet
  | pins x a => cases ht; exact ⟨hs.quiet, hs.host, hs.port0, hs.port1⟩
  | fault e => cases ht

/-- Settles O57: a step idles or runs a row, and a row is one of the forms of `Effect`. -/
theorem everyStepLeavesALegalState : Obligations.EveryStepLeavesALegalState := by
  intro s t hs ht
  unfold step at ht
  split at ht
  next => cases ht; exact hs
  next i rest _ =>
    have hrest : State.Settled { s with pending := rest } := ⟨hs.quiet, hs.host, hs.port0, hs.port1⟩
    exact (exec_effect i _).settled hrest ht

/-- Settles O56: both queues by the definition of a step. -/
theorem stepRunsTheFrontCommand : Obligations.StepRunsTheFrontCommand :=
  ⟨fun _ _ _ => rfl, fun s hp => by unfold step; rw [hp]⟩

theorem HostIo.port_reset (p : Nat) : State.reset.io.port p = Port.reset := by
  unfold HostIo.port; split <;> rfl

/-- Settles O58: every part is a value of the reset state; its memory by `State.reset_canonical`. -/
theorem resetIsALegalState : Obligations.ResetIsALegalState := by
  refine ⟨⟨rfl, rfl, Port.reset_legal, Port.reset_legal⟩, State.reset_canonical, rfl, rfl, fun p => ?_⟩
  rw [HostIo.port_reset]
  exact ⟨rfl, rfl, rfl, rfl, rfl, rfl, rfl, rfl⟩

end Sys2Proof.Machine


/-! PROOFS. The frame of the ring commands: fetch, room and the checks of R474 (O59). -/
namespace Sys2Proof.Machine

section
variable {h : Cmd} {c : CmdSpec} {s : State}

/-- A packet that cannot be fetched changes nothing (spec 15, R467, R471, R485). -/
theorem runCmd_unfetched (hf : s.fetches h.port = false) : runCmd h c s = s := by simp [runCmd, hf]

/-- A packet without room for its replies counts a stall and is not taken (spec 15, R469). -/
theorem runCmd_stalls (hf : s.fetches h.port = true) (hr : (s.io.port h.port).hasRoom = false) :
    runCmd h c s = { s with m := s.m.count Cnt.replyStall 1 } := by simp [runCmd, hf, hr]

/-- A packet that is fetched with room and whose checks answer REJECTED: its reply, and of the module its count alone. -/
theorem runCmd_rejects {d : Nat} (hf : s.fetches h.port = true) (hr : (s.io.port h.port).hasRoom = true) (hq : s.Quiet)
    (hj : c.judge h (s.found h) = Ans.rejected (s.found h) d) :
    Answered s (runCmd h c s) h 0 [] c.opcode Cls.rejected d [] ∧ (runCmd h c s).m = (s.found h).count Cnt.cmdRejected 1 := by
  have hrun : (s.io.port h.port).running = true := by
    simp only [State.fetches, Bool.and_eq_true] at hf
    exact hf.1.2
  have hguard : (Ans.rejected (s.found h) d).guard c.opcode (s.found h) = Ans.rejected (s.found h) d := by
    unfold Ans.guard; split <;> rfl
  have hx : runCmd h c s = (s.consume h.port).answer h c.opcode (Ans.rejected (s.found h) d) := by
    rw [← hguard, ← hj]
    simp [runCmd, hf, hr, State.found]
  rw [hx, State.answer_rejected hrun ((s.found_out h).trans hq)]
  exact ⟨⟨rfl, rfl⟩, rfl⟩

end

section
variable {c : CmdSpec} {h : Cmd} {m : Mod}

/-- Check 2 of R474. -/
theorem CmdSpec.judge_reserved (hr : h.rsv ≠ 0 ∨ c.reserved = true) : c.judge h m = Ans.rejected m Detail.badReserved :=
  if_pos hr

/-- Check 3 of R474, after check 2. -/
theorem CmdSpec.judge_notOwner (ho : c.ownerOnly = true) (hm : m.ctl.owner ≠ some h.port) :
    c.judge h m = Ans.rejected m Detail.badReserved ∨ c.judge h m = Ans.rejected m Detail.notOwner := by
  by_cases hr : h.rsv ≠ 0 ∨ c.reserved = true
  · exact .inl (judge_reserved hr)
  · exact .inr ((if_neg hr).trans (if_pos (.inl ⟨ho, hm⟩)))

/-- A module state that does not accept the opcode answers REJECTED, by check 5 or an earlier one (spec 15, R474, R485). -/
theorem CmdSpec.judge_unaccepted (ha : m.ctl.state.accepts c.opcode = false) : ∃ d, c.judge h m = Ans.rejected m d := by
  unfold CmdSpec.judge
  split
  · exact ⟨_, rfl⟩
  split
  · exact ⟨_, rfl⟩
  split
  · exact ⟨_, rfl⟩
  · exact ⟨Detail.badState, by simp [ha]⟩

end

/-- Settles O59: every ring command runs in one frame (`exec_ringCommand`), whose checks answer as R474 orders them. -/
theorem ringCommandsAreChecked : Obligations.RingCommandsAreChecked := by
  intro i h op own hi s
  obtain ⟨c, rfl, rfl, hx⟩ := exec_ringCommand hi
  refine ⟨fun hf => by rw [hx, runCmd_unfetched hf], fun hf hr => by rw [hx, runCmd_stalls hf hr], fun hf hr hq => ?_⟩
  have rejects {d : Nat} (hj : c.judge h (s.found h) = Ans.rejected (s.found h) d) :=
    (⟨_, hx s, runCmd_rejects hf hr hq hj⟩ : Rejects i s h c.opcode d)
  refine ⟨fun hrsv => rejects (CmdSpec.judge_reserved (.inl hrsv)), fun ho hown => ?_, fun ha => ?_⟩
  · exact (CmdSpec.judge_notOwner ho (by simpa using hown)).imp rejects rejects
  · obtain ⟨d, hj⟩ := CmdSpec.judge_unaccepted (c := c) (h := h) (m := s.found h) (by simpa using ha)
    exact ⟨d, rejects hj⟩

end Sys2Proof.Machine


/-! PROOFS. Commands that answer what the module holds: status, counters, records, ownership (O1, O3, O4, O5). -/
namespace Sys2Proof.Machine

/-! ### What a command finds -/

theorem State.found_regionBytes (s : State) (h : Cmd) (id : Nat) : (s.found h).regionBytes id = s.m.regionBytes id := by
  obtain ⟨_, _, hf⟩ := s.found_eq h; rw [hf]; rfl
theorem State.found_usable (s : State) (h : Cmd) (core : Nat) : (s.found h).usable core = s.m.usable core := by
  obtain ⟨_, _, hf⟩ := s.found_eq h; rw [hf]; rfl
theorem State.found_timeState (s : State) (h : Cmd) : (s.found h).fab.timeState = s.m.fab.timeState := by
  obtain ⟨_, _, hf⟩ := s.found_eq h; rw [hf]; rfl
theorem State.found_parentRole (s : State) (h : Cmd) : (s.found h).fab.parentRole = s.m.fab.parentRole := by
  obtain ⟨_, _, hf⟩ := s.found_eq h; rw [hf]; rfl
theorem State.found_time (s : State) (h : Cmd) : (s.found h).fab.time = s.m.fab.time := by
  obtain ⟨_, _, hf⟩ := s.found_eq h; rw [hf]; rfl

theorem State.found_counterEntry (s : State) (h : Cmd) (id : Nat) : (s.found h).counterEntry id = s.m.counterEntry id := by
  obtain ⟨_, _, hf⟩ := s.found_eq h; rw [hf]; rfl

/-! ### Commands that write their buffer -/

/-- A module that hands nothing over is its own shape with an empty outbox. -/
theorem Mod.out_empty {m : Mod} (hm : m.out = Outbox.empty) : { m with out := Outbox.empty } = m := by rw [← hm]

theorem bufParams_none {h : Cmd} {len : Nat} {bad : Bool} {m : Mod} (hbad : bad = false) (hb : m.bufferOk h len true = true) :
    bufParams h len bad m = none := by simp [bufParams, hbad, hb]

/-- What the host sees of a command that starts, whose checks pass and whose effect, beside its buffer, is the module m. -/
theorem State.Starts.replies_buffer {i : Instr} {s : State} {h : Cmd} {c : CmdSpec} {result : Bytes} {m n : Mod} {ws : List HostWrite}
    (hs : s.Starts h) (hx : exec i s = .next (runCmd h c s)) (ha : s.accepts c.opcode)
    (ho : c.ownerOnly = true → s.m.ctl.owner = some h.port) (hres : c.reserved = false)
    (hforb : c.forbidden (s.found h) = false) (hpar : c.params (s.found h) = none)
    (hrun : c.run (s.found h) = Ans.ok n result) (hout : n.out = { s.m.out with host := s.m.out.host ++ ws })
    (hm : { n with out := s.m.out } = m) : Replies i s h 0 ws c.opcode Cls.ok result m := by
  have hq : s.m.out = Outbox.empty := hs.quiet
  rw [hq] at hout hm
  obtain ⟨hans, hmod⟩ := runCmd_runs hs hres (by simpa using ho) hforb hpar (by simpa using ha.1) (by simpa using ha.2) hrun
    (show Cls.ok ≠ Cls.rejected by decide) (show Cls.ok ≠ Cls.busy by decide)
    (by simp only [Ans.ok, hout]; exact ⟨by simp [Outbox.empty], rfl, rfl, rfl⟩) (by simp only [Ans.ok, hout]; rfl)
    (by simp only [Ans.ok, hout]; rfl)
  simp only [Ans.ok, hout] at hans
  exact ⟨_, hx, hans, hmod.trans hm⟩

/-- Fresh FEC counts change nothing but the channels and the draws (spec 10, R349). -/
theorem Mod.countFec_keeps (m : Mod) : m.countFec.out = m.out ∧ m.countFec.regions = m.regions := by
  unfold Mod.countFec
  exact ⟨foldl_keeps Mod.out (fun _ _ => by rfl) _ m, foldl_keeps Mod.regions (fun _ _ => by rfl) _ m⟩

/-- The rounding of θ changes nothing but the draws (assumption log 3). -/
theorem Mod.thetaNs_keeps (m : Mod) : m.thetaNs.2.out = m.out ∧ m.thetaNs.2.fab = m.fab := by
  unfold Mod.thetaNs; split <;> exact ⟨rfl, rfl⟩

/-- A buffer lies in a region of the table, and the word for no buffer names none. -/
theorem Mod.bufferOk_noBuffer {m : Mod} {h : Cmd} {len : Nat} {w : Bool} (hp : h.port < 2) (hb : m.bufferOk h len w = true) :
    noBuffer h = false := by
  have hcov : m.regionCovers h.port h.bufRegion.toNat h.bufOffset.toNat len w = true :=
    (if_neg (show ¬ h.port = 2 by omega)).symm.trans hb
  have hid : h.bufRegion.toNat < 4096 := by
    simp only [Mod.regionCovers, Bool.and_eq_true, decide_eq_true_eq] at hcov
    exact hcov.1.1.1.1
  have hne : h.bufRegion ≠ 0xFFFF#16 := by rintro e; rw [e] at hid; exact absurd hid (by decide)
  simp [noBuffer, hne]

section
variable {s : State} {h : Cmd} (hs : s.Starts h)
include hs

theorem State.Starts.writeBuffer_out {n : Mod} (hn : n.out = s.m.out) (bs : Bytes) :
    (n.writeBuffer h bs).out = { s.m.out with host := s.m.out.host ++ n.bufferWrite h bs } := by
  rw [Mod.writeBuffer_of_port hs.port_lt, hn]

theorem State.Starts.writeBuffer_back {n : Mod} (hn : n.out = s.m.out) (bs : Bytes) :
    { n.writeBuffer h bs with out := s.m.out } = n := by
  rw [Mod.writeBuffer_of_port hs.port_lt, ← hn]

theorem State.Starts.counterRead {first count : Half} {flags : Byte} (ha : s.accepts Op.counterRead) (h0 : count ≠ 0#16)
    (hn : count.toNat ≤ 256) (hsum : first.toNat + count.toNat ≤ 0x10000) (hf : flags.toNat ≤ 1)
    (hown : flags.toNat = 1 → s.m.ctl.owner = some h.port) (hb : (s.found h).bufferOk h (16 * count.toNat) true = true) :
    Replies (.counterRead h first count flags) s h 0
      ((s.found h).bufferWrite h ((List.range count.toNat).map (fun i => (s.found h).counterEntry (first.toNat + i))).flatten)
      Op.counterRead Cls.ok (leBytes 2 count.toNat)
      (if flags.toNat = 1 then (s.found h).clearCounters first.toNat count.toNat else s.found h) := by
  refine (hs.replies_buffer (i := .counterRead h first count flags) (c := counterReadSpec h first count flags) rfl ha
    (fun ho => nomatch ho) (by simpa [counterReadSpec] using hf) (by simpa [counterReadSpec] using hown)
    (bufParams_none (by simp [h0, hn, hsum]) hb) rfl ?_ ?_ :)
  · split <;> exact hs.writeBuffer_out (s.found_out h) _
  · split
    · rw [Mod.writeBuffer_of_port hs.port_lt, ← s.found_out h]; rfl
    · exact hs.writeBuffer_back (s.found_out h) _

theorem State.Starts.faultLogRead {first : Word} {n : Half} (ha : s.accepts Op.faultLogRead) (h0 : n ≠ 0#16) (hn : n.toNat ≤ 4096)
    (hb : (s.found h).bufferOk h (64 * n.toNat) true = true) :
    Replies (.faultLogRead h first n) s h 0
      ((s.found h).bufferWrite h (((s.found h).log.select first n.toNat).map FaultRec.bytes).flatten) Op.faultLogRead Cls.ok
      (leBytes 2 ((s.found h).log.select first n.toNat).length ++ zeros 2
        ++ leBytes 4 (match (s.found h).log.recs with | r :: _ => r.serial | [] => (s.found h).log.next).toNat)
      { s.found h with log := (s.found h).log.mark (((s.found h).log.select first n.toNat).map (·.serial)) } := by
  refine (hs.replies_buffer (i := .faultLogRead h first n) (c := faultLogReadSpec h first n) rfl ha (fun ho => nomatch ho) rfl rfl
      (bufParams_none (by simp [h0, hn]) hb) rfl ?_ ?_ :)
  · exact hs.writeBuffer_out (s.found_out h) _
  · rw [Mod.writeBuffer_of_port hs.port_lt, ← s.found_out h]

theorem State.Starts.ashRead {first n : Word} (ha : s.accepts Op.ashRead) (h0 : n ≠ 0#32) (hn : n.toNat ≤ 65536)
    (hb : (s.found h).bufferOk h (64 * n.toNat) true = true) :
    Replies (.ashRead h first n) s h 0 ((s.found h).bufferWrite h ((s.found h).ash.select first n.toNat).flatten) Op.ashRead Cls.ok
      (leBytes 4 ((s.found h).ash.select first n.toNat).length ++ leBytes 4 (s.found h).ash.oldest.toNat
        ++ leBytes 4 (s.found h).ash.newest.toNat) (s.found h) :=
  (hs.replies_buffer (i := .ashRead h first n) (c := ashReadSpec h first n) rfl ha (fun ho => nomatch ho) rfl rfl
    (bufParams_none (by simp [h0, hn]) hb) rfl (hs.writeBuffer_out (s.found_out h) _) (hs.writeBuffer_back (s.found_out h) _) :)

theorem State.Starts.railStatus (ha : s.accepts Op.railStatus) (hb : (s.found h).bufferOk h 560 true = true) :
    Replies (.railStatus h) s h 0 ((s.found h).bufferWrite h ((s.found h).railStatus (s.found h).free)) Op.railStatus Cls.ok []
      { s.found h with
        free := (s.found h).free + 256,
        pwr := { (s.found h).pwr with guard := { (s.found h).pwr.guard with iinPeak := (s.found h).pwr.guard.iin } } } := by
  refine (hs.replies_buffer (i := .railStatus h) (c := railStatusSpec h) rfl ha (fun ho => nomatch ho) rfl rfl
    (bufParams_none rfl hb) rfl ?_ ?_ :)
  · exact hs.writeBuffer_out (s.found_out h) _
  · rw [Mod.writeBuffer_of_port hs.port_lt, ← s.found_out h]

theorem State.Starts.regionQuery_plain {id : Half} (ha : s.accepts Op.regionQuery) (hid : id.toNat ≤ 4095) (hb : noBuffer h = true) :
    Replies (.regionQuery h id) s h 0 [] Op.regionQuery Cls.ok
      (((s.found h).regionBytes id.toNat).take 8 ++ ((s.found h).regionBytes id.toNat).drop 0x18) (s.found h) :=
  (hs.replies (i := .regionQuery h id) rfl ha (fun ho => nomatch ho) rfl rfl (by simp [hb, hid]) (by simp only [hb, if_true]; rfl)
    (.inl rfl) (s.found_out h) :)

theorem State.Starts.regionQuery_buffer {id : Half} (ha : s.accepts Op.regionQuery) (hid : id.toNat ≤ 4095)
    (hb : (s.found h).bufferOk h 32 true = true) :
    Replies (.regionQuery h id) s h 0 ((s.found h).bufferWrite h ((s.found h).regionBytes id.toNat)) Op.regionQuery Cls.ok
      (((s.found h).regionBytes id.toNat).take 8 ++ ((s.found h).regionBytes id.toNat).drop 0x18) (s.found h) := by
  have hno := Mod.bufferOk_noBuffer hs.port_lt hb
  exact (hs.replies_buffer (i := .regionQuery h id) rfl ha (fun ho => nomatch ho) rfl rfl (by simp [hb, hno, hid])
    (by simp only [hno]; rfl) (hs.writeBuffer_out (s.found_out h) _) (hs.writeBuffer_back (s.found_out h) _) :)

theorem State.Starts.channelStatus (ha : s.accepts Op.channelStatus) (hb : (s.found h).bufferOk h 896 true = true) :
    Replies (.channelStatus h) s h 0
      ((s.found h).bufferWrite h ((List.range 28).map (s.found h).countFec.channelEntry).flatten)
      Op.channelStatus Cls.ok [] (s.found h).countFec := by
  have hout := (s.found h).countFec_keeps.1.trans (s.found_out h)
  rw [show Mod.bufferWrite (s.found h) = Mod.bufferWrite (s.found h).countFec by
    funext; simp only [Mod.bufferWrite, (s.found h).countFec_keeps.2]]
  exact (hs.replies_buffer (i := .channelStatus h) (c := channelStatusSpec h) rfl ha (fun ho => nomatch ho) rfl rfl
    (bufParams_none rfl hb) rfl (hs.writeBuffer_out hout _) (hs.writeBuffer_back hout _) :)

theorem State.Starts.identify (ha : s.accepts Op.identify) (hb : noBuffer h = true) :
    Replies (.identify h) s h 0 [] Op.identify Cls.ok (s.found h).identity (s.found h) :=
  (hs.replies (i := .identify h) (c := identifySpec h) rfl ha (fun ho => nomatch ho) rfl rfl (plainParams_none hb rfl (s.found h)) rfl
    (.inl rfl) (s.found_out h) :)

theorem State.Starts.timebaseStatus (ha : s.accepts Op.timebaseStatus) (hb : noBuffer h = true) :
    Replies (.timebaseStatus h) s h 0 [] Op.timebaseStatus Cls.ok
      ([BitVec.ofNat 8 (TimeSt.code (s.found h).thetaNs.2.fab.timeState), BitVec.ofNat 8 (s.found h).thetaNs.2.fab.parentRole]
        ++ zeros 2 ++ leBytes 4 (unsigned 32 (s.found h).thetaNs.1) ++ leBytes 8 (s.found h).thetaNs.2.fab.time)
      (s.found h).thetaNs.2 :=
  (hs.replies (i := .timebaseStatus h) (c := timebaseStatusSpec h) rfl ha (fun ho => nomatch ho) rfl rfl
    (plainParams_none hb rfl (s.found h)) rfl (.inl rfl) ((s.found h).thetaNs_keeps.1.trans (s.found_out h)) :)

end

theorem ne_zero_of_toNat_pos {k : Nat} {x : BitVec k} (hx : 0 < x.toNat) : x ≠ 0#k := by
  rintro rfl; simp at hx

/-- Settles O3: each command has its own equation above. -/
theorem recordCommandsWriteBuffer : Obligations.RecordCommandsWriteBuffer := by
  intro s h hs
  refine ⟨fun first count flags ha h0 hn hsum hf hown hb => ?_, fun first n ha h0 hn hb => ?_, fun first n ha h0 hn hb => ?_,
    fun ha hb => ?_, fun id ha hid hb => ?_, fun id ha hid hb => ?_, fun ha hb => hs.channelStatus ha hb, fun ha hb => ?_,
    fun ha hb => ?_⟩
  · simpa only [State.found_counterEntry] using hs.counterRead ha (ne_zero_of_toNat_pos h0) hn hsum hf hown hb
  · have hread := hs.faultLogRead (first := first) ha (ne_zero_of_toNat_pos h0) hn hb
    rw [State.found_log] at hread
    exact hread
  · simpa only [State.found_ash] using hs.ashRead ha (ne_zero_of_toNat_pos h0) hn hb
  · simpa only [State.found_free, State.found_pwr] using hs.railStatus ha hb
  · simpa only [State.found_regionBytes] using hs.regionQuery_plain ha hid hb
  · simpa only [State.found_regionBytes] using hs.regionQuery_buffer ha hid hb
  · simpa only [Mod.identity, population, State.found_usable, State.found_fw] using hs.identify ha hb
  · simpa only [((s.found h).thetaNs_keeps).2, State.found_timeState, State.found_parentRole, State.found_time]
      using hs.timebaseStatus ha hb

/-! ### Status (O1) -/

/-- Settles O1: each command replies and changes nothing (`State.Starts.replies`). -/
theorem statusCommandsReply : Obligations.StatusCommandsReply := by
  intro s h hs hb
  refine ⟨fun ha => ?_, fun ha => ?_, fun ha => ?_⟩
  · exact (hs.replies (i := .nop h) (c := nopSpec h) rfl ha (fun ho => nomatch ho) rfl rfl (plainParams_none hb rfl (s.found h)) rfl
      (.inl rfl) (s.found_out h) :)
  · exact (hs.replies (i := .statusRead h) (c := statusReadSpec h) rfl ha (fun ho => nomatch ho) rfl rfl
      (plainParams_none hb rfl (s.found h)) rfl (.inl rfl) (s.found_out h) :)
  · rw [← s.found_ash h]
    exact (hs.replies (i := .ashStatus h) (c := ashStatusSpec h) rfl ha (fun ho => nomatch ho) rfl rfl
      (plainParams_none hb rfl (s.found h)) rfl (.inl rfl) (s.found_out h) :)

/-! ### Ownership (O4) -/

/-- A change of owner is a change of the control record and a count, with ATTN_OWNER handed over (spec 15, R482). -/
theorem Mod.setOwner_out {m : Mod} (hm : m.out = Outbox.empty) (o : Option Nat) :
    (m.setOwner o).out = { Outbox.empty with attn := Attn.owner } := by
  simp [Mod.setOwner, Mod.attention, hm, Outbox.empty]

/-- What the host sees of a command that changes the owner. -/
theorem State.Starts.changes_owner {i : Instr} {s : State} {h : Cmd} {c : CmdSpec} {result : Bytes} {o : Option Nat}
    (hs : s.Starts h) (hx : exec i s = .next (runCmd h c s)) (ha : s.accepts c.opcode)
    (ho : c.ownerOnly = true → s.m.ctl.owner = some h.port) (hres : c.reserved = false)
    (hforb : c.forbidden (s.found h) = false) (hpar : c.params (s.found h) = none)
    (hrun : c.run (s.found h) = Ans.ok ((s.found h).setOwner o) result) :
    Replies i s h Attn.owner [] c.opcode Cls.ok result
      (({ s.found h with ctl := { (s.found h).ctl with owner := o, lapsed := false, ownerIdleMs := 0 } }).count Cnt.ownerChange 1) := by
  have hq : (s.found h).out = Outbox.empty := (s.found_out h).trans hs.quiet
  refine hs.completes hx ha ho hres hforb hpar hrun (.inl rfl) (ks := []) (Mod.setOwner_out hq o) (by simp)
    (fun t hans hm => ⟨hans, hm.trans ?_⟩)
  rw [← hq]; rfl

/-- Settles O4: a claim and a yield by `State.Starts.changes_owner`, a lapse by what `Mod.lapse` does to an owner not lapsed. -/
theorem ownershipChangesHands : Obligations.OwnershipChangesHands := by
  intro s h hs hb
  refine ⟨fun ha hother hfree => ?_, fun ha hown => ?_, fun ha hown => ?_, fun hown hlapsed hidle => ?_⟩
  · have hfound : s.found h = s.m.fresh := if_neg hother
    have hclaim : (s.found h).ctl.owner = none ∨ (s.found h).ctl.lapsed = true := hfound ▸ hfree
    exact (hs.changes_owner (i := .ownerClaim h) rfl ha (fun ho => nomatch ho) rfl rfl (plainParams_none hb rfl (s.found h))
      ((if_neg (by simpa using hother)).trans (if_pos hclaim)) :)
  · exact (hs.replies (i := .ownerClaim h) rfl ha (fun ho => nomatch ho) rfl rfl (plainParams_none hb rfl (s.found h))
      (if_pos (by simpa using hown)) (.inl rfl) (s.found_out h) :)
  · exact (hs.changes_owner (i := .ownerYield h) rfl ha (fun _ => hown) rfl rfl (plainParams_none hb rfl (s.found h)) rfl :)
  · refine hs.quiet.happens_attention (f := Mod.lapse) (congrArg _ (if_pos hidle)) ?_ rfl
    simp [Mod.lapse, Option.isSome_iff_ne_none, hown, hlapsed]

/-! ### ATTN_ACK (O5) -/

/-- An acknowledgement of one port clears the bits in that port's copy before the reply is written (spec 15, R479). -/
theorem HostIo.attend_ack (io : HostIo) {p : Nat} (hp : p < 2) (mask : Byte) :
    io.attend { Outbox.empty with attnAck := [(p, mask)] }
      = io.setPort p { io.port p with attn := (io.port p).attn &&& ~~~mask } := by
  obtain rfl | rfl : p = 0 ∨ p = 1 := by omega
  all_goals simp [HostIo.attend, HostIo.setPort, HostIo.port, Outbox.empty]

/-- A reply touches its own port alone, and sets no attention bit of its own (spec 15, R475). -/
theorem HostIo.answered_ports (io : HostIo) (h : Cmd) (op cls detail : Nat) (result : Bytes) (hp : h.port < 2) :
    ((io.answered h 0 [] op cls detail result).port h.port).attn = (io.port h.port).attn
      ∧ (io.answered h 0 [] op cls detail result).port (1 - h.port) = io.port (1 - h.port) := by
  have hquiet : io.attend { Outbox.empty with attn := 0 } = io := io.attend_quiet rfl rfl rfl
  simp only [HostIo.answered, hquiet, HostIo.store_nil, HostIo.port_setPort]
  refine ⟨trivial, ?_⟩
  rw [HostIo.port_setPort_other _ _ (by omega)]
  rfl

/-- The state with the bits of a mask cleared in one port's copy. -/
def State.acked (s : State) (p : Nat) (mask : Byte) : State :=
  { s with io := s.io.setPort p { s.io.port p with attn := (s.io.port p).attn &&& ~~~mask } }

/-- An answer that acknowledges bits is the answer of the state in which they are clear. -/
theorem State.answer_ack {s : State} {h : Cmd} {op cls detail : Nat} {result : Bytes} {m : Mod} {mask : Byte} (hp : h.port < 2)
    (hm : m.out = Outbox.empty) :
    (s.consume h.port).answer h op ⟨cls, detail, result, { m with out := { m.out with attnAck := [(h.port, mask)] } }⟩
      = ((s.acked h.port mask).consume h.port).answer h op ⟨cls, detail, result, m⟩ := by
  have hio : (s.consume h.port).io.attend { Outbox.empty with attnAck := [(h.port, mask)] }
      = ((s.acked h.port mask).consume h.port).io.attend Outbox.empty := by
    rw [HostIo.attend_ack _ hp, HostIo.attend_quiet _ rfl rfl rfl]
    simp [State.consume, State.acked]
  unfold State.answer
  simp only [hm, hio]
  rfl

/-- An answer of class OK passes the guard of R474. -/
theorem Ans.guard_ok (m n : Mod) (result : Bytes) (op : Nat) : (Ans.ok m result).guard op n = Ans.ok m result :=
  if_neg (fun hc => by rcases hc.1 with e | e <;> exact absurd e (show Cls.ok ≠ _ by decide))

/-- Settles O5: the acknowledgement is done before the reply (`State.answer_ack`), which leaves the other port alone. -/
theorem attnAckClearsOneCopy : Obligations.AttnAckClearsOneCopy := by
  intro s h mask hs hb ha x
  have hp := hs.port_lt
  have hq : (s.found h).out = Outbox.empty := (s.found_out h).trans hs.quiet
  have hrun : ((s.acked h.port mask).io.port h.port).running = true := by simpa [State.acked] using hs.running
  have hans : exec (.attnAck h mask) s = .next { s.acked h.port mask with
      io := (s.acked h.port mask).io.answered h 0 [] Op.attnAck Cls.ok Detail.none [0], m := s.found h } := by
    show execAttnAck h mask s = _
    unfold execAttnAck
    rw [runCmd_starts hs, CmdSpec.judge_run hs.reserved rfl (by simp) rfl (plainParams_none hb rfl (s.found h))
      (by simpa using ha.1) (by simpa using ha.2), Ans.guard_ok]
    simp only [Ans.ok, hq, show Outbox.empty.attnAck = [] from rfl, List.nil_append]
    rw [← hq, State.answer_ack hp hq, State.answer_plain hrun (show Cls.ok ≠ Cls.rejected by decide) (hq ▸ Outbox.Plain.empty)
      (by rw [hq]; rfl) (by rw [hq]; rfl)]
    simp only [hq, Mod.out_empty hq]
    rfl
  obtain ⟨hattn, hother⟩ := (s.acked h.port mask).io.answered_ports h Op.attnAck Cls.ok Detail.none [0] hp
  refine ⟨_, hans, ⟨rfl, rfl⟩, ?_, ?_, rfl⟩
  · exact hattn.trans (by simp [State.acked, x])
  · exact hother.trans (HostIo.port_setPort_other _ _ (by omega))

end Sys2Proof.Machine


/-! PROOFS. Port registers: ring control, serials, ring bases (O7, O8, O9). -/
namespace Sys2Proof.Machine

/-! ### What an event hands over that touches registers -/

/-- The host's side after an event that writes nothing to host memory. -/
theorem State.event_io {s : State} {f : Mod → Mod} {o : Outbox} (ho : (f s.m.fresh).out = o) (hh : o.host = [])
    (hc : o.completions = []) : (s.event f).io = (s.io.attend o).settle o := by
  show HostIo.settle _ _ = _
  simp only [ho, hh, hc, List.foldl_nil, HostIo.store_nil]

/-- Attention in one port's copy (spec 15, R478). -/
theorem HostIo.attend_at (io : HostIo) {p : Nat} (hp : p < 2) (b : Byte) :
    io.attend { Outbox.empty with attnPort := [(p, b)] } = io.setPort p { io.port p with attn := (io.port p).attn ||| b } := by
  obtain rfl | rfl : p = 0 ∨ p = 1 := by omega
  all_goals simp [HostIo.attend, HostIo.setPort, HostIo.port, Outbox.empty]

/-- One port's rings stop (spec 15, R465). -/
theorem HostIo.settle_off (io : HostIo) {p : Nat} (hp : p < 2) :
    io.settle { Outbox.empty with ringsOff := [p] } = io.setPort p (io.port p).stop := by
  obtain rfl | rfl : p = 0 ∨ p = 1 := by omega
  all_goals simp [HostIo.settle, HostIo.setPort, HostIo.port, Outbox.empty]

theorem HostIo.dropped_one (io : HostIo) {p : Nat} (hp : p < 2) : io.dropped [p] = (io.port p).owed.length := by
  obtain rfl | rfl : p = 0 ∨ p = 1 := by omega
  all_goals simp [HostIo.dropped, HostIo.port]

/-- The module after an event that drops n completions and hands over none (spec 15, R465). -/
theorem State.event_drops {s : State} {f : Mod → Mod} {o : Outbox} {n : Nat} (ho : (f s.m.fresh).out = o)
    (hc : o.completions = []) (hn : (s.io.attend o).dropped o.ringsOff = n) :
    (s.event f).m = if n = 0 then { f s.m.fresh with out := Outbox.empty }
      else Mod.count { f s.m.fresh with out := Outbox.empty } Cnt.replyDropped n := by
  subst hn
  have hrej (io : HostIo) : io.rejections o = 0 := by simp [HostIo.rejections, hc]
  unfold State.event State.flush
  simp only [ho, hrej, hc, List.foldl_nil, if_true]
  rfl

/-! ### RING_CTRL (spec 15, R465) -/

theorem State.serves_lt {s : State} {p : Nat} (hs : s.serves p = true) : p < 2 := by
  simp only [State.serves, Bool.and_eq_true, decide_eq_true_eq] at hs
  exact hs.1.1

/-- Settles O7: enable by `Port.start`, disable by what an event that stops one port's rings hands over. -/
theorem ringControl : Obligations.RingControl := by
  intro s p hs x
  have hp := State.serves_lt hs
  refine ⟨fun he hb => ?_, fun he hb => ?_, fun hq => ?_⟩
  · simp [exec, execRingEnable, hs, he, hb, State.setPort, Port.start, x]
  · simp [exec, execRingEnable, hs, he, hb, State.setPort, Port.start, x]
  · have ho : ({ s.m.fresh with out := { s.m.fresh.out with ringsOff := s.m.fresh.out.ringsOff ++ [p] } } : Mod).out
        = { Outbox.empty with ringsOff := [p] } := by rw [s.m.fresh_out, show s.m.out = Outbox.empty from hq]; rfl
    have hattend : s.io.attend { Outbox.empty with ringsOff := [p] } = s.io := HostIo.attend_quiet _ rfl rfl rfl
    refine ⟨_, congrArg Host.Outcome.next (if_pos hs), ?_, ?_⟩
    · rw [State.event_io ho rfl rfl, hattend, HostIo.settle_off _ hp]
      rfl
    · have hn : (s.io.attend { Outbox.empty with ringsOff := [p] }).dropped [p] = (s.io.port p).owed.length := by
        rw [hattend, s.io.dropped_one hp]
      rw [State.event_drops ho rfl hn]
      simp only [List.length_eq_zero_iff, x, Mod.out_empty (m := s.m.fresh) hq]

/-! ### Serials (spec 15, R467, R469) -/

/-- A value out of range is counted, and ATTN_LOG is set in that port's copy alone. -/
theorem State.badSerial_eq {s : State} {p : Nat} (hq : s.Quiet) (hp : p < 2) :
    s.badSerial p = { s with
      io := s.io.setPort p { s.io.port p with attn := (s.io.port p).attn ||| Attn.log }
      m := s.m.fresh.count Cnt.doorbellBad 1 } := by
  have ho : ((s.m.fresh.attentionAt p Attn.log).count Cnt.doorbellBad 1).out = { Outbox.empty with attnPort := [(p, Attn.log)] } := by
    rw [Mod.count_out, Mod.attentionAt, s.m.fresh_out, show s.m.out = Outbox.empty from hq]; rfl
  unfold State.badSerial
  rw [State.event_plain s _ (by rw [ho]; exact ⟨by simp [Outbox.empty], rfl, rfl, rfl⟩), ho, s.io.attend_at hp]
  exact congrArg (State.mk s.pending _) (Mod.out_empty (m := s.m.fresh.count Cnt.doorbellBad 1) hq)

theorem Port.doorbellOk_iff {x : Port} {v : Word} :
    x.doorbellOk v = true ↔ 0 ≤ (v - x.consumed).toInt ∧ (v - x.consumed).toInt ≤ 4096 := by
  simp only [Port.doorbellOk, Bool.and_eq_true, decide_eq_true_eq]

theorem Port.replyConsumedOk_iff {x : Port} {v : Word} :
    x.replyConsumedOk v = true ↔ 0 ≤ (x.replyProduced - v).toInt ∧ (x.replyProduced - v).toInt ≤ 4096 := by
  simp only [Port.replyConsumedOk, Bool.and_eq_true, decide_eq_true_eq]

/-- Settles O8: a value is stored or refused as its range test says, and a refusal is `State.badSerial`. -/
theorem serialRegisters : Obligations.SerialRegisters := by
  intro s p v hs he x bad
  have hp := State.serves_lt hs
  have hbad (hq : s.Quiet) : bad (s.badSerial p) := by rw [State.badSerial_eq hq hp]; exact ⟨rfl, rfl⟩
  refine ⟨fun hv => ?_, fun hq hv => ⟨_, ?_, hbad hq⟩, fun hv => ?_, fun hq hv => ⟨_, ?_, hbad hq⟩⟩
  · simp [exec, execCmdDoorbell, hs, Port.doorbellOk_iff.2 hv, State.setPort, x]
  · have hno : (s.io.port p).doorbellOk v = false := Bool.eq_false_iff.2 (mt Port.doorbellOk_iff.1 hv)
    simp [exec, execCmdDoorbell, hs, he, hno]
  · simp [exec, execReplyConsumed, hs, Port.replyConsumedOk_iff.2 hv, State.setPort, x]
  · have hno : (s.io.port p).replyConsumedOk v = false := Bool.eq_false_iff.2 (mt Port.replyConsumedOk_iff.1 hv)
    simp [exec, execReplyConsumed, hs, he, hno]

/-! ### Ring bases (spec 15, R464, R465; spec 00, R21) -/

/-- Settles O9: each offset by its own branch of REGISTER_WRITE. -/
theorem registerWriteStoresBases : Obligations.RegisterWriteStoresBases := by
  intro s p v hs x
  refine ⟨fun (hr : (s.io.port p).running = false) => ⟨?_, ?_⟩, fun (hr : (s.io.port p).running = true) o => ?_, fun o h8 h10 => ?_⟩
  · simp [exec, execRegisterWrite, hs, hr, x, State.setPort]
  · simp [exec, execRegisterWrite, hs, hr, x, State.setPort]
  · simp [exec, execRegisterWrite, hs, hr]
  · simp [exec, execRegisterWrite, hs, h8, h10]

end Sys2Proof.Machine


/-! PROOFS. The hearth controller, link events, the mailbox, the sideband, the bench (O11 to O16). -/
namespace Sys2Proof.Machine

/-! ### The hearth controller (spec 15, R464, R471; spec 17, R518) -/

theorem State.powered_of {s : State} (h : s.m.ctl.state ≠ .off) : s.powered = true := by simp [State.powered, h]

/-- Both rings stop (spec 15, R471). -/
theorem HostIo.settle_both (io : HostIo) :
    io.settle { Outbox.empty with ringsOff := [0, 1] } = { io with p0 := io.p0.stop, p1 := io.p1.stop } := rfl

/-- Settles O11: the stop by `HostIo.settle_both`, the counted restart by its FENCE record. -/
theorem hearthControllerRestarts : Obligations.HearthControllerRestarts := by
  intro s hq
  refine ⟨fun hon => ?_, fun hon hup => ?_, fun hr => ?_, fun hr => ?_⟩
  · exact hq.happens (f := Mod.beat) (congrArg Host.Outcome.next (if_pos (State.powered_of hon))) rfl rfl
  · have ho : (s.m.fresh.hearthStops .lockstep).out = { Outbox.empty with ringsOff := [0, 1] } := by
      rw [Mod.hearthStops, s.m.fresh_out, show s.m.out = Outbox.empty from hq]; rfl
    refine ⟨s.event (fun m => m.hearthStops .lockstep),
      congrArg Host.Outcome.next (if_pos (by simp [State.powered_of hon, hup])), ?_, ?_⟩
    · rw [State.event_io ho rfl rfl, HostIo.attend_quiet _ rfl rfl rfl, HostIo.settle_both]
    · simp [Mod.hearthStops]
  · have hup : s.m.fresh.hearthUp = Mod.reportFault { s.m.fresh with ctl := { s.m.ctl with
        restart := none, restarts := min 0xFFFFFFFF (s.m.ctl.restarts + 1) } } restartRecord := by
      simp [Mod.hearthUp, hr]
    refine ⟨s.event Mod.hearthUp, rfl, State.event_observed (ks := []) ?_, ?_⟩
    · rw [hup]
      exact Mod.reportFault_out_quiet hq (by decide)
    · simp [hup]
  · exact hq.happens (f := Mod.hearthUp) rfl (by simp [Mod.hearthUp, hr]) rfl

/-! ### Link events (spec 15, R463; spec 17, R527) -/

/-- What the host sees of an event that ends port p and gives the other port's copy the bits of bs. -/
theorem State.event_endsPort {s : State} {f : Mod → Mod} {p : Nat} {a : Byte} {bs : List Byte} (hp : p < 2)
    (ho : (f s.m.fresh).out = { Outbox.empty with
      attn := a, attnPort := bs.map (fun b => (1 - p, b)), ringsOff := [p], attnClear := [p] }) :
    (s.event f).io.port p = { (s.io.port p).stop with attn := 0 }
      ∧ (s.event f).io.port (1 - p)
          = { s.io.port (1 - p) with attn := bs.foldl (· ||| ·) ((s.io.port (1 - p)).attn ||| a) }
      ∧ (s.event f).io.mem = s.io.mem := by
  rw [State.event_io ho rfl rfl]
  have hfold (q r : Nat) (x : Byte) : (bs.map (fun b => (q, b))).foldl (fun y e => if e.1 = r then y ||| e.2 else y) x
      = if q = r then bs.foldl (· ||| ·) x else x := by
    rw [List.foldl_map]
    by_cases h : q = r
    · simp only [if_pos h]
    · simp only [if_neg h]
      exact foldl_keeps id (fun _ _ => rfl) bs x
  obtain rfl | rfl : p = 0 ∨ p = 1 := by omega
  all_goals
    refine ⟨?_, ?_, rfl⟩
    all_goals simp [HostIo.settle, HostIo.attend, HostIo.port, Port.stop, Outbox.empty, hfold]

/-- A lapse marks the owner and may set ATTN_OWNER (spec 15, R482). -/
theorem Mod.lapse_marks {m : Mod} (ho : m.ctl.owner.isSome = true) :
    m.lapse.ctl = { m.ctl with lapsed := true }
      ∧ ∃ a, (a = 0 ∨ a = Attn.owner) ∧ m.lapse.out = { m.out with attn := m.out.attn ||| a } := by
  unfold Mod.lapse
  cases hl : m.ctl.lapsed
  · exact ⟨by simp [ho], Attn.owner, .inr rfl, by simp [ho, Mod.attention]⟩
  · refine ⟨?_, 0, .inl rfl, by simp⟩
    simp only [Bool.not_true, Bool.and_false, Bool.false_eq_true, if_false]
    rw [← hl]

theorem Mod.lapse_keeps (m : Mod) : m.lapse.regions = m.regions ∧ m.lapse.link0 = m.link0 ∧ m.lapse.link1 = m.link1
    ∧ m.lapse.plan = m.plan ∧ m.lapse.run = m.run ∧ m.lapse.hbm = m.hbm := by
  unfold Mod.lapse; split <;> exact ⟨rfl, rfl, rfl, rfl, rfl, rfl⟩

@[simp] theorem Mod.link_setLink (m : Mod) (p : Nat) (f : Link → Link) : (m.setLink p f).link p = f (m.link p) := by
  unfold Mod.setLink Mod.link; split <;> rfl

theorem Mod.link_setLink_other (m : Mod) {p q : Nat} (f : Link → Link) (h : p = 0 ↔ q ≠ 0) : (m.setLink p f).link q = m.link q := by
  unfold Mod.setLink Mod.link
  by_cases hp : p = 0 <;> by_cases hq : q = 0 <;> simp_all

/-- A link whose session and keys are gone (spec 17, R526). -/
def Link.ended (l : Link) : Link := { l with session := none, progKey := none, activeKey := none }

/-- What a link event leaves of the module (spec 15, R463). -/
structure Mod.LinkEnds (p : Nat) (m n : Mod) : Prop where
  regions : n.regions = (m.revokePort p).regions
  ctl : n.ctl = if m.ctl.owner = some p then { m.ctl with lapsed := true } else m.ctl
  link : n.link p = (m.link p).ended
  other : n.link (1 - p) = m.link (1 - p)
  plan : n.plan = m.plan
  run : n.run = m.run
  hbm : n.hbm = m.hbm

/-- The ownership of port p lapses with its link (spec 15, R463). -/
def Mod.lapseOf (m : Mod) (p : Nat) : Mod := if m.ctl.owner = some p then m.lapse else m

theorem Mod.lapseOf_keeps (m : Mod) (p : Nat) : (m.lapseOf p).regions = m.regions ∧ (m.lapseOf p).link0 = m.link0
    ∧ (m.lapseOf p).link1 = m.link1 ∧ (m.lapseOf p).plan = m.plan ∧ (m.lapseOf p).run = m.run ∧ (m.lapseOf p).hbm = m.hbm := by
  unfold Mod.lapseOf; split
  · exact m.lapse_keeps
  · exact ⟨rfl, rfl, rfl, rfl, rfl, rfl⟩

theorem Mod.lapseOf_marks (m : Mod) (p : Nat) :
    (m.lapseOf p).ctl = (if m.ctl.owner = some p then { m.ctl with lapsed := true } else m.ctl)
      ∧ ∃ a, (a = 0 ∨ a = Attn.owner) ∧ (m.lapseOf p).out = { m.out with attn := m.out.attn ||| a } := by
  unfold Mod.lapseOf; split
  next ho => exact Mod.lapse_marks (by rw [ho]; rfl)
  next => exact ⟨rfl, 0, .inl rfl, by simp⟩

theorem Mod.setLink_keeps (m : Mod) (p : Nat) (f : Link → Link) : (m.setLink p f).regions = m.regions ∧ (m.setLink p f).ctl = m.ctl
    ∧ (m.setLink p f).plan = m.plan ∧ (m.setLink p f).run = m.run ∧ (m.setLink p f).hbm = m.hbm ∧ (m.setLink p f).out = m.out := by
  unfold Mod.setLink; split <;> exact ⟨rfl, rfl, rfl, rfl, rfl, rfl⟩

/-- The module whose regions, ownership and IDE session of port p have ended. -/
def Mod.unlinked (m : Mod) (p : Nat) : Mod := ((m.revokePort p).lapseOf p).setLink p Link.ended

theorem Mod.linkDown_eq (m : Mod) (p : Nat) : m.linkDown p = { m.unlinked p with out := { (m.unlinked p).out with
    attnPort := (m.unlinked p).out.attnPort ++ [(1 - p, Attn.owner)]
    ringsOff := (m.unlinked p).out.ringsOff ++ [p]
    attnClear := (m.unlinked p).out.attnClear ++ [p] } } := rfl

theorem Mod.unlinked_ends (m : Mod) {p : Nat} (hp : p < 2) : Mod.LinkEnds p m (m.unlinked p) := by
  obtain ⟨hregions, hlink0, hlink1, hplan, hrun, hhbm⟩ := (m.revokePort p).lapseOf_keeps p
  obtain ⟨kregions, kctl, kplan, krun, khbm, -⟩ := ((m.revokePort p).lapseOf p).setLink_keeps p Link.ended
  have hlink (q : Nat) : ((m.revokePort p).lapseOf p).link q = m.link q := by unfold Mod.link; rw [hlink0, hlink1]; rfl
  exact ⟨kregions.trans hregions, kctl.trans ((m.revokePort p).lapseOf_marks p).1,
    (Mod.link_setLink _ p Link.ended).trans (congrArg Link.ended (hlink p)),
    (Mod.link_setLink_other _ Link.ended (by omega)).trans (hlink _), kplan.trans hplan, krun.trans hrun, khbm.trans hhbm⟩

theorem Mod.LinkEnds.handOver {p : Nat} {m n : Mod} (h : Mod.LinkEnds p m n) (o : Outbox) :
    Mod.LinkEnds p m { n with out := o } := ⟨h.regions, h.ctl, h.link, h.other, h.plan, h.run, h.hbm⟩

/-- The end of a port, in a module that hands over nothing else (spec 15, R463). -/
theorem Mod.linkDown_ends {m : Mod} {p : Nat} (hp : p < 2) (hm : m.out = Outbox.empty) :
    Mod.LinkEnds p m (m.linkDown p)
      ∧ ∃ a, (a = 0 ∨ a = Attn.owner) ∧ (m.linkDown p).out = { Outbox.empty with
          attn := a, attnPort := [(1 - p, Attn.owner)], ringsOff := [p], attnClear := [p] } := by
  refine ⟨m.linkDown_eq p ▸ (m.unlinked_ends hp).handOver _, ?_⟩
  obtain ⟨-, a, ha, hout⟩ := (m.revokePort p).lapseOf_marks p
  have hunlinked : (m.unlinked p).out = { Outbox.empty with attn := a } := by
    rw [Mod.unlinked, (Mod.setLink_keeps _ _ _).2.2.2.2.2, hout, show (m.revokePort p).out = Outbox.empty from hm]
    simp [Outbox.empty]
  exact ⟨a, ha, by rw [Mod.linkDown_eq, hunlinked]; rfl⟩

/-- Attention and a security entry on top of it leave the rest (spec 17, R527). -/
theorem Mod.LinkEnds.records {p q d v : Nat} {m n : Mod} (h : Mod.LinkEnds p m n) (b : Byte) (src : AshSrc) (hash : Bytes) :
    Mod.LinkEnds p m ((n.attentionAt q b).ashSecurity src d v hash) := by
  have hlink (r : Nat) : ((n.attentionAt q b).ashSecurity src d v hash).link r = n.link r := by simp [Mod.ashSecurity, Mod.link]
  constructor
  · simpa [Mod.ashSecurity] using h.regions
  · simpa [Mod.ashSecurity] using h.ctl
  · exact (hlink p).trans h.link
  · exact (hlink _).trans h.other
  · simpa [Mod.ashSecurity] using h.plan
  · simpa [Mod.ashSecurity] using h.run
  · simpa [Mod.ashSecurity] using h.hbm

/-- The bits of a lapse are among those of the end of a link. -/
theorem or_lapse {a : Byte} (ha : a = 0 ∨ a = Attn.owner) (x : Byte) : x ||| a ||| Attn.owner = x ||| Attn.owner := by
  rcases ha with rfl | rfl
  · simp
  · rw [BitVec.or_assoc, BitVec.or_self]

theorem exec_linkEvent {i : Instr} {s : State} {p : Nat} {f : Mod → Mod} (hx : exec i s = .next (s.linkEvent p f))
    (hon : s.m.ctl.state ≠ .off) (hp : p < 2) : exec i s = .next (s.event f) :=
  hx.trans (congrArg Host.Outcome.next (if_pos (by simp [State.powered_of hon, hp])))

/-- What a link event leaves of the state, once its bits are known. -/
theorem State.event_linkEnds {s : State} {f : Mod → Mod} {p : Nat} {a b : Byte} {bs : List Byte} (hp : p < 2)
    (he : Mod.LinkEnds p s.m.fresh (f s.m.fresh)) (ho : (f s.m.fresh).out = { Outbox.empty with
      attn := a, attnPort := bs.map (fun b => (1 - p, b)), ringsOff := [p], attnClear := [p] })
    (hb : ∀ x : Byte, bs.foldl (· ||| ·) (x ||| a) = x ||| b) :
    (s.event f).io.port p = { (s.io.port p).stop with attn := 0 }
      ∧ (s.event f).io.port (1 - p) = { s.io.port (1 - p) with attn := (s.io.port (1 - p)).attn ||| b }
      ∧ (s.event f).io.mem = s.io.mem
      ∧ (s.event f).m.regions = (s.m.revokePort p).regions
      ∧ (s.event f).m.ctl = (if s.m.ctl.owner = some p then { s.m.ctl with lapsed := true } else s.m.ctl)
      ∧ ((s.event f).m.link p).session = none ∧ ((s.event f).m.link p).activeKey = none
      ∧ (s.event f).m.link (1 - p) = s.m.link (1 - p)
      ∧ (s.event f).m.plan = s.m.plan ∧ (s.event f).m.run = s.m.run ∧ (s.event f).m.hbm = s.m.hbm := by
  obtain ⟨hport, hother, hmem⟩ := State.event_endsPort hp ho
  have hlink (q : Nat) : (s.event f).m.link q = (f s.m.fresh).link q := by simp [Mod.link]
  rw [hb] at hother
  simp only [State.event_regions, State.event_ctl, State.event_plan, State.event_run, State.event_hbm, hlink]
  exact ⟨hport, hother, hmem, he.regions, he.ctl, by rw [he.link]; rfl, by rw [he.link]; rfl, he.other, he.plan, he.run, he.hbm⟩

/-- Settles O12: the four link events are one (`Mod.linkDown_ends`); IDE_FAIL adds its records (`Mod.LinkEnds.records`). -/
theorem linkEventsEndAPort : Obligations.LinkEventsEndAPort := by
  intro s p hq hon hp ended
  obtain ⟨he, a, ha, ho⟩ := Mod.linkDown_ends (m := s.m.fresh) hp hq
  have hdown : ended Attn.owner (s.event (fun m => m.linkDown p)) :=
    State.event_linkEnds (bs := [Attn.owner]) hp he ho (or_lapse ha)
  have down {i : Instr} (hx : exec i s = .next (s.linkEvent p (fun m => m.linkDown p))) : Completes i s (ended Attn.owner) :=
    ⟨_, exec_linkEvent hx hon hp, hdown⟩
  refine ⟨down rfl, down rfl, down rfl, down rfl, _, exec_linkEvent rfl hon hp, ?_⟩
  refine State.event_linkEnds (a := a) (bs := [Attn.owner, Attn.fault]) hp ?_ ?_ (fun x => ?_)
  · exact he.records _ _ _
  · simp [Mod.ashSecurity, Mod.attentionAt, ho]
  · simp only [List.foldl_cons, List.foldl_nil, or_lapse ha, BitVec.or_assoc]

end Sys2Proof.Machine


/-! PROOFS. The mailbox, the sideband, the bench (O13 to O16). -/
namespace Sys2Proof.Machine

/-! ### SPDM and IDE_KM (spec 17, R526) -/

theorem Mod.setLink_out (m : Mod) (p : Nat) (f : Link → Link) : (m.setLink p f).out = m.out :=
  (m.setLink_keeps p f).2.2.2.2.2

/-- A link's record is what the change makes of the one that stands. -/
theorem Mod.setLink_congr {m : Mod} {p : Nat} {f g : Link → Link} (h : f (m.link p) = g (m.link p)) :
    m.setLink p f = m.setLink p g := by
  unfold Mod.link at h
  unfold Mod.setLink
  split <;> simp_all

/-- Settles O13: each message of the mailbox by what it sets of its link. -/
theorem spdmSessionsAndKeys : Obligations.SpdmSessionsAndKeys := by
  intro s p hq hon hp
  refine ⟨?_, fun key h0 => ?_, fun key k hk => ?_, fun k hk => ?_⟩
  · exact hq.happens (f := fun m => m.doe m.measurements) (exec_linkEvent rfl hon hp) rfl rfl
  · refine hq.happens (exec_linkEvent rfl hon hp) ((if_neg (fun hne => hne h0)).trans ?_) (s.m.fresh.setLink_out p _)
    unfold Mod.setLink
    split <;> rfl
  · have hsome : (s.m.fresh.link p).session.isSome = true := by
      rw [show s.m.fresh.link p = s.m.link p from rfl, hk]; rfl
    exact hq.happens (exec_linkEvent rfl hon hp) (if_pos hsome) (s.m.fresh.setLink_out p _)
  · refine hq.happens (exec_linkEvent rfl hon hp) (Mod.setLink_congr ?_) (s.m.fresh.setLink_out p _)
    rw [show s.m.fresh.link p = s.m.link p from rfl]
    simp [hk]

/-! ### The sideband's addresses and reads (spec 18, R552, R553) -/

/-- Settles O14: every command of the bus is a change of the sideband's record while the supply is up. -/
theorem sidebandAddressesAndReads : Obligations.SidebandAddressesAndReads := by
  intro s hon puts
  have hputs (f : Side → Side) : (Host.Outcome.next (s.i3c f) : Out) = .next { s with m := { s.m with side := f s.m.side } } :=
    congrArg Host.Outcome.next (if_pos (State.powered_of hon))
  exact ⟨fun _ => hputs _, fun _ => hputs _, hputs _, hputs _, hputs _, hputs _, hputs _, hputs _, hputs _, hputs _,
    fun _ _ => hputs _⟩

/-! ### Commands of the sideband (spec 18, R553) -/

/-- Every state but OFF accepts the opcodes of the status set (spec 15, R485). -/
theorem ModState.accepts_status {st : ModState} {op : Nat} (hst : st ≠ .off) (hop : statusSet op = true) : st.accepts op = true := by
  cases st <;> simp_all [ModState.accepts]

/-- What a packet of the sideband answers whose checks pass and whose command is of the status set. -/
theorem Mod.sideJudge_run {m : Mod} {p : Bytes} {c : CmdSpec} (hk : Op.known (fieldAt p 0 2) = true)
    (hc : sideSpec (sideCmd p) p = c) (hp : packetRsv p = 0) (hres : c.reserved = false) (ho : c.ownerOnly = false)
    (hf : c.forbidden m = false) (hpar : c.params m = none) (hon : m.ctl.state ≠ .off) (hop : statusSet c.opcode = true)
    (hw : waitsForPartition c.opcode = false) : m.sideJudge p = c.run m := by
  unfold Mod.sideJudge
  rw [if_pos hk, hc]
  exact CmdSpec.judge_run hp hres (by simp [ho]) hf hpar (ModState.accepts_status hon hop) (by simp [hw])

/-- A sideband command whose answer changes nothing: its reply register and its serial (spec 18, R553). -/
theorem execSidebandCommand_answers {s : State} {p result : Bytes} (hq : s.Quiet) (hon : s.m.ctl.state ≠ .off)
    (hr : s.m.ctl.restart = none) (hj : s.m.fresh.sideJudge p = Ans.ok s.m.fresh result) :
    exec (.sidebandCommand p) s = .next { s with
      m := { s.m.fresh with side := { s.m.side with
        serial := s.m.side.serial + 1,
        reply := replyBytes (s.m.side.serial + 1) (BitVec.ofNat 32 (fieldAt p 4 4)) (s.io.p0.attn ||| s.io.p1.attn) Cls.ok
          Detail.none (fieldAt p 0 2) 0 result } } } := by
  have hm : s.m.fresh.out = Outbox.empty := hq
  have hattend : s.io.attend s.m.fresh.out = s.io := by rw [hm]; exact HostIo.attend_quiet _ rfl rfl rfl
  refine congrArg Host.Outcome.next ((if_pos (by simp [State.powered_of hon, hr])).trans ?_)
  unfold State.sideCommand
  simp only [hj, Ans.ok, hattend, if_neg (show ¬ Cls.ok = Cls.rejected by decide), ← hm]
  rfl

/-- Settles O15: both commands pass the sideband's checks (`Mod.sideJudge_run`) and change nothing. -/
theorem sidebandCommandReplies : Obligations.SidebandCommandReplies := by
  intro s p hq hon hr hrsv hb answer
  refine ⟨fun hop => ?_, fun hop => ?_⟩
  · rw [← hop]
    refine execSidebandCommand_answers hq hon hr (Mod.sideJudge_run (c := nopSpec (sideCmd p)) ?_ (if_pos hop) hrsv rfl rfl rfl
      (plainParams_none hb rfl s.m.fresh) hon rfl rfl)
    rw [hop]; decide
  · rw [← hop]
    refine execSidebandCommand_answers hq hon hr (Mod.sideJudge_run (c := statusReadSpec (sideCmd p)) ?_ ?_ hrsv rfl rfl rfl
      (plainParams_none hb rfl s.m.fresh) hon rfl rfl)
    · rw [hop]; decide
    · unfold sideSpec
      simp only [hop]
      rfl

/-! ### The bench (spec 18, R551) -/

/-- Settles O16: the bench's line follows the standby supply alone. -/
theorem benchReadsAsh : Obligations.BenchReadsAsh := by
  intro s shifts
  have hdark (hoff : s.m.ctl.state = .off) : ¬ s.powered = true := by simp [State.powered, hoff]
  have hread {a : Word} (ha : a.toNat < 2 ^ 26) : ¬ 2 ^ 26 ≤ a.toNat := Nat.not_le.2 ha
  refine ⟨fun a n ha => ⟨fun hoff => ?_, fun hon => ?_⟩, fun hoff => ?_, fun hon => ?_⟩
  · exact congrArg Host.Outcome.next ((if_neg (hread ha)).trans (if_neg (hdark hoff)))
  · exact congrArg Host.Outcome.next ((if_neg (hread ha)).trans (if_pos (State.powered_of hon)))
  · exact congrArg (fun bs => Host.Outcome.next (s.bench bs)) (if_neg (hdark hoff))
  · exact congrArg (fun bs => Host.Outcome.next (s.bench bs)) (if_pos (State.powered_of hon))

end Sys2Proof.Machine


/-! PROOFS. The guard logic: trips, warnings, into and out of OFF (O17 to O20). -/
namespace Sys2Proof.Machine

/-! ### A trip is recorded, then the rails open (spec 18, R535, R538; spec 16, R495) -/

@[simp] theorem Mod.setGuard_out (m : Mod) (f : Guard → Guard) : (m.setGuard f).out = m.out := rfl
@[simp] theorem Mod.setGuard_ash (m : Mod) (f : Guard → Guard) : (m.setGuard f).ash = m.ash := rfl

/-- The module once trip t is recorded, before any rail opens: TRIP entry, CNT_TRIP, last_trip, the cause held, lockout. -/
def Mod.noteTrip (m : Mod) (t : Trip) (index : Nat) : Mod :=
  (((m.ashAppend 0x03 .guardLogic (m.guardBody (Trip.code t) index m.ctl.state.code)).count Cnt.trip 1).setGuard (fun g =>
    { g with lastTrip := if m.ctl.state != .tripped then Trip.code t else g.lastTrip,
             causes := if Trip.brief t then g.causes else g.causes ++ [t] })).lockoutStep t

/-- Lockout touches the guard logic alone, and neither last_trip nor the causes held (spec 18, R536). -/
theorem Mod.lockoutStep_eq (m : Mod) (t : Trip) : ∃ l c, m.lockoutStep t = m.setGuard (fun g =>
    { g with lockout := l, currentTrips := c }) := by
  unfold Mod.lockoutStep; dsimp only; split <;> split <;> exact ⟨_, _, rfl⟩

/-- What the record of a trip leaves: the state, the outbox, and its own cause as the last one. -/
theorem Mod.noteTrip_notes {m : Mod} {t : Trip} (index : Nat) (hst : m.ctl.state ≠ .tripped) :
    (m.noteTrip t index).ctl = m.ctl ∧ (m.noteTrip t index).out = m.out
      ∧ (m.noteTrip t index).ash = (m.ashAppend 0x03 .guardLogic (m.guardBody (Trip.code t) index m.ctl.state.code)).ash
      ∧ (m.noteTrip t index).pwr.guard.lastTrip = Trip.code t
      ∧ (Trip.brief t = false → t ∈ (m.noteTrip t index).pwr.guard.causes) := by
  unfold Mod.noteTrip
  generalize hn : Mod.setGuard _ _ = n
  obtain ⟨l, c, hl⟩ := n.lockoutStep_eq t
  rw [hl, ← hn]
  exact ⟨by simp, by simp, by simp, by simp [hst], fun hb => by simp [hb]⟩

theorem Mod.railsUp_of_ctl {m n : Mod} (h : n.ctl = m.ctl) : n.railsUp = m.railsUp := by unfold Mod.railsUp; rw [h]

/-- A trip of a cause that is not held yet, in a state that has not tripped. -/
theorem Mod.trip_eq {m : Mod} {t : Trip} (index : Nat) (hoff : m.ctl.state ≠ .off) (hst : m.ctl.state ≠ .tripped)
    (hc : t ∉ m.pwr.guard.causes) :
    m.trip t index = if m.railsUp then (m.noteTrip t index).enterTripped (Trip.code t)
      else (m.noteTrip t index).attention Attn.safety := by
  have h : m.trip t index = if (m.noteTrip t index).railsUp then (m.noteTrip t index).enterTripped (Trip.code t)
      else (m.noteTrip t index).attention Attn.safety := if_neg (by simp [hoff, hc])
  rw [h, Mod.railsUp_of_ctl (m.noteTrip_notes index hst).1]

/-- Neither OFF nor TRIPPED has rails up (spec 16, R494). -/
theorem Mod.railsUp_state {m : Mod} (h : m.railsUp = true) : m.ctl.state ≠ .off ∧ m.ctl.state ≠ .tripped := by
  unfold Mod.railsUp at h
  constructor <;> intro hs <;> simp [hs] at h

/-! ### What the loss of the rails ends -/

/-- The end of an own transfer touches neither the guard logic nor its readings. -/
theorem Mod.endUpdate_pwr (m : Mod) (r : Nat) : (m.endUpdate r false).pwr = m.pwr := by
  unfold Mod.endUpdate
  cases hu : m.bank.upd with
  | none => rfl
  | some u => simp [Mod.setSend, Mod.setHostCopy, Mod.bankEnded, Mod.closeUpdate, hu, Mod.count, Mod.attention]; split <;> rfl

/-- A module without rails: no plan, round, contexts or memory, both switches open (spec 16, R495). -/
structure Mod.Railless (m : Mod) : Prop where
  planSt : m.plan.st = .none
  plan : m.plan.plan = none
  run : m.run = Run.idle
  ctxs : m.ctxs = []
  mem : m.hbm.mem = []

/-- A rail that opens touches the regulators alone. -/
theorem Mod.openRail_keeps {α : Type} (p : Mod → α)
    (hp : ∀ m x y, p { m with pwr := { m.pwr with rails := x, groups := y } } = p m) (m : Mod) (rs : List Nat) :
    p (rs.foldl (fun m r => if m.rail r = 3 then m else m.setRail r 0) m) = p m :=
  foldl_keeps p (fun m r => by
    split
    · rfl
    · exact hp _ _ _) rs m

theorem Mod.railsGone_railless (m : Mod) : m.railsGone.Railless := by
  unfold Mod.railsGone
  dsimp only
  constructor <;> dsimp only
  · rw [Mod.openRail_keeps Mod.plan (fun _ _ _ => rfl)]; rfl
  · rw [Mod.openRail_keeps Mod.plan (fun _ _ _ => rfl)]; rfl
  · rw [Mod.openRail_keeps Mod.run (fun _ _ _ => rfl)]; rfl
  · rw [Mod.openRail_keeps Mod.hbm (fun _ _ _ => rfl)]; rfl

theorem Mod.railsGone_guard (m : Mod) : m.railsGone.pwr.guard = { m.pwr.guard with swA := false, swB := false } := by
  unfold Mod.railsGone
  dsimp only
  rw [Mod.openRail_keeps (fun m => m.pwr.guard) (fun _ _ _ => rfl)]
  exact congrArg (fun p : Power => { p.guard with swA := false, swB := false }) (m.endUpdate_pwr 6)

/-- The module in TRIPPED: the rails are gone and the guard logic keeps what it recorded. -/
theorem Mod.enterTripped_ends (m : Mod) (d : Nat) :
    (m.enterTripped d).ctl.state = .tripped ∧ (m.enterTripped d).Railless
      ∧ (m.enterTripped d).pwr.guard = { m.pwr.guard with swA := false, swB := false } := by
  obtain ⟨o, ho⟩ := Mod.completeAll_eq Cls.faulted d m.railTickets m
  have h : m.enterTripped d = (({ m with out := o } : Mod).railsGone.moveTo .tripped 0xFFFF d).attention Attn.safety := by
    rw [← ho]; rfl
  obtain ⟨hst, hplan, hrun, hctxs, hmem⟩ := Mod.railsGone_railless { m with out := o }
  rw [h]
  refine ⟨by simp, ⟨?_, ?_, ?_, ?_, ?_⟩, ?_⟩
  · simpa using hst
  · simpa using hplan
  · simpa using hrun
  · simpa using hctxs
  · simpa using hmem
  · simp [Mod.railsGone_guard]

/-- A trip with rails up (spec 16, R495). -/
theorem Mod.trip_ends {m : Mod} {t : Trip} (index : Nat) (hup : m.railsUp = true) (hc : t ∉ m.pwr.guard.causes) :
    (m.trip t index).ctl.state = .tripped ∧ (m.trip t index).Railless
      ∧ (m.trip t index).pwr.guard.lastTrip = Trip.code t
      ∧ (Trip.brief t = false → t ∈ (m.trip t index).pwr.guard.causes)
      ∧ (m.trip t index).pwr.guard.swA = false ∧ (m.trip t index).pwr.guard.swB = false := by
  obtain ⟨hoff, hst⟩ := Mod.railsUp_state hup
  obtain ⟨_, _, _, hlast, hheld⟩ := m.noteTrip_notes index hst (t := t)
  obtain ⟨htripped, hgone, hguard⟩ := (m.noteTrip t index).enterTripped_ends (Trip.code t)
  rw [Mod.trip_eq index hoff hst hc, if_pos hup, hguard]
  exact ⟨htripped, hgone, hlast, hheld, rfl, rfl⟩

/-- The event of a trip with rails up, once its reading g is taken. -/
theorem State.trip_opens {i : Instr} {s : State} {t : Trip} {index : Nat} {g : Guard → Guard} {f : Mod → Mod}
    (hup : s.m.railsUp = true) (hx : exec i s = .next (s.event f)) (hf : f s.m.fresh = (s.m.fresh.setGuard g).trip t index)
    (hg : (g s.m.pwr.guard).causes = s.m.pwr.guard.causes) (hc : t ∉ s.m.pwr.guard.causes) :
    Completes i s (fun u => u.m.ctl.state = .tripped ∧ u.m.pwr.guard.lastTrip = Trip.code t
      ∧ (Trip.brief t = false → t ∈ u.m.pwr.guard.causes) ∧ u.m.pwr.guard.swA = false ∧ u.m.pwr.guard.swB = false
      ∧ u.m.plan.st = .none ∧ u.m.plan.plan = none ∧ u.m.run = Run.idle ∧ u.m.ctxs = [] ∧ u.m.hbm.mem = []) := by
  obtain ⟨hst, hgone, hlast, hheld, ha, hb⟩ := Mod.trip_ends (m := s.m.fresh.setGuard g) index hup (t := t)
    (by rw [Mod.setGuard_pwr]; exact hg ▸ hc)
  refine ⟨_, hx, ?_⟩
  simp only [State.event_ctl, State.event_pwr, State.event_plan, State.event_run, State.event_ctxs, State.event_hbm, hf]
  exact ⟨hst, hlast, hheld, ha, hb, hgone.planSt, hgone.plan, hgone.run, hgone.ctxs, hgone.mem⟩

theorem Guard.sense_causes (g : Guard) (x : Nat) (temp : Int) : (g.sense x temp).causes = g.causes := by
  unfold Guard.sense
  split
  · rfl
  · split
    · rfl
    · split <;> rfl

/-- Settles O17: every trip by `Mod.trip_ends`; the shorted switch is set after it. -/
theorem tripsOpenTheRails : Obligations.TripsOpenTheRails := by
  intro s hup
  refine ⟨fun v hc => ?_, fun v hc => ?_, fun fast iin hc => ?_, fun x temp hc => ?_, fun x temp hc => ?_, fun hl hc => ?_,
    fun hc => ?_, fun hc => ?_, fun b hc => ?_⟩
  · exact State.trip_opens hup rfl (if_pos hup) rfl hc
  · exact State.trip_opens hup rfl rfl rfl hc
  · exact State.trip_opens hup rfl rfl rfl hc
  · exact State.trip_opens hup rfl rfl (Guard.sense_causes _ x temp) hc
  · exact State.trip_opens hup rfl rfl (Guard.sense_causes _ x temp) hc
  · exact State.trip_opens (g := id) hup rfl (if_pos (Bool.and_eq_true_iff.2 ⟨hup, by simp [hl]⟩)) rfl hc
  · exact State.trip_opens (g := id) hup rfl rfl rfl hc
  · exact State.trip_opens (g := id) hup rfl rfl rfl hc
  · obtain ⟨hst, hgone, hlast, hheld, -, -⟩ := Mod.trip_ends (m := s.m.fresh) 0xFF hup hc
    refine ⟨_, rfl, ?_⟩
    simp only [State.event_ctl, State.event_pwr, State.event_plan, State.event_run, State.event_ctxs, State.event_hbm,
      Mod.setGuard_ctl, Mod.setGuard_pwr]
    exact ⟨hst, hlast, hheld, trivial, trivial, hgone.planSt, hgone.plan, hgone.run, hgone.ctxs, hgone.mem⟩

/-! ### Records of the guard logic -/

/-- An event whose ash record is that of n after an entry, where n has the record and the clocks of the state before. -/
theorem State.event_ashEntered {s : State} {f : Mod → Mod} {n : Mod} {k : Nat} {src : AshSrc} {body : Bytes}
    (hf : (f s.m.fresh).ash = (n.ashAppend k src body).ash) (ha : n.ash = s.m.ash) (hc : n.ctl = s.m.ctl) :
    AshEntered s (s.event f) k src body := by
  unfold AshEntered
  have hslot := n.ashAppend_slot k src body
  rw [State.event_ash, hf, n.ashAppend_next]
  simp only [Mod.powerOnS, ha, hc] at hslot ⊢
  exact ⟨trivial, hslot⟩

/-- A trip in STANDBY, once its reading g is taken: the record alone. -/
theorem State.trip_noted {i : Instr} {s : State} {t : Trip} {index : Nat} {g : Guard → Guard} {f : Mod → Mod} (hq : s.Quiet)
    (hsb : s.m.ctl.state = .standby) (hx : exec i s = .next (s.event f))
    (hf : f s.m.fresh = (s.m.fresh.setGuard g).trip t index)
    (hg : (g s.m.pwr.guard).causes = s.m.pwr.guard.causes) (hc : t ∉ s.m.pwr.guard.causes) :
    Completes i s (fun u => Observed s u Attn.safety [] [] ∧ u.m.ctl = s.m.ctl ∧ u.m.pwr.guard.lastTrip = Trip.code t
      ∧ AshEntered s u 0x03 .guardLogic ((s.m.setGuard g).guardBody (Trip.code t) index 1)) := by
  have hst : (s.m.fresh.setGuard g).ctl.state = .standby := hsb
  obtain ⟨hctl, hout, hash, hlast, -⟩ := (s.m.fresh.setGuard g).noteTrip_notes index (t := t) (by simp [hsb])
  have htrip : f s.m.fresh = ((s.m.fresh.setGuard g).noteTrip t index).attention Attn.safety := by
    rw [hf, Mod.trip_eq index (by simp [hsb]) (by simp [hsb]) (by rw [Mod.setGuard_pwr]; exact hg ▸ hc),
      if_neg (by simp [Mod.railsUp, hsb])]
  refine ⟨_, hx, State.event_observed (ks := []) ?_, ?_, ?_, ?_⟩
  · rw [htrip, Mod.attention, hout]
    simp [Mod.setGuard, show s.m.out = Outbox.empty from hq, Outbox.empty]
  · rw [State.event_ctl, htrip, Mod.attention_ctl, hctl]; rfl
  · rw [State.event_pwr, htrip, Mod.attention_pwr, hlast]
  · refine State.event_ashEntered ?_ rfl rfl (n := s.m.fresh.setGuard g)
    rw [htrip, Mod.attention_ash, hash, hst]; rfl

/-- Settles O18: a trip without rails is its record, by `Mod.trip_eq`. -/
theorem tripInStandbyIsRecorded : Obligations.TripInStandbyIsRecorded := fun _ hq hsb =>
  ⟨fun hc => State.trip_noted (g := id) hq hsb rfl rfl rfl hc, fun _ hc => State.trip_noted hq hsb rfl rfl rfl hc⟩

/-- The event of a warning, once its reading g is taken. -/
theorem State.warns {i : Instr} {s : State} {g : Guard → Guard} {f : Mod → Mod} {detail index cnt : Nat} {a : Byte} (hq : s.Quiet)
    (hx : exec i s = .next (s.event f)) (hf : f s.m.fresh = (s.m.fresh.setGuard g).warn detail index cnt a) :
    Completes i s (fun t => Observed s t a [] [] ∧ t.m.ctl = s.m.ctl
      ∧ t.m.pwr = { s.m.pwr with guard := g s.m.pwr.guard } ∧ t.m.plan = s.m.plan
      ∧ AshEntered s t 0x04 .guardLogic ((s.m.setGuard g).guardBody detail index s.m.ctl.state.code)) := by
  refine ⟨_, hx, State.event_observed (ks := []) ?_, ?_, ?_, ?_, ?_⟩
  · rw [hf, Mod.warn, Mod.attention, Mod.count_out, Mod.ashAppend_out]
    simp [Mod.setGuard, show s.m.out = Outbox.empty from hq, Outbox.empty]
  · simp [hf, Mod.warn]
  · simp [hf, Mod.warn]
  · simp [hf, Mod.warn, Mod.setGuard]
  · refine State.event_ashEntered ?_ rfl rfl (n := s.m.fresh.setGuard g)
    rw [hf, Mod.warn, Mod.attention_ash, Mod.count_ash]; rfl

/-- Settles O19: each warning by `State.warns`; the level of COOL_OK is a reading. -/
theorem warningsAreRecorded : Obligations.WarningsAreRecorded := by
  intro s hq
  refine ⟨fun v hup => ?_, fun x temp hon => ?_, fun iin pin hup => ?_, fun ms hl hms hon => ?_, ?_⟩
  · exact State.warns (g := fun g => { g with vin := v }) hq rfl (if_pos hup)
  · exact State.warns (g := fun g => g.sense x temp) hq rfl (if_neg hon)
  · exact State.warns (g := fun g => { g with iin := iin, pin := pin, iinPeak := max g.iinPeak iin }) hq rfl (if_pos hup)
  · exact State.warns (g := fun g => { g with coolOk := true }) hq rfl
      ((if_neg (by simp [hl])).trans (if_pos ⟨hms, hon⟩))
  · exact hq.happens rfl rfl rfl

/-! ### Into and out of OFF (spec 16, R494; spec 18, R530, R533, R534, R541) -/

/-- The event of a module that goes OFF. -/
theorem State.powerOff_dark {i : Instr} {s : State} {n : Mod} {f : Mod → Mod} {g : Guard → Guard} (hq : s.Quiet)
    (hx : exec i s = .next (s.event f)) (hf : f s.m.fresh = n.powerOff.setGuard g) (hn : n.out = s.m.out)
    (hg : ∀ y, (g y).swA = y.swA ∧ (g y).swB = y.swB ∧ (g y).standby = y.standby) :
    Completes i s (fun t => (t.m.ctl.state = .off ∧ t.io.p0 = Port.reset ∧ t.io.p1 = Port.reset ∧ t.m.pwr.guard.swA = false
      ∧ t.m.pwr.guard.swB = false ∧ t.m.pwr.guard.standby = false ∧ t.m.plan.st = .none ∧ t.m.hbm.mem = []
      ∧ t.m.ctl.owner = none ∧ t.m.log.recs = []) ∧ t.m.pwr.guard = g n.powerOff.pwr.guard) := by
  have ho : (f s.m.fresh).out = { Outbox.empty with ringsOff := [0, 1], attnClear := [0, 1], portsReset := true } := by
    rw [hf, Mod.setGuard, Mod.powerOff, Mod.portsGo, Mod.kept, hn, show s.m.out = Outbox.empty from hq]; rfl
  obtain ⟨ha, hb, hsb⟩ := hg n.powerOff.pwr.guard
  refine ⟨s.event f, hx, ⟨?_, ?_, ?_, ?_, ?_, ?_, ?_, ?_, ?_, ?_⟩, ?_⟩
  · rw [State.event_ctl, hf]; rfl
  · rw [State.event_io ho rfl rfl]; rfl
  · rw [State.event_io ho rfl rfl]; rfl
  · rw [State.event_pwr, hf, Mod.setGuard_pwr]; exact ha
  · rw [State.event_pwr, hf, Mod.setGuard_pwr]; exact hb
  · rw [State.event_pwr, hf, Mod.setGuard_pwr]; exact hsb
  · rw [State.event_plan, hf]; rfl
  · rw [State.event_hbm, hf]; rfl
  · rw [State.event_ctl, hf]; rfl
  · rw [State.event_log, hf]; rfl
  · rw [State.event_pwr, hf]; rfl

/-- The module that has input power and a slot that boots, before it moves to STANDBY: nothing but records and the free
value of the challenge has changed besides what R494 and R516 name. -/
theorem Mod.powerUp_boots {m : Mod} {v : Nat} {f : Fw} (hst : m.ctl.state = .off) (hv : 5200 ≤ v)
    (hp : m.pwr.guard.present = true) (hf : m.fw.boot = some f) :
    ∃ n : Mod, m.powerUp v = n.moveTo .standby 0xFFFF 0
      ∧ n.pwr = { m.pwr with rails := SMap.put 0 m.pwr.rails 16 2, guard := { m.pwr.guard with vin := v, standby := true } }
      ∧ n.fw = f ∧ n.ctl = { m.ctl with bootCount := min 0xFFFF (m.ctl.bootCount + 1), noFirmware := false }
      ∧ n.ash.bench = false := by
  unfold Mod.powerUp
  rw [if_neg (by simp [hst, hp]; omega)]
  simp only [Mod.setGuard, Mod.count_fw, hf]
  refine ⟨_, rfl, ?_⟩
  by_cases hfell : (f.active != m.fw.active) = true <;> simp [hfell, Mod.ashSecurity]

theorem Mod.moveTo_bench (m : Mod) (x : ModState) (op d : Nat) : (m.moveTo x op d).ash.bench = m.ash.bench := by
  unfold Mod.moveTo; dsimp only; split
  · rfl
  · rw [Mod.ashState, Mod.ashAppend_bench]

/-- Settles O20: OFF by `State.powerOff_dark`, STANDBY by `Mod.powerUp_boots`; the rest are readings of the guard logic. -/
theorem powerComesAndGoes : Obligations.PowerComesAndGoes := by
  intro s hq
  refine ⟨fun v hon => ?_, fun hon => ?_, fun hon => ?_, fun v f hst hv hp hf => ?_, fun hp => ?_, fun c hc => ?_, ?_⟩
  · obtain ⟨t, hx, hd, -⟩ := State.powerOff_dark (i := .inputLost v) (g := id) hq rfl (if_neg hon) rfl
      (fun _ => ⟨rfl, rfl, rfl⟩)
    exact ⟨t, hx, hd⟩
  · obtain ⟨t, hx, hd, -⟩ := State.powerOff_dark (i := .standbySupplyLost) (g := id) hq rfl (if_neg hon) rfl
      (fun _ => ⟨rfl, rfl, rfl⟩)
    exact ⟨t, hx, hd⟩
  · obtain ⟨t, hx, hd, hg⟩ := State.powerOff_dark (i := .trayPresentBreak) (g := fun g => { g with present := false }) hq rfl
      (congrArg (Mod.setGuard · (fun g => { g with present := false })) (if_neg hon)) (s.m.fresh.ashAppend_out _ _ _)
      (fun _ => ⟨rfl, rfl, rfl⟩)
    exact ⟨t, hx, hd, by rw [hg]⟩
  · obtain ⟨n, hn, hpwr, hfw, hctl, hbench⟩ := Mod.powerUp_boots (m := s.m.fresh) hst hv hp hf
    refine ⟨_, rfl, ?_⟩
    simp only [State.event_ctl, State.event_pwr, State.event_fw, State.event_ash, hn, Mod.moveTo_ctl, Mod.moveTo_pwr,
      Mod.moveTo_fw, Mod.moveTo_bench, hpwr, hfw, hctl, hbench]
    exact ⟨trivial, trivial, trivial, trivial, rfl, trivial⟩
  · exact hq.happens rfl (if_neg (by simp [hp])) rfl
  · exact hq.happens rfl (if_neg hc) rfl
  · exact hq.happens rfl (if_pos rfl) rfl

end Sys2Proof.Machine


/-! PROOFS. Kindling mode and diagnostics, host errors (O25, O27). -/
namespace Sys2Proof.Machine

/-! ### Host reads that fail (spec 15, R462) -/

/-- Settles O27: each reader by its own branch of `Mod.hostError`. -/
theorem hostErrorsEndReaders : Obligations.HostErrorsEndReaders := by
  intro s hq
  refine ⟨fun w hw => ?_, fun w hw => ?_, fun w bs hw => ?_, fun r hr hsrc => ?_, fun handle n c hc hact hsrc hcause => ?_⟩
  · exact hq.happens_complete (f := fun m => m.hostError .planImage) rfl (by simp [Mod.hostError, hw]) rfl (by decide)
  · exact hq.happens_complete (f := fun m => m.hostError .firmware) rfl (by simp [Mod.hostError, hw]) rfl (by decide)
  · exact hq.happens_complete (f := fun m => m.hostError .package) rfl (by simp [Mod.hostError, hw]) rfl (by decide)
  · refine hq.happens_complete (f := fun m => m.hostError .relight) rfl ?_ rfl (by decide)
    simp only [Mod.hostError, s.m.fresh_bank, hr, hsrc, if_true]
    exact Mod.relightEnds_fails _ r (by decide) _
  · have hctx : s.m.fresh.ctx handle = some c := hc
    exact hq.happens (f := fun m => m.hostError (.stream handle n)) rfl (by simp [Mod.hostError, hctx, hact, hsrc, hcause]) rfl

/-! ### Kindling mode (spec 16, R500) -/

theorem Mod.core_setCore {m : Mod} {k : Nat} {f : CoreRec → CoreRec} (h : f (m.core k) ≠ CoreRec.off) :
    (m.setCore k f).core k = f (m.core k) := SMap.get_put_same h _ _

theorem State.found_corePending (s : State) (h : Cmd) (core : Nat) : (s.found h).corePending core = s.m.corePending core := by
  obtain ⟨_, _, hf⟩ := s.found_eq h; rw [hf]; rfl

/-- A core whose entry into kindling mode is accepted waits for it. -/
def Mod.holdKindling (m : Mod) (k : Nat) (t : Ticket) : Mod := m.setCore k (fun r => { r with kindleWait := some t })

/-- It enters at once unless a plan is RUNNING (spec 16, R500). -/
theorem Mod.holdKindling_enters {m : Mod} {k : Nat} (t : Ticket) (hk : (m.core k).kindling = false) :
    let n := if m.plan.st = .running then m.holdKindling k t else (m.holdKindling k t).enterKindling k
    (m.plan.st = .running → (n.core k).kindleWait = some t ∧ (n.core k).kindling = false)
      ∧ (m.plan.st ≠ .running → (n.core k).kindling = true ∧ (n.core k).kindleDone = some t) ∧ n.out = m.out := by
  intro n
  have hwait : (m.holdKindling k t).core k = { m.core k with kindleWait := some t } := Mod.core_setCore (by simp [CoreRec.off])
  unfold n
  split
  next hst => exact ⟨fun _ => by rw [hwait]; exact ⟨rfl, hk⟩, fun hno => absurd hst hno, rfl⟩
  next hst =>
    have henter : (m.holdKindling k t).enterKindling k = ((m.holdKindling k t).setCore k (fun r =>
        { r with kindling := true, kindleWait := none, kindleDone := some t })).count Cnt.kindlingEntry 1 := by
      simp [Mod.enterKindling, hwait]
    have hin : ((m.holdKindling k t).enterKindling k).core k
        = { m.core k with kindling := true, kindleWait := none, kindleDone := some t } := by
      rw [henter]
      exact (Mod.core_setCore (by simp [CoreRec.off])).trans (by rw [hwait])
    exact ⟨fun hyes => absurd hyes hst, fun _ => by rw [hin]; exact ⟨rfl, rfl⟩, by rw [henter]; rfl⟩

section
variable {s : State} {h : Cmd} (hs : s.Starts h) (hown : s.m.ctl.owner = some h.port)
include hs hown

theorem State.Starts.kindlingEnter {core : Byte} (hk : core.toNat < 8) (hb : noBuffer h = true) (ha : s.accepts Op.kindlingEnter)
    (href : s.m.ctl.refLost = false) (hoff : (s.m.core core.toNat).ps ≠ .off) (hgated : (s.m.core core.toNat).ps ≠ .gated)
    (hin : (s.m.core core.toNat).kindling = false) (hwait : (s.m.core core.toNat).kindleWait = none)
    (hno : s.m.noRelief core.toNat = false) (hp : s.m.corePending core.toNat = false) :
    Completes (.kindlingEnter h core) s (fun t =>
      Answered s t h 0 [] Op.kindlingEnter Cls.accepted Detail.none []
      ∧ (s.m.plan.st = .running →
          (t.m.core core.toNat).kindleWait = some ⟨h.port, h.tag⟩ ∧ (t.m.core core.toNat).kindling = false)
      ∧ (s.m.plan.st ≠ .running →
          (t.m.core core.toNat).kindling = true ∧ (t.m.core core.toNat).kindleDone = some ⟨h.port, h.tag⟩)) := by
  rw [← s.found_noRelief h] at hno
  rw [← s.found_corePending h] at hp
  rw [← s.found_plan h]
  obtain ⟨hrun, hidle, hout⟩ := (s.found h).holdKindling_enters ⟨h.port, h.tag⟩
    ((congrArg CoreRec.kindling (s.found_core h _)).trans hin)
  refine hs.completes (i := .kindlingEnter h core) (b := 0) (ks := []) rfl ha (fun _ => hown) rfl rfl
    (plainParams_none hb (by simpa using hk) (s.found h)) ((if_neg ?_).trans (if_neg (by simp [hp]))) (.inr rfl)
    (hout.trans ((s.found_out h).trans hs.quiet)) (by simp) (fun t hans hm => ?_)
  · simp [s.found_refLost h, href, hoff, hgated, hin, hwait, hno]
  · rw [hm]
    exact ⟨hans, hrun, hidle⟩

theorem State.Starts.kindlingExit {core : Byte} (hk : core.toNat < 8) (hb : noBuffer h = true) (ha : s.accepts Op.kindlingExit)
    (hin : (s.m.core core.toNat).kindling = true) (hd : s.m.pwr.diags.any (fun d => d.core == core.toNat) = false) :
    Replies (.kindlingExit h core) s h 0 [] Op.kindlingExit Cls.accepted []
      (((s.found h).setCore core.toNat (fun r => { r with kindling := false })).formCore core.toNat)
      [⟨h.port, h.tag, Op.kindlingExit, Cls.ok, Detail.none, []⟩] := by
  rw [← s.found_pwr h] at hd
  have hq : (s.found h).out = Outbox.empty := (s.found_out h).trans hs.quiet
  refine hs.completes (i := .kindlingExit h core) (b := 0) rfl ha (fun _ => hown) rfl rfl
    (plainParams_none hb (by simpa using hk) (s.found h)) ((if_neg (by simp [hin])).trans (if_neg (by rw [hd]; decide))) (.inr rfl)
    (Mod.complete_out_quiet hq _ _ _ _ _) (by simp) (fun t hans hm => ⟨hans, hm.trans ?_⟩)
  exact Mod.out_empty (m := ((s.found h).setCore core.toNat (fun r => { r with kindling := false })).formCore core.toNat) hq

theorem State.Starts.diagRun {core diag : Byte} {unit : Half} (hk : core.toNat < 8) (hdiag : diag.toNat < 3)
    (hres : unitReserved unit.toNat = false) (hill : unitIllegal unit.toNat = false) (hcore : unitCore unit.toNat = core.toNat)
    (hb : (s.found h).bufferOk h (16 + 16 * (diagUnits unit.toNat).length) true = true) (ha : s.accepts Op.diagRun)
    (href : s.m.ctl.refLost = false) (hin : (s.m.core core.toNat).kindling = true)
    (hd : s.m.pwr.diags.any (fun d => d.core == core.toNat) = false) :
    Replies (.diagRun h core diag unit) s h 0 [] Op.diagRun Cls.accepted []
      { s.found h with
        pwr := { s.m.pwr with diags := s.m.pwr.diags
          ++ [⟨core.toNat, diag.toNat, unit.toNat, ⟨h.port, h.tag⟩, h.bufRegion.toNat, h.bufOffset.toNat, []⟩] } } := by
  rw [← s.found_pwr h] at hd ⊢
  exact (hs.replies (i := .diagRun h core diag unit) rfl ha (fun _ => hown) hres rfl
    (bufParams_none (by simp [hk, hdiag, hill, hcore]) hb)
    ((if_neg (by simp [s.found_refLost h, href, hin])).trans (if_neg (by rw [hd]; decide))) (.inr rfl) (s.found_out h) :)

end

/-! ### Diagnostics (spec 16, R501, R502) -/

/-- Regulators, cores, the module's state and the plan stay. -/
structure Mod.Steady (m n : Mod) : Prop where
  pwr : n.pwr = m.pwr
  ctl : n.ctl = m.ctl
  plan : n.plan = m.plan

theorem Mod.Steady.refl (m : Mod) : m.Steady m := ⟨rfl, rfl, rfl⟩

theorem Mod.Steady.trans {m n k : Mod} (h : m.Steady n) (h' : n.Steady k) : m.Steady k :=
  ⟨h'.pwr.trans h.pwr, h'.ctl.trans h.ctl, h'.plan.trans h.plan⟩

theorem Mod.Steady.foldl {α : Type} {f : Mod → α → Mod} (hf : ∀ m a, Mod.Steady m (f m a)) (l : List α) (m : Mod) :
    m.Steady (l.foldl f m) :=
  List.foldlRecOn l f (Mod.Steady.refl m) (fun n hn a _ => hn.trans (hf n a))

/-- A unit that fails is fenced, counted and recorded. -/
theorem Mod.bistFailed_steady (m : Mod) (t : TestTarget) (column : Nat) : m.Steady (m.bistFailed t column) :=
  ⟨Mod.report_pwr _ _, Mod.report_ctl _ _, Mod.report_plan _ _⟩

theorem Mod.writeAt_steady (m : Mod) (port region off : Nat) (bs : Bytes) : m.Steady (m.writeAt port region off bs) := by
  unfold Mod.writeAt; split <;> exact ⟨rfl, rfl, rfl⟩

/-- The results of a diagnostic free its core. -/
theorem Mod.diagDone_frees (m : Mod) (d : Diag) (rs : List DiagOut) :
    Mod.Steady { m with pwr := { m.pwr with diags := m.pwr.diags.filter (fun x => x.core != d.core) } } (m.diagDone d rs) := by
  unfold Mod.diagDone
  extract_lets _ os n _ freed bs ok
  have hn : m.Steady n := Mod.Steady.foldl (fun m o => by
    split
    · exact m.bistFailed_steady _ _
    · exact .refl m) os m
  obtain ⟨hpwr, hctl, hplan⟩ := hn
  obtain ⟨hwp, hwc, hwpl⟩ := freed.writeAt_steady d.ticket.port d.bufRegion d.bufOffset bs
  exact ⟨hwp.trans (congrArg (fun p : Power => { p with diags := p.diags.filter (fun x => x.core != d.core) }) hpwr),
    hwc.trans hctl, hwpl.trans hplan⟩

/-- Settles O25: each command by its own lemma, a core's entry by `Mod.holdKindling_enters`, results by `Mod.diagDone_frees`. -/
theorem kindlingModeAndDiagnostics : Obligations.KindlingModeAndDiagnostics := by
  refine ⟨fun s h core hs hown href => ⟨fun hk hb ha hoff hgated hin hwait hno hp =>
      hs.kindlingEnter hown hk hb ha href hoff hgated hin hwait hno hp,
    fun hk hb ha hin hd => hs.kindlingExit hown hk hb ha hin hd,
    fun diag unit hk hdiag hres hill hcore hb ha hin hd => hs.diagRun hown hk hdiag hres hill hcore hb ha href hin hd⟩,
    fun s hq => ⟨fun core w hw => ?_, fun core d results hd => ⟨_, rfl, ?_⟩⟩⟩
  · have hw' : (s.m.fresh.core core).kindleDone = some w := hw
    exact hq.happens_complete rfl (by simp only [hw']) rfl (by decide)
  · obtain ⟨hpwr, hctl, hplan⟩ := s.m.fresh.diagDone_frees d results
    simp only [State.event_pwr, State.event_ctl, State.event_plan, s.m.fresh_pwr, hd]
    exact ⟨hpwr, hctl, hplan⟩

end Sys2Proof.Machine


/-! PROOFS. Firmware, quotes, debug tokens, notes; MODULE_RESET (O10, O26). -/
namespace Sys2Proof.Machine

/-! ### A command after whose reply the rings stop (spec 15, R470; spec 16, R496; spec 17, R518) -/

/-- The module after a flush differs in counters and in the outbox. -/
theorem State.flush_counts (s : State) : ∃ c, s.flush.m = { s.m with cnt := c, out := Outbox.empty } := by
  unfold State.flush
  dsimp only
  split <;> split <;> exact ⟨_, rfl⟩

/-- An answer of class OK whose outbox holds nothing but what stops: the reply first, then the ports settle. -/
theorem State.answer_settles {s : State} {h : Cmd} {op : Nat} {m : Mod} {result : Bytes} {l c : List Nat} {b : Bool}
    (hr : (s.io.port h.port).running = true)
    (ho : m.out = { Outbox.empty with ringsOff := l, attnClear := c, portsReset := b }) :
    ((s.consume h.port).answer h op (Ans.ok m result)).io
      = (s.io.answered h 0 [] op Cls.ok Detail.none result).settle m.out := by
  have hplain := State.answer_plain (s := s) (h := h) (op := op) (a := Ans.ok { m with out := Outbox.empty } result) hr
    (show Cls.ok ≠ Cls.rejected by decide) Outbox.Plain.empty rfl rfl
  have hio := congrArg State.io hplain
  refine Eq.trans ?_ (congrArg (HostIo.settle · m.out) hio)
  unfold State.answer State.flush
  simp only [Ans.ok, ho]
  rfl

/-- What is left to show of a command that starts, whose checks pass and whose effect stops rings or resets ports. -/
theorem State.Starts.completes_settling {i : Instr} {s : State} {h : Cmd} {c : CmdSpec} {P : State → Prop} {m : Mod}
    {result : Bytes} {l a : List Nat} {b : Bool}
    (hs : s.Starts h) (hx : exec i s = .next (runCmd h c s)) (ha : s.accepts c.opcode)
    (ho : c.ownerOnly = true → s.m.ctl.owner = some h.port) (hres : c.reserved = false)
    (hforb : c.forbidden (s.found h) = false) (hpar : c.params (s.found h) = none)
    (hrun : c.run (s.found h) = Ans.ok m result)
    (hout : m.out = { Outbox.empty with ringsOff := l, attnClear := a, portsReset := b })
    (hP : ∀ t : State, t.io = (s.io.answered h 0 [] c.opcode Cls.ok Detail.none result).settle m.out →
      (∃ n, t.m = { m with cnt := n, out := Outbox.empty }) → P t) :
    Completes i s P := by
  have hgo : runCmd h c s = (s.consume h.port).answer h c.opcode (Ans.ok m result) := by
    rw [runCmd_starts hs, CmdSpec.judge_run hs.reserved hres (by simpa using ho) hforb hpar (by simpa using ha.1)
      (by simpa using ha.2), hrun, Ans.guard_ok]
  refine ⟨_, hx, hP _ ?_ ?_⟩
  · rw [hgo, State.answer_settles hs.running hout]
  · rw [hgo]
    exact State.flush_counts _

/-! ### MODULE_RESET (spec 16, R496) -/

theorem Mod.resetNow_out {m : Mod} (hm : m.out = Outbox.empty) :
    m.resetNow.out = { Outbox.empty with ringsOff := [0, 1], attnClear := [0, 1], portsReset := true } := by
  show (Mod.portsGo (Mod.kept (m.moveTo _ _ _))).out = _
  simp [Mod.portsGo, Mod.kept, hm, Outbox.empty]

/-- The ports at their reset values (spec 16, R496; spec 18, R541). -/
theorem HostIo.settle_reset (io : HostIo) {o : Outbox} (ho : o.portsReset = true) :
    io.settle o = { io with p0 := Port.reset, p1 := Port.reset } := by
  simp [HostIo.settle, ho]

/-- Settles O10: what the reset leaves is `Mod.kept` in STANDBY; the ports are reset once the reply stands. -/
theorem moduleResetClears : Obligations.ModuleResetClears := by
  refine ⟨fun s h hs hb ha hown => ?_, fun s hq hr => hq.happens rfl (if_pos hr) rfl⟩
  have hout := Mod.resetNow_out ((s.found_out h).trans hs.quiet)
  refine hs.completes_settling (i := .moduleReset h) rfl ha (fun _ => hown) rfl rfl (plainParams_none hb rfl (s.found h)) rfl hout
    (fun t hio ⟨c, hm⟩ => ?_)
  rw [HostIo.settle_reset _ (by rw [hout])] at hio
  refine ⟨by rw [hio], by rw [hio], by rw [hio], ?_⟩
  rw [hm]
  refine ⟨rfl, rfl, rfl, rfl, rfl, rfl, rfl, rfl, rfl, rfl, rfl, ?_, ?_, ?_, ?_, ?_⟩
  · simp [Mod.resetNow, Mod.portsGo, Mod.kept]
  · simp [Mod.resetNow, Mod.portsGo, Mod.kept]
  · simp [Mod.resetNow, Mod.portsGo, Mod.kept]
  · simp [Mod.resetNow, Mod.portsGo, Mod.kept]
  · simp [Mod.resetNow, Mod.portsGo, Mod.kept]

/-! ### Firmware, quotes, notes (spec 17, R517, R518, R524; spec 18, R549) -/

/-- An activation that passes its checks: the fuse counter reaches the image's version, and the other slot is active. -/
theorem Mod.activate_switches {m : Mod} {blown : Nat} (hj : m.fw.other.judge m.fw.fuses = (Cls.ok, Detail.none))
    (hf : m.fw.other.security ≤ max m.fw.fuses blown) :
    ∃ n : Mod, m.activate blown = Ans.ok (n.hearthStops .activate)
      ∧ n.fw = { m.fw with fuses := max m.fw.fuses m.fw.other.security, active := 1 - m.fw.active, staged := false }
      ∧ n.out = m.out := by
  have hc : (if m.fw.fuses < m.fw.other.security then max m.fw.fuses (min blown m.fw.other.security) else m.fw.fuses)
      = max m.fw.fuses m.fw.other.security := by
    split <;> omega
  unfold Mod.activate
  simp only [hj, hc, ne_eq, not_true_eq_false, if_false]
  rw [if_neg (by omega)]
  refine ⟨_, rfl, ?_⟩
  split <;> simp [Mod.ashSecurity]

theorem Ash.setNote_keeps (a : Ash) (port now : Nat) : (a.setNote port now).next = a.next ∧ (a.setNote port now).slots = a.slots := by
  unfold Ash.setNote; split <;> exact ⟨rfl, rfl⟩

section
variable {s : State} {h : Cmd} (hs : s.Starts h)
include hs

theorem State.Starts.fwStage {header : Bytes} (hown : s.m.ctl.owner = some h.port) (ha : s.accepts Op.fwStage)
    (hst : s.m.fw.staging = none) (hb : (s.found h).bufferOk h (fwLength header) false = true) :
    Replies (.fwStage h (.data header)) s h 0 [] Op.fwStage Cls.accepted []
      { s.found h with fw := { s.m.fw with staging := some ⟨h.port, h.tag⟩ } } := by
  rw [← s.found_fw h] at hst ⊢
  exact (hs.replies (i := .fwStage h (.data header)) rfl ha (fun _ => hown) rfl rfl (if_pos hb)
    (if_neg (by rw [hst]; decide)) (.inr rfl) (s.found_out h) :)

theorem State.Starts.fwActivate {blown : Nat} (hown : s.m.ctl.owner = some h.port) (ha : s.accepts Op.fwActivate)
    (hb : noBuffer h = true) (hstaged : s.m.fw.staged = true) (hst : s.m.ctl.state = .standby) (hscopes : s.m.side.scopes = 0)
    (hno : s.m.fw.staging = none) (hbank : s.m.bankBusy = false)
    (hj : s.m.fw.other.judge s.m.fw.fuses = (Cls.ok, Detail.none)) (hf : s.m.fw.other.security ≤ max s.m.fw.fuses blown) :
    Completes (.fwActivate h blown) s (fun t =>
      t.m.fw = { s.m.fw with
        fuses := max s.m.fw.fuses s.m.fw.other.security, active := 1 - s.m.fw.active, staged := false }
      ∧ t.m.ctl.restart = some .activate ∧ t.io.p0.running = false ∧ t.io.p1.running = false) := by
  rw [← s.found_bankBusy h] at hbank
  rw [← s.found_fw h] at hj hf ⊢
  obtain ⟨n, hn, hfw, hout⟩ := Mod.activate_switches hj hf
  have hstop : (n.hearthStops .activate).out = { Outbox.empty with ringsOff := [0, 1] } := by
    rw [Mod.hearthStops, hout, (s.found_out h).trans hs.quiet]; rfl
  refine hs.completes_settling (i := .fwActivate h blown) rfl ha (fun _ => hown) rfl rfl (plainParams_none hb rfl (s.found h))
    ((if_neg (by simp [hstaged, hst, hscopes])).trans ((if_neg (by simp [hno, hbank])).trans hn)) hstop (fun t hio ⟨c, hm⟩ => ?_)
  rw [hstop, HostIo.settle_both] at hio
  exact ⟨by rw [hm]; exact hfw, by rw [hm]; rfl, by rw [hio]; rfl, by rw [hio]; rfl⟩

theorem State.Starts.attestQuote {nonce : BitVec 256} (ha : s.accepts Op.attestQuote)
    (hb : (s.found h).bufferOk h 1728 true = true) (hno : s.m.fw.quote = none) (hscopes : s.m.side.scopes = 0) :
    Completes (.attestQuote h nonce) s (fun t =>
      Answered s t h 0 [] Op.attestQuote Cls.accepted Detail.none []
      ∧ t.m.fw = { s.m.fw with
          quoteSerial := s.m.fw.quoteSerial + 1,
          quote := some ⟨⟨h.port, h.tag⟩, h.bufRegion.toNat, h.bufOffset.toNat,
            s.m.quoteHead nonce (s.m.fw.quoteSerial + 1) (Config.freeNat s.m.free % 1280 + 1)⟩ }) := by
  have hhead : (s.found h).quoteHead = s.m.quoteHead := by
    obtain ⟨_, _, hf⟩ := s.found_eq h; rw [hf]; rfl
  rw [← s.found_fw h, ← s.found_free h, ← hhead]
  exact hs.completes (i := .attestQuote h nonce) (b := 0) (ks := []) rfl ha (fun ho => nomatch ho) rfl rfl (bufParams_none rfl hb)
    ((if_neg (by simp [hno])).trans (if_neg (by simp [hscopes]))) (.inr rfl) ((s.found_out h).trans hs.quiet) (by simp)
    (fun t hans hm => ⟨hans, by rw [hm]⟩)

theorem State.Starts.ashNote {note : BitVec 320} (hown : s.m.ctl.owner = some h.port) (ha : s.accepts Op.ashNote)
    (hb : noBuffer h = true) (hnew : s.m.ash.noteAt h.port ≠ some s.m.ctl.powerOnMs) :
    Completes (.ashNote h note) s (fun t =>
      Answered s t h 0 [] Op.ashNote Cls.ok Detail.none (leBytes 4 s.m.ash.next.toNat)
      ∧ AshEntered s t 0x08 (.host h.port) (leBytes 40 note.toNat)) := by
  have hms : (s.found h).ctl.powerOnMs = s.m.ctl.powerOnMs := by obtain ⟨_, _, hf⟩ := s.found_eq h; rw [hf]
  have hboot : (s.found h).ctl.bootCount = s.m.ctl.bootCount := by obtain ⟨_, _, hf⟩ := s.found_eq h; rw [hf]
  have hslot := (s.found h).ashAppend_slot 0x08 (.host h.port) (leBytes 40 note.toNat)
  rw [show (s.found h).powerOnS = s.m.powerOnS by rw [Mod.powerOnS, hms]; rfl, hboot, s.found_ash] at hslot
  rw [← hms, ← s.found_ash h] at hnew
  refine hs.completes (i := .ashNote h note) (b := 0) (ks := []) rfl ha (fun _ => hown) rfl rfl
    (plainParams_none hb rfl (s.found h)) (if_neg hnew) (.inl rfl)
    (((s.found h).ashAppend_out _ _ _).trans ((s.found_out h).trans hs.quiet)) (by simp) (fun t hans hm => ⟨?_, ?_, ?_⟩)
  · rwa [s.found_ash h] at hans
  · rw [hm]
    exact (Ash.setNote_keeps _ _ _).1.trans (((s.found h).ashAppend_next _ _ _).trans (by rw [s.found_ash h]))
  · rw [hm]
    exact (congrArg (SMap.get [] · _) (Ash.setNote_keeps _ _ _).2).trans hslot

end

/-! ### What completes later (spec 17, R515, R517, R523, R524) -/

/-- The results of a staging, its entry in the ash record, and its completion. -/
theorem Mod.stageDone_staged {m : Mod} {w : Ticket} (img : Bytes) (hw : m.fw.staging = some w) :
    ∃ n : Mod, m.stageDone img = n.complete w Op.fwStage ((Slot.ofImage img).judge m.fw.fuses).1
        ((Slot.ofImage img).judge m.fw.fuses).2 []
      ∧ n.fw = { m.fw.setOther (Slot.ofImage img) with
          staged := decide (((Slot.ofImage img).judge m.fw.fuses).1 = Cls.ok), staging := none }
      ∧ n.out = m.out := by
  unfold Mod.stageDone
  simp only [hw]
  exact ⟨_, rfl, by simp [Mod.ashSecurity], by simp [Mod.ashSecurity]⟩

theorem Mod.writeAt_of_port {m : Mod} {port : Nat} (hp : port ≠ 2) (region off : Nat) (bs : Bytes) :
    m.writeAt port region off bs = { m with out := { m.out with host := m.out.host
      ++ [⟨(SMap.get Region.free m.regions region).port, (SMap.get Region.free m.regions region).base + off, bs⟩] } } := if_neg hp

/-- A token spends the challenge; a good one opens its scopes, which sets ATTN_LOG (spec 17, R523). -/
theorem Mod.debugToken_spends {m : Mod} (token : Bytes) (hm : m.out = Outbox.empty) :
    (m.debugToken token).out = { Outbox.empty with attn := if (m.tokenFault token).isNone then Attn.log else 0 }
      ∧ (m.debugToken token).side = { m.side with
          challenge := m.free,
          scopes := if (m.tokenFault token).isNone then m.side.scopes ||| fieldAt token 0xA 2 else m.side.scopes } := by
  cases hf : (m.tokenFault token).isNone <;> simp [Mod.debugToken, Mod.ashSecurity, hf, hm, Mod.attention, Outbox.empty]

/-- Settles O26: each command by its own lemma, a staging by `Mod.stageDone_staged`, a token by `Mod.debugToken_spends`. -/
theorem firmwareQuotesAndNotes : Obligations.FirmwareQuotesAndNotes := by
  refine ⟨fun s h hs => ⟨fun header hown ha hst hb => hs.fwStage hown ha hst hb,
    fun blown hown ha hb hstaged hst hscopes hno hbank hj hf => hs.fwActivate hown ha hb hstaged hst hscopes hno hbank hj hf,
    fun nonce ha hb hno hscopes => hs.attestQuote ha hb hno hscopes, fun note hown ha hb hnew => hs.ashNote hown ha hb hnew⟩,
    fun s hq => ⟨fun img w hw => ?_, fun q hw hp hcov => ?_, fun token hon => ?_⟩⟩
  · obtain ⟨n, hn, hfw, hout⟩ := Mod.stageDone_staged (m := s.m.fresh) img hw
    refine completes_of_event rfl hn (fun f hf => ⟨State.event_hands_over ?_, ?_⟩)
    · rw [hf]
      exact Mod.complete_out_quiet (hout.trans hq) _ _ _ _ _
    · rw [State.event_fw, hf]
      exact hfw
  · have hdone : s.m.fresh.quoteDone = Mod.complete (Mod.writeAt { s.m.fresh with free := s.m.free + 1, fw := { s.m.fw with quote := none } }
        q.ticket.port q.region q.offset (quoteBytes s.m.free q.head)) q.ticket Op.attestQuote Cls.ok Detail.none [] := by
      simp only [Mod.quoteDone, s.m.fresh_fw, hw]
      exact if_pos hcov
    rw [Mod.writeAt_of_port hp] at hdone
    refine completes_of_event rfl hdone (fun f hf => ⟨State.event_hands_over ?_, ?_⟩)
    · rw [hf, Mod.complete, s.m.fresh_out, show s.m.out = Outbox.empty from hq]; rfl
    · rw [State.event_fw, hf]; rfl
  · obtain ⟨hout, hside⟩ := Mod.debugToken_spends (m := s.m.fresh) token hq
    refine ⟨s.event (fun m => m.debugToken token), congrArg Host.Outcome.next (if_pos hon), State.event_observed (ks := []) hout, ?_⟩
    rw [State.event_side]
    exact hside

end Sys2Proof.Machine


/-! PROOFS. The cold start and PSTATE_SET (O22, O23). -/
namespace Sys2Proof.Machine

/-! ### Changes of every core, rail and channel -/

theorem Mod.setCores_eq (f : CoreRec → CoreRec) : ∀ (l : List Nat) (m : Mod), l.foldl (fun m k => m.setCore k f) m
    = { m with pwr := { m.pwr with cores := l.foldl (fun x k => SMap.upd CoreRec.off x k f) m.pwr.cores } }
  | [], _ => rfl
  | k :: l, m => Mod.setCores_eq f l (m.setCore k f)

theorem Mod.setChans_eq (f : Chan → Chan) : ∀ (l : List Nat) (m : Mod), l.foldl (fun m k => m.setChan k f) m
    = { m with fab := { m.fab with chans := l.foldl (fun x k => SMap.upd Chan.off x k f) m.fab.chans } }
  | [], _ => rfl
  | k :: l, m => Mod.setChans_eq f l (m.setChan k f)

/-- Rails that take a state touch the regulators alone. -/
theorem Mod.setRail_all (st : Nat) : ∀ (l : List Nat) (m : Mod), ∃ g, l.foldl (fun m r => m.setRail r st) m
    = { m with pwr := { m.pwr with rails := l.foldl (fun x r => SMap.put 0 x r st) m.pwr.rails, groups := g } }
  | [], m => ⟨m.pwr.groups, rfl⟩
  | r :: l, m => Mod.setRail_all st l (m.setRail r st)

/-! ### The cold start (spec 16, R497, R498; spec 18, R537) -/

/-- A stage that is done: the next one stands, and the module's state and plan stay. -/
theorem State.coldStage_done {s : State} {c : Cold} {st : ColdStage} {n : Mod} {P : State → Prop} (hc : s.m.pwr.cold = some c)
    (hf : s.m.fresh.coldStage st = n.stageNext) (hcold : n.pwr.cold = s.m.pwr.cold) (hctl : n.ctl = s.m.ctl)
    (hplan : n.plan = s.m.plan)
    (hP : ∀ t : State, t.m.pwr = { n.pwr with cold := some ⟨c.ticket, c.stage + 1⟩ } → t.m.fab = n.fab → t.m.hbm = n.hbm → P t) :
    Completes (.coldStartStage st) s (fun t => (t.m.pwr.cold = some ⟨c.ticket, c.stage + 1⟩ ∧ t.m.ctl = s.m.ctl
      ∧ t.m.plan = s.m.plan) ∧ P t) := by
  have hpwr : n.stageNext.pwr = { n.pwr with cold := some ⟨c.ticket, c.stage + 1⟩ } := by
    rw [Mod.stageNext, hcold, hc]; rfl
  refine ⟨_, rfl, ⟨?_, ?_, ?_⟩, hP _ ?_ ?_ ?_⟩
  · rw [State.event_pwr, hf, hpwr]
  · rw [State.event_ctl, hf]; exact hctl
  · rw [State.event_plan, hf]; exact hplan
  · rw [State.event_pwr, hf, hpwr]
  · rw [State.event_fab, hf]; rfl
  · rw [State.event_hbm, hf]; rfl

/-- Built-in test posts what failed (spec 16, R498): no stage, state or plan changes. -/
theorem Mod.bistFails_keep (failed : List TestOut) (seqs : List Nat) (m : Mod) :
    let n := seqs.foldl (fun m k => m.setCore k (fun r => { r with seqFailed := true }))
      (failed.foldl (fun m t => if (m.unit t.target.address).clinker then m else m.bistFailed t.target t.column) m)
    n.pwr.cold = m.pwr.cold ∧ n.ctl = m.ctl ∧ n.plan = m.plan := by
  have h := Mod.Steady.foldl (f := fun m (t : TestOut) => if (m.unit t.target.address).clinker then m else m.bistFailed t.target t.column)
    (fun m t => by
      split
      · exact .refl m
      · exact m.bistFailed_steady _ _) failed m
  rw [Mod.setCores_eq]
  exact ⟨(congrArg Power.cold h.pwr :), h.ctl, h.plan⟩

theorem Mod.coldFail_guard {m : Mod} {c : Cold} (hc : m.pwr.cold = some c) (d : Nat) :
    (m.coldFail d).pwr.guard = { m.pwr.guard with swA := false, swB := false } := by
  simp [Mod.coldFail, hc, Mod.railsGone_guard]

section
variable {s : State} {c : Cold} (hc : s.m.pwr.cold = some c)
include hc

theorem State.cold_rails (hst : c.stage = 0) (hok : s.m.pwr.guard.selfTestOk = true) :
    Completes (.coldStartStage .rails) s (fun t =>
      (t.m.pwr.cold = some ⟨c.ticket, c.stage + 1⟩ ∧ t.m.ctl = s.m.ctl ∧ t.m.plan = s.m.plan)
      ∧ t.m.pwr.rails = (List.range 16).foldl (fun x r => SMap.put 0 x r 2) s.m.pwr.rails) := by
  obtain ⟨g, hg⟩ := Mod.setRail_all 2 (List.range 16) s.m.fresh
  have hf : s.m.fresh.coldStage .rails = (s.m.fresh.setRails 2).stageNext := by
    rw [Mod.coldStage, s.m.fresh_pwr, hc]; exact if_pos ⟨hst, hok⟩
  rw [Mod.setRails, hg, s.m.fresh_pwr] at hf
  generalize (List.range 16).foldl _ _ = rails at hf ⊢
  exact State.coldStage_done hc hf rfl rfl rfl (fun t hp _ _ => by rw [hp])

theorem State.cold_kindling (hst : c.stage = 1) :
    Completes (.coldStartStage .kindling) s (fun t =>
      (t.m.pwr.cold = some ⟨c.ticket, c.stage + 1⟩ ∧ t.m.ctl = s.m.ctl ∧ t.m.plan = s.m.plan)
      ∧ t.m.pwr.cores = (List.range 8).foldl (fun x k => SMap.upd CoreRec.off x k (fun r => { r with ps := .idle, kindling := true }))
          s.m.pwr.cores) := by
  have hf : s.m.fresh.coldStage .kindling
      = ((List.range 8).foldl (fun m k => m.setCore k (fun r => { r with ps := .idle, kindling := true })) s.m.fresh).stageNext := by
    rw [Mod.coldStage, s.m.fresh_pwr, hc]; exact if_pos hst
  rw [Mod.setCores_eq, s.m.fresh_pwr] at hf
  generalize (List.range 8).foldl _ _ = cores at hf ⊢
  exact State.coldStage_done hc hf rfl rfl rfl (fun t hp _ _ => by rw [hp])

theorem State.cold_builtInTest (hst : c.stage = 2) (failed : List TestOut) (seqs : List Nat) :
    Completes (.coldStartStage (.builtInTest failed seqs)) s (fun t =>
      (t.m.pwr.cold = some ⟨c.ticket, c.stage + 1⟩ ∧ t.m.ctl = s.m.ctl ∧ t.m.plan = s.m.plan) ∧ True) := by
  obtain ⟨hcold, hctl, hplan⟩ := Mod.bistFails_keep failed seqs s.m.fresh
  refine State.coldStage_done hc ?_ hcold hctl hplan (fun _ _ _ _ => trivial)
  rw [Mod.coldStage, s.m.fresh_pwr, hc]; exact if_pos hst

theorem State.cold_spareMap (hst : c.stage = 3) :
    Completes (.coldStartStage .spareMap) s (fun t =>
      (t.m.pwr.cold = some ⟨c.ticket, c.stage + 1⟩ ∧ t.m.ctl = s.m.ctl ∧ t.m.plan = s.m.plan)
      ∧ t.m.pwr.cores = (List.range 8).foldl (fun x k => SMap.upd CoreRec.off x k (fun r => { r with kindling := false }))
          s.m.pwr.cores) := by
  have hf : s.m.fresh.coldStage .spareMap = ((List.range 8).foldl (fun m k => m.setCore k (fun r => { r with kindling := false }))
      ((List.range 8).foldl Mod.formCore s.m.fresh)).stageNext := by
    rw [Mod.coldStage, s.m.fresh_pwr, hc]; exact if_pos hst
  obtain ⟨hpwr, hctl, hplan⟩ := Mod.Steady.foldl (f := Mod.formCore) (fun _ _ => ⟨rfl, rfl, rfl⟩) (List.range 8) s.m.fresh
  rw [Mod.setCores_eq, hpwr, s.m.fresh_pwr] at hf
  generalize (List.range 8).foldl Mod.formCore _ = n at hf hctl hplan
  generalize (List.range 8).foldl _ _ = cores at hf ⊢
  exact State.coldStage_done hc hf rfl hctl hplan (fun t hp _ _ => by rw [hp])

theorem State.cold_hbm (hst : c.stage = 4) (retries : Nat) :
    Completes (.coldStartStage (.hbmTrained retries)) s (fun t =>
      (t.m.pwr.cold = some ⟨c.ticket, c.stage + 1⟩ ∧ t.m.ctl = s.m.ctl ∧ t.m.plan = s.m.plan)
      ∧ t.m.hbm.w = 64 ∧ t.m.hbm.planGib = 4 ∧ t.m.hbm.settleGib = 16 ∧ t.m.hbm.bankGib = 0
      ∧ t.m.hbm.mem = SMap.keep s.m.hbm.mem (fun a => decide (hbmEnd ≤ a))
      ∧ t.m.pwr.hbmStacks = (List.range 12).map (fun k => (k, ⟨2, 1⟩))) := by
  obtain ⟨n, hf, hctl, hplan, hpwr, hhbm⟩ : ∃ n : Mod, s.m.fresh.coldStage (.hbmTrained retries) = n.stageNext
      ∧ n.ctl = s.m.ctl ∧ n.plan = s.m.plan
      ∧ n.pwr = { s.m.pwr with hbmStacks := (List.range 12).map (fun k => (k, ⟨2, 1⟩)) }
      ∧ n.hbm = { (s.m.zeroHbm (fun _ => false)).hbm with
          w := 64, planGib := 4, settleGib := 16, bankGib := 0, fixes := [], reported := [], poisonSeen := [] } := by
    rw [Mod.coldStage, s.m.fresh_pwr, hc]
    dsimp only
    rw [if_pos hst]
    exact ⟨_, rfl, rfl, rfl, rfl, rfl⟩
  refine State.coldStage_done hc hf (by rw [hpwr]) hctl hplan (fun t hp _ hh => ?_)
  rw [hp, hh, hpwr, hhbm]
  exact ⟨rfl, rfl, rfl, rfl, by simp [Mod.zeroHbm], rfl⟩

theorem State.cold_channels (hst : c.stage = 5) :
    Completes (.coldStartStage .channels) s (fun t =>
      (t.m.pwr.cold = some ⟨c.ticket, c.stage + 1⟩ ∧ t.m.ctl = s.m.ctl ∧ t.m.plan = s.m.plan)
      ∧ t.m.fab.chans = (List.range 28).foldl (fun x k => SMap.upd Chan.off x k (fun x =>
          { x with powered := true, st := if x.st = .disabled then .disabled else .training })) s.m.fab.chans) := by
  have hf : s.m.fresh.coldStage .channels = ((List.range 28).foldl (fun m k => m.setChan k (fun x =>
      { x with powered := true, st := if x.st = .disabled then .disabled else .training })) s.m.fresh).stageNext := by
    rw [Mod.coldStage, s.m.fresh_pwr, hc]; exact if_pos hst
  rw [Mod.setChans_eq, show s.m.fresh.fab.chans = s.m.fab.chans from rfl] at hf
  generalize (List.range 28).foldl _ _ = chans at hf ⊢
  exact State.coldStage_done hc hf rfl rfl rfl (fun t _ hfab _ => by rw [hfab])

end

/-- The end of a cold start (spec 16, R497; spec 15, R482): READY, no owner, and a change of owner if there was one. -/
theorem Mod.coldDone_ready {m : Mod} {c : Cold} (hc : m.pwr.cold = some c) (hst : c.stage = 6) (hm : m.out = Outbox.empty) :
    ∃ n : Mod, m.coldDone = n.complete c.ticket Op.pstateSet Cls.ok Detail.none []
      ∧ n.ctl.state = .ready ∧ n.ctl.owner = none ∧ n.pwr.cold = none ∧ n.link0.on = true ∧ n.link1.on = true
      ∧ n.out = { Outbox.empty with attn := if m.ctl.owner = none then 0 else Attn.owner } := by
  unfold Mod.coldDone
  rw [hc]
  dsimp only
  rw [if_pos hst]
  refine ⟨_, rfl, ?_⟩
  by_cases ho : m.ctl.owner = none <;> simp [ho, Mod.setOwner, Mod.attention, hm, Outbox.empty]

/-- Settles O22: each stage by its own lemma, a self-test that fails by `Mod.coldFail_standby`, the end by `Mod.coldDone_ready`. -/
theorem coldStartGoesStageByStage : Obligations.ColdStartGoesStageByStage := by
  rintro s ⟨w, n⟩ hq hc
  refine ⟨fun hst => ?_, fun hst => ?_, fun hst hok => ?_, fun hst => ?_, fun hst failed seqs => ?_, fun hst => ?_,
    fun hst retries => ?_, fun hst => ?_, fun hst => ?_⟩ <;> obtain rfl : n = _ := hst
  · refine completes_of_event (n := s.m.fresh.setGuard (fun g =>
      { g with selfTestOk := true, causes := g.causes.filter (fun t => t != .sensor) })) rfl
      (by rw [s.m.fresh_pwr, hc]; rfl) (fun f hf => ⟨⟨?_, ?_, ?_⟩, ?_⟩)
    · rw [State.event_pwr, hf]; exact hc
    · rw [State.event_ctl, hf]; rfl
    · rw [State.event_plan, hf]; rfl
    · rw [State.event_pwr, hf]; rfl
  · have hc' : s.m.fresh.pwr.cold = some ⟨w, 0⟩ := hc
    obtain ⟨hst, hcold, -⟩ := Mod.coldFail_standby hc' Detail.tripSwitch
    have hguard := Mod.coldFail_guard hc' Detail.tripSwitch
    refine completes_of_event (n := s.m.fresh.coldFail Detail.tripSwitch) rfl (by rw [hc']; rfl)
      (fun f hf => ⟨?_, ?_, ?_, ?_, fun hu => ?_⟩)
    · rw [State.event_ctl, hf]; exact hst
    · rw [State.event_pwr, hf]; exact hcold
    · rw [State.event_pwr, hf, hguard]
    · rw [State.event_pwr, hf, hguard]
    · have hseen : Observed s (s.event f) 0 [] [⟨w.port, w.tag, Op.pstateSet, Cls.faulted, Detail.tripSwitch, []⟩] :=
        State.event_observed (by rw [hf, Mod.coldFail_out hc' hu, show s.m.fresh.out = Outbox.empty from hq]; rfl)
      rw [hseen.2, HostIo.attend_quiet _ rfl rfl rfl]; rfl
  · exact State.cold_rails hc rfl hok
  · exact State.cold_kindling hc rfl
  · obtain ⟨t, hx, hd, -⟩ := State.cold_builtInTest hc rfl failed seqs
    exact ⟨t, hx, hd⟩
  · exact State.cold_spareMap hc rfl
  · exact State.cold_hbm hc rfl retries
  · exact State.cold_channels hc rfl
  · obtain ⟨n, hn, hst, hown, hcold, h0, h1, hout⟩ := Mod.coldDone_ready (m := s.m.fresh) hc rfl hq
    refine completes_of_event rfl hn (fun f hf => ⟨?_, ?_, ?_, ?_, ?_, ?_⟩)
    · rw [State.event_ctl, hf]; exact hst
    · rw [State.event_ctl, hf]; exact hown
    · rw [State.event_pwr, hf]; exact hcold
    · rw [State.event_link0, hf]; exact h0
    · rw [State.event_link1, hf]; exact h1
    · exact (State.event_observed (ks := [⟨w.port, w.tag, Op.pstateSet, Cls.ok, Detail.none, []⟩])
        (by rw [hf, Mod.complete, hout]; rfl)).2

/-! ### PSTATE_SET (spec 16, R503 to R507) -/

theorem State.found_coreMayGo (s : State) (h : Cmd) (core state op : Nat) :
    (s.found h).coreMayGo core state op = s.m.coreMayGo core state op := by
  obtain ⟨_, _, hf⟩ := s.found_eq h; rw [hf]; rfl
theorem State.found_targetMayGo (s : State) (h : Cmd) (port kind index state : Nat) :
    (s.found h).targetMayGo port kind index state = s.m.targetMayGo port kind index state := by
  obtain ⟨_, _, hf⟩ := s.found_eq h; rw [hf]; rfl
theorem State.found_pstateSame (s : State) (h : Cmd) (kind index state op : Nat) :
    (s.found h).pstateSame kind index state op = s.m.pstateSame kind index state op := by
  obtain ⟨_, _, hf⟩ := s.found_eq h; rw [hf]; rfl
theorem State.found_changing (s : State) (h : Cmd) (kind index : Nat) : (s.found h).changing kind index = s.m.changing kind index := by
  simp [Mod.changing]

theorem Mod.putCore_cores (m : Mod) (c : Nat) (st : CorePs) (op : Nat) :
    (m.putCore c st op).pwr.cores = SMap.upd CoreRec.off m.pwr.cores c (fun r =>
      { r with ps := st, op := if st = .run then op else 0, changing := true,
               kindling := if st = .off then false else r.kindling }) := by
  unfold Mod.putCore
  dsimp only
  split
  · rfl
  · split <;> rfl

theorem CorePs.ofCode_run : ∀ n, n < 4 → (CorePs.ofCode n = .run ↔ n = 3) := by decide
theorem CorePs.ofCode_off : ∀ n, n < 4 → (CorePs.ofCode n = .off ↔ n = 0) := by decide

/-- A core that takes its change at once (spec 16, R504, R505). -/
theorem Mod.pstateTake_core {m : Mod} {index state op : Nat} (t : Ticket) (hst : m.ctl.state = .ready) (hlt : state < 4) :
    (m.pstateTake ⟨0, index, state, op, t, false⟩).pwr.cores = SMap.upd CoreRec.off m.pwr.cores index (fun r =>
        { r with ps := CorePs.ofCode state, op := if state = 3 then op else 0, changing := true,
                 kindling := if state = 0 then false else r.kindling })
      ∧ (m.pstateTake ⟨0, index, state, op, t, false⟩).ctl = m.ctl
      ∧ (m.pstateTake ⟨0, index, state, op, t, false⟩).out = m.out := by
  have hrun := CorePs.ofCode_run state hlt
  have hoff := CorePs.ofCode_off state hlt
  have htake : m.pstateTake ⟨0, index, state, op, t, false⟩
      = ({ m with pwr := { m.pwr with changes := m.pwr.changes ++ [⟨0, index, state, op, t, false⟩] } } : Mod).applyChange
          ⟨0, index, state, op, t, false⟩ := by
    simp [Mod.pstateTake, hst]
  rw [htake]
  refine ⟨?_, ?_, ?_⟩
  · simp only [Mod.applyChange, Mod.markApplied, Mod.putCore_cores, hrun, hoff]
  · obtain ⟨_, _, _, _, _, h⟩ := Mod.applyChange_offRound _ _; rw [h]
  · obtain ⟨_, _, _, _, _, h⟩ := Mod.applyChange_offRound _ _; rw [h]

/-- The cold start begins (spec 16, R497). -/
theorem Mod.coldStart_begins (m : Mod) (t : Ticket) :
    (m.coldStart t).ctl.state = .kindling ∧ (m.coldStart t).pwr.cold = some ⟨t, 0⟩ ∧ (m.coldStart t).pwr.guard.swA = true
      ∧ (m.coldStart t).pwr.guard.swB = true ∧ (m.coldStart t).log.next = 1 ∧ (m.coldStart t).out = m.out := by
  simp [Mod.coldStart, Mod.setGuard]

section
variable {s : State} {h : Cmd} {kind index state op : Byte} (hs : s.Starts h) (ha : s.accepts Op.pstateSet)
  (hown : s.m.ctl.owner = some h.port) (hb : noBuffer h = true)
  (hlegal : pstateLegal kind.toNat index.toNat state.toNat op.toNat = true) (href : s.m.ctl.refLost = false)
  (hch : s.m.changing kind.toNat index.toNat = false)
include hs ha hown hb hlegal href hch

theorem State.Starts.pstateSet_coldStart (hk : kind.toNat = 4) (hon : state.toNat = 1) (hst : s.m.ctl.state = .standby)
    (hcool : s.m.pwr.guard.coolOk = true) (hlock : s.m.pwr.guard.lockout = false) :
    Completes (.pstateSet h kind index state op) s (fun t =>
      Answered s t h 0 [] Op.pstateSet Cls.accepted Detail.none [] ∧ t.m.ctl.state = .kindling
      ∧ t.m.pwr.cold = some ⟨⟨h.port, h.tag⟩, 0⟩ ∧ t.m.pwr.guard.swA = true ∧ t.m.pwr.guard.swB = true
      ∧ t.m.log.next = 1) := by
  obtain ⟨hkin, hcold, hswa, hswb, hlog, hout⟩ := (s.found h).coldStart_begins ⟨h.port, h.tag⟩
  have hgo : (s.found h).pstateSet ⟨h.port, h.tag⟩ kind.toNat index.toNat state.toNat op.toNat
      = Ans.accepted ((s.found h).coldStart ⟨h.port, h.tag⟩) := by
    rw [← s.found_changing h] at hch
    rw [hk] at hch ⊢
    rw [hon]
    simp [Mod.pstateSet, Mod.targetMayGo, Mod.pstateSame, s.found_refLost h, href, hst, hcool, hlock, hch]
  exact hs.completes (i := .pstateSet h kind index state op) (b := 0) (ks := []) rfl ha (fun _ => hown) rfl rfl
    (plainParams_none hb (by simp [hlegal]) (s.found h)) hgo (.inr rfl) (hout.trans ((s.found_out h).trans hs.quiet)) (by simp)
    (fun t hans hm => by rw [hm]; exact ⟨hans, hkin, hcold, hswa, hswb, hlog⟩)

theorem State.Starts.pstateSet_core (hk : kind.toNat = 0) (hmay : s.m.coreMayGo index.toNat state.toNat op.toNat = true)
    (hst : s.m.ctl.state = .ready) (hsame : s.m.pstateSame 0 index.toNat state.toNat op.toNat = false) :
    Completes (.pstateSet h kind index state op) s (fun t =>
      Answered s t h 0 [] Op.pstateSet Cls.accepted Detail.none []
      ∧ t.m.pwr.cores = SMap.upd CoreRec.off s.m.pwr.cores index.toNat (fun r =>
          { r with ps := CorePs.ofCode state.toNat, op := if state.toNat = 3 then op.toNat else 0, changing := true,
                   kindling := if state.toNat = 0 then false else r.kindling })
      ∧ t.m.ctl.state = .ready) := by
  have hlt : state.toNat < 4 := by
    rw [hk] at hlegal
    simp only [pstateLegal, if_true, Bool.and_eq_true, decide_eq_true_eq] at hlegal
    exact hlegal.1.2
  obtain ⟨hcores, hctl, hout⟩ := (s.found h).pstateTake_core (index := index.toNat) (op := op.toNat) ⟨h.port, h.tag⟩
    ((s.found_state h).trans hst) hlt
  rw [s.found_pwr] at hcores
  have hgo : (s.found h).pstateSet ⟨h.port, h.tag⟩ kind.toNat index.toNat state.toNat op.toNat
      = Ans.accepted ((s.found h).pstateTake ⟨0, index.toNat, state.toNat, op.toNat, ⟨h.port, h.tag⟩, false⟩) := by
    rw [← s.found_changing h] at hch
    rw [← s.found_coreMayGo h] at hmay
    rw [← s.found_pstateSame h] at hsame
    rw [hk] at hch ⊢
    simp [Mod.pstateSet, s.found_refLost h, href, hst, hch, hmay, hsame]
  exact hs.completes (i := .pstateSet h kind index state op) (b := 0) (ks := []) rfl ha (fun _ => hown) rfl rfl
    (plainParams_none hb (by simp [hlegal]) (s.found h)) hgo (.inr rfl) (hout.trans ((s.found_out h).trans hs.quiet)) (by simp)
    (fun t hans hm => by rw [hm]; exact ⟨hans, hcores, (congrArg Ctl.state hctl).trans ((s.found_state h).trans hst)⟩)

theorem State.Starts.pstateSet_same (hst : s.m.ctl.state = .ready)
    (hsame : s.m.pstateSame kind.toNat index.toNat state.toNat op.toNat = true)
    (hcore : kind.toNat = 0 → s.m.coreMayGo index.toNat state.toNat op.toNat = true)
    (htarget : kind.toNat ≠ 0 → s.m.targetMayGo h.port kind.toNat index.toNat state.toNat = true)
    (hbank : s.m.bankRuns = false) (hstream : s.m.streamBusy = false) :
    Replies (.pstateSet h kind index state op) s h 0 [] Op.pstateSet Cls.accepted [] (s.found h)
      [⟨h.port, h.tag, Op.pstateSet, Cls.ok, Detail.none, []⟩] := by
  have hq : (s.found h).out = Outbox.empty := (s.found_out h).trans hs.quiet
  have hgo : (s.found h).pstateSet ⟨h.port, h.tag⟩ kind.toNat index.toNat state.toNat op.toNat
      = Ans.accepted ((s.found h).complete ⟨h.port, h.tag⟩ Op.pstateSet Cls.ok Detail.none []) := by
    rw [← s.found_changing h] at hch
    rw [← s.found_pstateSame h] at hsame
    rw [← s.found_coreMayGo h] at hcore
    rw [← s.found_targetMayGo h] at htarget
    rw [← s.found_bankRuns h] at hbank
    rw [← s.found_streamBusy h] at hstream
    by_cases h0 : kind.toNat = 0
    · have hmay := hcore h0
      rw [h0] at hch hsame ⊢
      simp [Mod.pstateSet, s.found_refLost h, href, hst, hch, hmay, hsame]
    · simp [Mod.pstateSet, s.found_refLost h, href, hst, hch, htarget h0, hsame, hbank, hstream, h0]
  exact hs.completes (i := .pstateSet h kind index state op) (b := 0) rfl ha (fun _ => hown) rfl rfl
    (plainParams_none hb (by simp [hlegal]) (s.found h)) hgo (.inr rfl) (Mod.complete_out_quiet hq _ _ _ _ _) (by simp)
    (fun t hans hm => ⟨hans, hm.trans (Mod.out_empty (m := s.found h) hq)⟩)

end

/-- What a change in full effect leaves, whatever its target: the pending changes, the counters and the outbox. -/
structure Mod.Quieted (m n : Mod) : Prop where
  changes : n.pwr.changes = m.pwr.changes
  cnt : n.cnt = m.cnt
  out : n.out = m.out

theorem Mod.stackDone_quieted (m : Mod) (k state : Nat) : m.Quieted (m.stackDone k state) := by
  unfold Mod.stackDone
  dsimp only
  split
  · exact ⟨rfl, rfl, rfl⟩
  · split <;> exact ⟨rfl, rfl, rfl⟩

theorem Mod.setLink_quieted (m : Mod) (p : Nat) (f : Link → Link) : m.Quieted (m.setLink p f) := by
  unfold Mod.setLink; split <;> exact ⟨rfl, rfl, rfl⟩

/-- The change's effect on its target (spec 16, R504 to R506). -/
def Mod.changeTarget (m : Mod) (c : Change) : Mod :=
  if c.kind = 0 then m.setCore c.index (fun r => { r with changing := false })
  else if c.kind = 1 then m.stackDone c.index c.state
  else if c.kind = 2 then
    m.setChan c.index (fun x =>
      if c.state = 0 then { x with st := if x.st = .disabled then .disabled else .down }
      else { x with st := if x.st = .disabled then .disabled else .training })
  else if c.kind = 3 ∧ c.state = 1 then m.setLink c.index (fun l => { l with on := true })
  else m

theorem Mod.changeTarget_quieted (m : Mod) (c : Change) : m.Quieted (m.changeTarget c) := by
  unfold Mod.changeTarget
  split
  · exact ⟨rfl, rfl, rfl⟩
  · split
    · exact m.stackDone_quieted _ _
    · split
      · exact ⟨rfl, rfl, rfl⟩
      · split
        · exact m.setLink_quieted _ _
        · exact ⟨rfl, rfl, rfl⟩

/-- The pending changes once change c is in full effect. -/
def Mod.dropChange (m : Mod) (c : Change) : Mod :=
  { m with pwr := { m.pwr with changes := m.pwr.changes.filter (fun x => !(x.kind == c.kind && x.index == c.index)) } }

theorem Mod.changeDone_eq (m : Mod) (c : Change) : m.changeDone c
    = (((m.dropChange c).changeTarget c).count Cnt.pstateApplied 1).complete c.ticket Op.pstateSet Cls.ok Detail.none [] := rfl

/-- Settles O23: each command by its own lemma, a completion by `Mod.changeTarget_quieted`. -/
theorem powerStatesChange : Obligations.PowerStatesChange := by
  refine ⟨fun s h kind index state op hs ha hown hb hlegal href hch => ⟨fun hk hon hst hcool hlock =>
      hs.pstateSet_coldStart ha hown hb hlegal href hch hk hon hst hcool hlock,
    fun hk hmay hst hsame => hs.pstateSet_core ha hown hb hlegal href hch hk hmay hst hsame,
    fun _ hst hsame hcore htarget hbank hstream =>
      hs.pstateSet_same ha hown hb hlegal href hch hst hsame hcore htarget hbank hstream⟩, fun s kind index c hq hfind => ?_⟩
  obtain ⟨hchanges, hcnt, hout⟩ := (s.m.fresh.dropChange c).changeTarget_quieted c
  refine completes_of_event (n := s.m.fresh.changeDone c) rfl (by rw [s.m.fresh_pwr, hfind]) (fun f hf => ?_)
  rw [Mod.changeDone_eq] at hf
  have hdone : (f s.m.fresh).out = { Outbox.empty with
      attn := 0, completions := [⟨c.ticket.port, c.ticket.tag, Op.pstateSet, Cls.ok, Detail.none, []⟩] } := by
    rw [hf]; exact Mod.complete_out_quiet (hout.trans hq) _ _ _ _ _
  refine ⟨State.event_observed hdone, ?_, ?_⟩
  · rw [State.event_pwr, hf]
    exact hchanges
  · rw [State.event_m hdone, hf]
    exact congrArg (fun x => SMap.upd Counter.zero x Cnt.pstateApplied (fun y => y.add 1)) hcnt

end Sys2Proof.Machine
